-- ==== Sys2Proof/Word.lean ====
section
/-! DEFINITION. The word types of the device and the ranges of its numbers. -/

namespace Sys2Proof

/-- A register word (spec/00_scope.md, Registers). -/
abbrev Word := BitVec 64
/-- A byte of a frame or of memory. -/
abbrev Byte := BitVec 8
/-- A slice, 0 to 7. -/
abbrev Slice := Fin 8
/-- A logical port, 0 to 767 (R9). -/
abbrev Port := Fin 768
/-- A clerk, 0 to 7. -/
abbrev Clerk := Fin 8
/-- An HBM stack, 0 to 3. -/
abbrev Stack := Fin 4
/-- A lane, 0 to 767 (R9). -/
abbrev Lane := Fin 768

end Sys2Proof
end

