-- ==== Sys2Proof/Machine/Names.lean ====
section
/-! DEFINITION. The names of the registers and on-die arrays (the register maps of spec/), their fields, and the
row each register has in its map: block, offset, dimensions, access types of the bits and reset value. -/

namespace Sys2Proof.Machine

/-- Every register of the register maps, under its own name, then the on-die arrays that no register map lists.
PA_STATE0 to PA_STATE3 are the four words of a PA_STATE entry, PA_TRANS0 and PA_TRANS1 those of a PA_TRANS entry. -/
inductive RegName
  | CS_CTRL | CS_REFUSE_CNT | CS_NOOWNER_CNT | CS_TAGFAIL_CNT | CS_COCHECK_CNT | CS_CO_INDEX | CS_CO_W0 | CS_CO_W1
  | CS_CO_CMD | CS_SHADOW_BASE | CS_PORTCFG | CS_PERMIT | PT_GMODE | PT_GSTATUS | PT_NOPORT_CNT | PT_CFG
  | PT_STATUS | PT_EVENT | PT_EVENT_EN | PT_FECTHR | PT_AN_ADV | PT_AN_LP | PT_LINKVEC | PT_CNT | SD_LANECFG
  | SD_LANESTAT | SD_PRBS | SD_PRBS_ERR | SD_REFSTAT | PA_CTRL | PA_STATUS | PA_BANKCOPY | PA_POLICY | PA_CNT
  | PA_PORTCFG | PA_TKMAP | PA_STATE0 | PA_STATE1 | PA_STATE2 | PA_STATE3 | PA_TRANS0 | PA_TRANS1 | SE_KEYPROF
  | SE_PCNT_INDEX | SE_PCNT_CMD | SE_PCNT_PKTS | SE_PCNT_BYTES | SE_ISA_CNT | SE_CTRL | SE_STATUS | SE_BANKCOPY
  | SE_ENTRY | SE_BUDGET | SE_ABORT_CNT | SE_REFBASE | NS_UW | NS_NW | CL_CTRL | CL_STATUS | CL_INDEX | CL_CMD
  | CL_SHADOW_BASE | CL_VALUE | CL_MASK | CL_A0 | CL_A1 | CL_CNT | CL_LIST | GC_CTRL | GC_STATUS | GC_INDEX
  | GC_CMD | GC_A_WORD | GC_A_ATTR | GC_B_WORD | GC_B_ATTR | GC_SHADOW_BASE | GC_CNT | GC_PROBE_MASK
  | GC_PROBE_CFG | FT_CTRL | FT_STATUS | FT_SHADOW_BASE | FT_TARGET | FT_DATA_HI | FT_DATA_LO | FT_CMD | FT_SYNC
  | FT_LP_FENCE | FT_LP_BANKMAP | FT_LP_PROFILE | FT_HX_DESC | FT_HX_TARGET | FT_HX_ENTRY | FT_HX_CMD | FT_CNT
  | FT_CH_CTRL | FT_CH_STATUS | FT_CH_KEY | FT_CH_DATA | FT_CH_CMD | FT_CH_RESULT | FT_CH_WORD1 | FT_CH_STAMP
  | FT_CH_SEED | FT_CH_RING | FT_CH_RING_PROD | FT_CH_RING_CONS | FT_CH_CNT | ED_CTRL | ED_STATUS | ED_CMD
  | ED_MISSING | ED_DRAIN | ED_FLIPTIME | ED_FLIPS | ED_EVENT | ED_EVENT_EN | ED_CNT | XB_CTRL | XB_STATUS
  | XB_RESTORE | XB_CNT | XB_GROUP | XB_MIRROR | BP_CARVE | BP_STATUS | BP_FREE | BP_FREEFAULT | BP_ALLOW | BP_CNT
  | BP_GROUP | TM_STATUS | TM_PORTCFG | TM_PORTSTAT | TM_GCLBASE | TM_GCLCMD | TM_WRED | TM_WREDCTL | TM_RCQ
  | TM_CNT | TM_POL_INDEX | TM_POL_CFG0 | TM_POL_CFG1 | TM_POL_CFG2 | TM_POL_CMD | TM_POL_STATE0 | TM_POL_STATE1
  | TM_POL_CNT | TM_QCFG | TM_QCFG2 | TM_QSTAT | TM_QSTAT2 | TM_QCNT | TM_GCL | TM_CAL | LG_CTRL | LG_STATUS
  | LG_SEQ | LG_LAST_MINUTE | LG_BOOK_BASE | LG_RING | LG_RING_PROD | LG_RING_CONS | LG_HELD | LG_LAST_SEAL
  | LG_EVENT | LG_EVENT_EN | LG_LGPORT | LG_CNT | CX_CTRL | CX_STATUS | CX_ALARM_EN | CX_ALARM | CX_ZEROIZE
  | CX_ERASE | CX_IMPORT_CMD | CX_IMPORT_STATUS | CX_IMPORT_PN | CX_IMPORT_BUF | CX_DEVPUB | CX_PNWARN | CX_PNSTOP
  | CX_CNT | CX_EVENT | CX_EVENT_EN | CX_PNWARN_VEC | CX_SEALSLOT | CX_KEKSLOT | CX_SECY | CX_TXSCI | CX_RXSCI
  | CX_TXMAP | CX_RXMAP | CX_SA | CX_PN | CX_SALT_HI | CX_SALT_LO | CK_STATUS | CK_UCTRL | CK_UINIT | CK_UFOLD
  | CK_UTAIL | CK_UCMD | CK_UEXPECT | CK_URESULT | CK_USTATUS | CK_CNT | CK_UWIN | HM_CTRL | HM_STATUS | HM_EVENT
  | HM_EVENT_EN | HM_WEIGHT | HM_ERRLOG | HM_CNT | HM_DB | HM_DB_STAT | HM_STACKCMD | HM_STACKSTAT | HM_SHARE
  | HM_SCNT | MC_CTRL | MC_STATUS | MC_BOOT | MC_FUSE | MC_FUSECMD | MC_CMD | MC_ENTRY | MC_PRIV | MC_HBMWIN
  | MC_EXC | MC_WAKE | MC_KICK | MC_WDOG | MC_RXRING | MC_RXPROD | MC_RXCONS | MC_TXRING | MC_TXPROD | MC_TXCONS
  | MC_TXSTAT | MC_CNT | MC_CLASS | MC_CLASSB | MC_CLASSCNT | MC_UW | MC_NW | TW_HCTRL | TW_HSTATUS | TW_RXPOP
  | TW_TXFREE | TW_RXLEVEL | TW_RSEQ | TW_HCNT | TW_TXWIN | TW_RXAPT | TW_CTRL | TW_HOSTPRIV | TW_HBMWIN
  | TW_IMGBASE | TW_STATUS | TW_EVENT | TW_EVENT_EN | TW_REQRING | TW_REQPROD | TW_REQCONS | TW_CRCMD | TW_CRCPT
  | EV_CTRL | EV_HOSTCFG | EV_CLAIM | EV_DONE | EV_SOFT_SET | EV_SOFT | EV_CFG | EV_STACK | EV_CUR | EV_CSTAT
  | EV_PSOFT_SET | EV_PSOFT | EV_TIMER | EV_HANDLER | EV_PRIV | EV_CNT | EV_SRC | EV_STRANDED | EV_HPEND | PM_CTRL
  | PM_STATUS | PM_CYCLES | PM_SEL | PM_CTR | PM_SAMPLE | PM_SAMPLE_TIME | MC_PMCTRL | MC_PMSTATUS | MC_PMCYCLES
  | MC_PMSEL | MC_PMCTR | MC_PMSAMPLE | SF_CTRL | SF_MEMBER | SF_STATUS | SF_BASEMAC | SF_HELLO_DA | SF_EVENT
  | SF_EVENT_EN | SF_LINKLIVE | SF_LINKCHG | SF_REACH_INDEX | SF_REACH_CMD | SF_REACH_W | SF_MIRDEST | SF_CNT
  | SF_LINK | SF_NBRID | TP_CTRL | TP_STATUS | TP_EVENT | TP_EVENT_EN | TP_HOSTWORD | TP_PEERWORD | TP_PEERSTAT
  | TP_TXSEQ | TP_PAIR | TP_CNT | TP_PORTMAP | GL_ID | GL_DEVICE_ID | GL_RESET_CAUSE | GL_RESET | GL_STRAPS
  | PW_CTRL | PW_STATUS | PW_EVENT | PW_EVENT_EN | PW_RAILALARM | PW_CLKMON | PW_TEMP | PW_SLICECMD | PW_SLICESTAT
  | PW_CLERKCMD | TB_CTRL | TB_TIME | TB_ADJ | TB_STEP | TB_SET | TB_PPSCAP | TB_TODRX | TB_LASTMARK | TB_EVENT
  | TB_EVENT_EN | TB_TXTS_HEAD | TB_TXTS_TIME | TB_CNT | GL_GPIO_DIR | GL_GPIO_OUT | GL_GPIO_IN | GL_I2CT
  | PW_VRCTRL | PW_VR | PW_VRDATA | FC_CTRL | FC_STATUS | FC_LOG_HEAD | FC_LOG_TIME | FC_TENANT_CMD | FC_PORT_CMD
  | FC_SLICE_CMD | FC_HOLD | FC_INJECT | FC_SELFTEST | FC_SELFTEST_STATUS | FC_STRIP | FC_PIPE | FC_POLICY
  | FC_TFROZEN | FC_PFROZEN
  /-- TC replica: entry e, word w at ix 2e+w (08, R187). -/
  | A_TC
  /-- EX replica: entry e, word w at ix 2e+w (08, R197). -/
  | A_EX
  /-- EX stamp record of entry e, laid out as FT_CH_STAMP (08, R197, R203). -/
  | A_STAMP
  /-- LP root: entry e, edition half b at ix 2e+b (08, R191). -/
  | A_ROOT
  /-- LP node slot: bank * 65,536 + offset (08, R191). -/
  | A_SLOT
  /-- LP leaf word l: bits [127:64] at ix 2l, bits [63:0] at ix 2l+1 (08, R192). -/
  | A_LEAF
  /-- CO table: entry e, word w at ix 2e+w (02, R37). -/
  | A_CO
  /-- rule TCAM values: entry e, word w at ix 10e+w (07, R164). -/
  | A_CLV
  /-- rule TCAM masks: entry e, word w at ix 10e+w (07, R164). -/
  | A_CLM
  /-- rule TCAM A0 of entry e (07, R165). -/
  | A_CLA0
  /-- rule TCAM A1 of entry e (07, R165). -/
  | A_CLA1
  /-- Guard CAM match word of entry e (07, R168). -/
  | A_GCW
  /-- Guard CAM attribute word of entry e (07, R169). -/
  | A_GCA
  /-- program counter packets (05, R128). -/
  | A_PCP
  /-- program counter bytes (05, R128). -/
  | A_PCB
  /-- policer configuration word 0, laid out as TM_POL_CFG0 (11, R268). -/
  | A_POL0
  /-- policer configuration word 1 (11, R268). -/
  | A_POL1
  /-- policer configuration word 2 (11, R268). -/
  | A_POL2
  /-- policer committed bucket, signed, 10 fraction bits (11, R268). -/
  | A_POLC
  /-- policer excess or peak bucket, signed, 10 fraction bits (11, R268). -/
  | A_POLE
  /-- policer last-access time (11, R268). -/
  | A_POLT
  /-- reach entry m, word k at ix 4m+k (20, R447). -/
  | A_REACH
  /-- seal key words: slot k, word w at ix 4k+w (13, R312). -/
  | A_SEAL
  /-- KEK words: slot k, word w at ix 4k+w (13, R312). -/
  | A_KEK
  /-- SA key words: slot s, word w at ix 4s+w (13, R312). -/
  | A_SAK
  /-- the freeze-mask replica of a slice (02, R44): only its check mark is used. -/
  | A_FREEZE
  /-- MSI-X vector address (18, R426). -/
  | A_MSIX_ADDR
  /-- MSI-X vector data (18, R426). -/
  | A_MSIX_DATA
  /-- MSI-X vector control, bit 0 mask (18, R426). -/
  | A_MSIX_CTL
  /-- MSI-X pending bit array (18, R426). -/
  | A_MSIX_PBA
  deriving DecidableEq, Repr

/-- A field of a register: its register and its highest and lowest bit. -/
structure Fld where
  reg : RegName
  hi : Nat
  lo : Nat
  deriving DecidableEq, Repr

/-- Where a register map lies: BAR0 of the host, a device block, a slice block, or nowhere (an on-die array). -/
inductive RegSpace
  | bar0 | dev | slice | array
  deriving DecidableEq, Repr

/-- The row of a register in its map: its space, the offset of instance 0 from the block's space, its dimensions
(count, stride in bytes), the bits that are RW, W1C and WO (the others are RO or RSV), the bits that are assigned to
fields and readable, whether it is held per edition, whether it is one register behind every slice, and its reset value. -/
structure RegRow where
  space : RegSpace
  off : Nat
  dims : List (Nat × Nat)
  rw : Nat
  w1c : Nat
  wo : Nat
  readable : Nat
  banked : Bool
  shared : Bool
  rst : Nat
  deriving Repr

abbrev Fld.CS_CTRL_scrub_ms : Fld := ⟨.CS_CTRL, 31, 16⟩
abbrev Fld.CS_CTRL_fallback_port : Fld := ⟨.CS_CTRL, 0, 0⟩
abbrev Fld.CS_REFUSE_CNT_count : Fld := ⟨.CS_REFUSE_CNT, 47, 0⟩
abbrev Fld.CS_NOOWNER_CNT_count : Fld := ⟨.CS_NOOWNER_CNT, 47, 0⟩
abbrev Fld.CS_TAGFAIL_CNT_count : Fld := ⟨.CS_TAGFAIL_CNT, 47, 0⟩
abbrev Fld.CS_COCHECK_CNT_count : Fld := ⟨.CS_COCHECK_CNT, 47, 0⟩
abbrev Fld.CS_CO_INDEX_index : Fld := ⟨.CS_CO_INDEX, 17, 0⟩
abbrev Fld.CS_CO_W0_value : Fld := ⟨.CS_CO_W0, 63, 0⟩
abbrev Fld.CS_CO_W1_word1 : Fld := ⟨.CS_CO_W1, 63, 0⟩
abbrev Fld.CS_CO_CMD_busy : Fld := ⟨.CS_CO_CMD, 63, 63⟩
abbrev Fld.CS_CO_CMD_op : Fld := ⟨.CS_CO_CMD, 1, 0⟩
abbrev Fld.CS_SHADOW_BASE_base : Fld := ⟨.CS_SHADOW_BASE, 39, 0⟩
abbrev Fld.CS_PORTCFG_key_kind : Fld := ⟨.CS_PORTCFG, 2, 0⟩
abbrev Fld.CS_PERMIT_bits : Fld := ⟨.CS_PERMIT, 63, 0⟩
abbrev Fld.PT_GMODE_lane_mode : Fld := ⟨.PT_GMODE, 31, 0⟩
abbrev Fld.PT_GSTATUS_refused : Fld := ⟨.PT_GSTATUS, 63, 63⟩
abbrev Fld.PT_GSTATUS_cause : Fld := ⟨.PT_GSTATUS, 2, 0⟩
abbrev Fld.PT_NOPORT_CNT_count : Fld := ⟨.PT_NOPORT_CNT, 63, 0⟩
abbrev Fld.PT_CFG_enable : Fld := ⟨.PT_CFG, 63, 63⟩
abbrev Fld.PT_CFG_ct_enable : Fld := ⟨.PT_CFG, 62, 62⟩
abbrev Fld.PT_CFG_fabric : Fld := ⟨.PT_CFG, 61, 61⟩
abbrev Fld.PT_CFG_pmd : Fld := ⟨.PT_CFG, 60, 59⟩
abbrev Fld.PT_CFG_an_enable : Fld := ⟨.PT_CFG, 58, 58⟩
abbrev Fld.PT_CFG_down_hold_us : Fld := ⟨.PT_CFG, 47, 32⟩
abbrev Fld.PT_CFG_up_hold_ms : Fld := ⟨.PT_CFG, 31, 24⟩
abbrev Fld.PT_CFG_rx_wd_us : Fld := ⟨.PT_CFG, 23, 14⟩
abbrev Fld.PT_CFG_max_len : Fld := ⟨.PT_CFG, 13, 0⟩
abbrev Fld.PT_STATUS_state : Fld := ⟨.PT_STATUS, 63, 61⟩
abbrev Fld.PT_STATUS_partner_present : Fld := ⟨.PT_STATUS, 60, 60⟩
abbrev Fld.PT_STATUS_link_up : Fld := ⟨.PT_STATUS, 59, 59⟩
abbrev Fld.PT_STATUS_local_fault : Fld := ⟨.PT_STATUS, 58, 58⟩
abbrev Fld.PT_STATUS_remote_fault : Fld := ⟨.PT_STATUS, 57, 57⟩
abbrev Fld.PT_STATUS_fec_degraded : Fld := ⟨.PT_STATUS, 56, 56⟩
abbrev Fld.PT_STATUS_an_done : Fld := ⟨.PT_STATUS, 55, 55⟩
abbrev Fld.PT_STATUS_resolved : Fld := ⟨.PT_STATUS, 54, 51⟩
abbrev Fld.PT_STATUS_refuse_cause : Fld := ⟨.PT_STATUS, 50, 48⟩
abbrev Fld.PT_STATUS_lanes_locked : Fld := ⟨.PT_STATUS, 47, 40⟩
abbrev Fld.PT_EVENT_events : Fld := ⟨.PT_EVENT, 11, 0⟩
abbrev Fld.PT_EVENT_EN_enables : Fld := ⟨.PT_EVENT_EN, 11, 0⟩
abbrev Fld.PT_FECTHR_set_thr : Fld := ⟨.PT_FECTHR, 63, 32⟩
abbrev Fld.PT_FECTHR_clr_thr : Fld := ⟨.PT_FECTHR, 31, 0⟩
abbrev Fld.PT_AN_ADV_adv : Fld := ⟨.PT_AN_ADV, 12, 1⟩
abbrev Fld.PT_AN_LP_lp : Fld := ⟨.PT_AN_LP, 12, 1⟩
abbrev Fld.PT_LINKVEC_up : Fld := ⟨.PT_LINKVEC, 63, 0⟩
abbrev Fld.PT_CNT_count : Fld := ⟨.PT_CNT, 63, 0⟩
abbrev Fld.SD_LANECFG_pwr : Fld := ⟨.SD_LANECFG, 63, 62⟩
abbrev Fld.SD_LANECFG_rx_invert : Fld := ⟨.SD_LANECFG, 61, 61⟩
abbrev Fld.SD_LANECFG_tx_invert : Fld := ⟨.SD_LANECFG, 60, 60⟩
abbrev Fld.SD_LANECFG_adapt_freeze : Fld := ⟨.SD_LANECFG, 59, 59⟩
abbrev Fld.SD_LANECFG_tx_eq_override : Fld := ⟨.SD_LANECFG, 58, 58⟩
abbrev Fld.SD_LANECFG_loopback : Fld := ⟨.SD_LANECFG, 57, 55⟩
abbrev Fld.SD_LANECFG_tx_pre2 : Fld := ⟨.SD_LANECFG, 47, 40⟩
abbrev Fld.SD_LANECFG_tx_pre1 : Fld := ⟨.SD_LANECFG, 39, 32⟩
abbrev Fld.SD_LANECFG_tx_main : Fld := ⟨.SD_LANECFG, 31, 24⟩
abbrev Fld.SD_LANECFG_tx_post1 : Fld := ⟨.SD_LANECFG, 23, 16⟩
abbrev Fld.SD_LANESTAT_pwr_state : Fld := ⟨.SD_LANESTAT, 63, 62⟩
abbrev Fld.SD_LANESTAT_sig_detect : Fld := ⟨.SD_LANESTAT, 61, 61⟩
abbrev Fld.SD_LANESTAT_cdr_lock : Fld := ⟨.SD_LANESTAT, 60, 60⟩
abbrev Fld.SD_LANESTAT_pll_lock : Fld := ⟨.SD_LANESTAT, 59, 59⟩
abbrev Fld.SD_LANESTAT_rate : Fld := ⟨.SD_LANESTAT, 58, 56⟩
abbrev Fld.SD_LANESTAT_adapt : Fld := ⟨.SD_LANESTAT, 55, 54⟩
abbrev Fld.SD_LANESTAT_eye_h : Fld := ⟨.SD_LANESTAT, 31, 16⟩
abbrev Fld.SD_LANESTAT_eye_v : Fld := ⟨.SD_LANESTAT, 15, 0⟩
abbrev Fld.SD_PRBS_go : Fld := ⟨.SD_PRBS, 63, 63⟩
abbrev Fld.SD_PRBS_stop : Fld := ⟨.SD_PRBS, 62, 62⟩
abbrev Fld.SD_PRBS_state : Fld := ⟨.SD_PRBS, 61, 60⟩
abbrev Fld.SD_PRBS_gen : Fld := ⟨.SD_PRBS, 59, 57⟩
abbrev Fld.SD_PRBS_chk : Fld := ⟨.SD_PRBS, 56, 54⟩
abbrev Fld.SD_PRBS_ERR_errors : Fld := ⟨.SD_PRBS_ERR, 63, 0⟩
abbrev Fld.SD_REFSTAT_lost : Fld := ⟨.SD_REFSTAT, 10, 8⟩
abbrev Fld.SD_REFSTAT_present : Fld := ⟨.SD_REFSTAT, 2, 0⟩
abbrev Fld.PA_CTRL_scrub_ms : Fld := ⟨.PA_CTRL, 31, 16⟩
abbrev Fld.PA_CTRL_read_bank : Fld := ⟨.PA_CTRL, 0, 0⟩
abbrev Fld.PA_STATUS_bank_busy : Fld := ⟨.PA_STATUS, 63, 63⟩
abbrev Fld.PA_STATUS_write_refused : Fld := ⟨.PA_STATUS, 62, 62⟩
abbrev Fld.PA_STATUS_copy_done : Fld := ⟨.PA_STATUS, 61, 61⟩
abbrev Fld.PA_STATUS_refused_index : Fld := ⟨.PA_STATUS, 15, 0⟩
abbrev Fld.PA_BANKCOPY_go : Fld := ⟨.PA_BANKCOPY, 63, 63⟩
abbrev Fld.PA_BANKCOPY_busy : Fld := ⟨.PA_BANKCOPY, 62, 62⟩
abbrev Fld.PA_POLICY_limit_action : Fld := ⟨.PA_POLICY, 63, 62⟩
abbrev Fld.PA_POLICY_conflict_action : Fld := ⟨.PA_POLICY, 61, 60⟩
abbrev Fld.PA_POLICY_limit_punt : Fld := ⟨.PA_POLICY, 53, 48⟩
abbrev Fld.PA_POLICY_conflict_punt : Fld := ⟨.PA_POLICY, 45, 40⟩
abbrev Fld.PA_POLICY_recirc_start : Fld := ⟨.PA_POLICY, 7, 0⟩
abbrev Fld.PA_CNT_count : Fld := ⟨.PA_CNT, 47, 0⟩
abbrev Fld.PA_PORTCFG_start : Fld := ⟨.PA_PORTCFG, 63, 56⟩
abbrev Fld.PA_PORTCFG_fabric_start : Fld := ⟨.PA_PORTCFG, 55, 48⟩
abbrev Fld.PA_PORTCFG_tc_default : Fld := ⟨.PA_PORTCFG, 19, 0⟩
abbrev Fld.PA_TKMAP_base : Fld := ⟨.PA_TKMAP, 63, 44⟩
abbrev Fld.PA_TKMAP_fbit : Fld := ⟨.PA_TKMAP, 42, 32⟩
abbrev Fld.PA_TKMAP_fwidth : Fld := ⟨.PA_TKMAP, 28, 24⟩
abbrev Fld.PA_TKMAP_port_en : Fld := ⟨.PA_TKMAP, 20, 20⟩
abbrev Fld.PA_STATE0_ext0_src : Fld := ⟨.PA_STATE0, 63, 55⟩
abbrev Fld.PA_STATE0_ext0_len : Fld := ⟨.PA_STATE0, 54, 47⟩
abbrev Fld.PA_STATE0_ext0_dst : Fld := ⟨.PA_STATE0, 46, 38⟩
abbrev Fld.PA_STATE0_ext1_src : Fld := ⟨.PA_STATE0, 37, 29⟩
abbrev Fld.PA_STATE0_ext1_len : Fld := ⟨.PA_STATE0, 28, 21⟩
abbrev Fld.PA_STATE0_ext1_dst : Fld := ⟨.PA_STATE0, 20, 12⟩
abbrev Fld.PA_STATE0_default_next : Fld := ⟨.PA_STATE0, 11, 4⟩
abbrev Fld.PA_STATE1_len_mode : Fld := ⟨.PA_STATE1, 63, 62⟩
abbrev Fld.PA_STATE1_len_base : Fld := ⟨.PA_STATE1, 61, 53⟩
abbrev Fld.PA_STATE1_len_fbit : Fld := ⟨.PA_STATE1, 52, 42⟩
abbrev Fld.PA_STATE1_len_fwidth : Fld := ⟨.PA_STATE1, 41, 37⟩
abbrev Fld.PA_STATE1_len_scale : Fld := ⟨.PA_STATE1, 36, 34⟩
abbrev Fld.PA_STATE1_len_fmask : Fld := ⟨.PA_STATE1, 33, 18⟩
abbrev Fld.PA_STATE1_min_len : Fld := ⟨.PA_STATE1, 17, 9⟩
abbrev Fld.PA_STATE2_tot_en : Fld := ⟨.PA_STATE2, 63, 63⟩
abbrev Fld.PA_STATE2_tot_fbit : Fld := ⟨.PA_STATE2, 62, 52⟩
abbrev Fld.PA_STATE2_tot_fwidth : Fld := ⟨.PA_STATE2, 51, 47⟩
abbrev Fld.PA_STATE2_tot_add : Fld := ⟨.PA_STATE2, 46, 38⟩
abbrev Fld.PA_STATE2_tenant_key : Fld := ⟨.PA_STATE2, 37, 37⟩
abbrev Fld.PA_STATE2_tkmap : Fld := ⟨.PA_STATE2, 36, 33⟩
abbrev Fld.PA_STATE2_present_bit : Fld := ⟨.PA_STATE2, 32, 28⟩
abbrev Fld.PA_STATE2_present_en : Fld := ⟨.PA_STATE2, 27, 27⟩
abbrev Fld.PA_STATE2_mark : Fld := ⟨.PA_STATE2, 26, 25⟩
abbrev Fld.PA_STATE2_mark_en : Fld := ⟨.PA_STATE2, 24, 24⟩
abbrev Fld.PA_STATE3_sel_fbit : Fld := ⟨.PA_STATE3, 63, 53⟩
abbrev Fld.PA_STATE3_sel_fwidth : Fld := ⟨.PA_STATE3, 52, 47⟩
abbrev Fld.PA_TRANS0_key : Fld := ⟨.PA_TRANS0, 63, 32⟩
abbrev Fld.PA_TRANS0_mask : Fld := ⟨.PA_TRANS0, 31, 0⟩
abbrev Fld.PA_TRANS1_valid : Fld := ⟨.PA_TRANS1, 63, 63⟩
abbrev Fld.PA_TRANS1_state : Fld := ⟨.PA_TRANS1, 15, 8⟩
abbrev Fld.PA_TRANS1_next : Fld := ⟨.PA_TRANS1, 7, 0⟩
abbrev Fld.SE_KEYPROF_segments : Fld := ⟨.SE_KEYPROF, 59, 0⟩
abbrev Fld.SE_PCNT_INDEX_index : Fld := ⟨.SE_PCNT_INDEX, 16, 0⟩
abbrev Fld.SE_PCNT_CMD_busy : Fld := ⟨.SE_PCNT_CMD, 63, 63⟩
abbrev Fld.SE_PCNT_CMD_op : Fld := ⟨.SE_PCNT_CMD, 1, 0⟩
abbrev Fld.SE_PCNT_PKTS_packets : Fld := ⟨.SE_PCNT_PKTS, 47, 0⟩
abbrev Fld.SE_PCNT_BYTES_bytes : Fld := ⟨.SE_PCNT_BYTES, 63, 0⟩
abbrev Fld.SE_ISA_CNT_count : Fld := ⟨.SE_ISA_CNT, 47, 0⟩
abbrev Fld.SE_CTRL_beat_limit : Fld := ⟨.SE_CTRL, 55, 48⟩
abbrev Fld.SE_CTRL_recirc_max : Fld := ⟨.SE_CTRL, 42, 40⟩
abbrev Fld.SE_CTRL_scrub_ms : Fld := ⟨.SE_CTRL, 31, 16⟩
abbrev Fld.SE_CTRL_read_bank : Fld := ⟨.SE_CTRL, 0, 0⟩
abbrev Fld.SE_STATUS_bank_busy : Fld := ⟨.SE_STATUS, 63, 63⟩
abbrev Fld.SE_STATUS_write_refused : Fld := ⟨.SE_STATUS, 62, 62⟩
abbrev Fld.SE_STATUS_copy_done : Fld := ⟨.SE_STATUS, 61, 61⟩
abbrev Fld.SE_STATUS_refused_cause : Fld := ⟨.SE_STATUS, 55, 52⟩
abbrev Fld.SE_STATUS_refused_engine : Fld := ⟨.SE_STATUS, 51, 48⟩
abbrev Fld.SE_STATUS_refused_block : Fld := ⟨.SE_STATUS, 47, 47⟩
abbrev Fld.SE_STATUS_refused_offset : Fld := ⟨.SE_STATUS, 23, 0⟩
abbrev Fld.SE_BANKCOPY_go : Fld := ⟨.SE_BANKCOPY, 63, 63⟩
abbrev Fld.SE_BANKCOPY_busy : Fld := ⟨.SE_BANKCOPY, 62, 62⟩
abbrev Fld.SE_ENTRY_entry : Fld := ⟨.SE_ENTRY, 10, 0⟩
abbrev Fld.SE_BUDGET_clear : Fld := ⟨.SE_BUDGET, 63, 63⟩
abbrev Fld.SE_BUDGET_max_beats : Fld := ⟨.SE_BUDGET, 55, 48⟩
abbrev Fld.SE_BUDGET_over_frames : Fld := ⟨.SE_BUDGET, 47, 0⟩
abbrev Fld.SE_ABORT_CNT_count : Fld := ⟨.SE_ABORT_CNT, 47, 0⟩
abbrev Fld.SE_REFBASE_ref_count : Fld := ⟨.SE_REFBASE, 63, 56⟩
abbrev Fld.SE_REFBASE_base : Fld := ⟨.SE_REFBASE, 39, 0⟩
abbrev Fld.NS_UW_microword : Fld := ⟨.NS_UW, 63, 0⟩
abbrev Fld.NS_NW_bits : Fld := ⟨.NS_NW, 63, 0⟩
abbrev Fld.CL_CTRL_scrub_ms : Fld := ⟨.CL_CTRL, 31, 16⟩
abbrev Fld.CL_CTRL_read_bank : Fld := ⟨.CL_CTRL, 0, 0⟩
abbrev Fld.CL_STATUS_bank_busy : Fld := ⟨.CL_STATUS, 63, 63⟩
abbrev Fld.CL_STATUS_write_refused : Fld := ⟨.CL_STATUS, 62, 62⟩
abbrev Fld.CL_STATUS_cmd_refused : Fld := ⟨.CL_STATUS, 61, 61⟩
abbrev Fld.CL_STATUS_cause : Fld := ⟨.CL_STATUS, 55, 52⟩
abbrev Fld.CL_INDEX_dst : Fld := ⟨.CL_INDEX, 30, 16⟩
abbrev Fld.CL_INDEX_index : Fld := ⟨.CL_INDEX, 14, 0⟩
abbrev Fld.CL_CMD_busy : Fld := ⟨.CL_CMD, 63, 63⟩
abbrev Fld.CL_CMD_ed : Fld := ⟨.CL_CMD, 9, 8⟩
abbrev Fld.CL_CMD_op : Fld := ⟨.CL_CMD, 2, 0⟩
abbrev Fld.CL_SHADOW_BASE_base : Fld := ⟨.CL_SHADOW_BASE, 39, 0⟩
abbrev Fld.CL_VALUE_value : Fld := ⟨.CL_VALUE, 63, 0⟩
abbrev Fld.CL_MASK_mask : Fld := ⟨.CL_MASK, 63, 0⟩
abbrev Fld.CL_A0_a0 : Fld := ⟨.CL_A0, 63, 0⟩
abbrev Fld.CL_A1_a1 : Fld := ⟨.CL_A1, 63, 0⟩
abbrev Fld.CL_CNT_count : Fld := ⟨.CL_CNT, 47, 0⟩
abbrev Fld.CL_LIST_count : Fld := ⟨.CL_LIST, 14, 8⟩
abbrev Fld.CL_LIST_first : Fld := ⟨.CL_LIST, 5, 0⟩
abbrev Fld.GC_CTRL_scrub_ms : Fld := ⟨.GC_CTRL, 31, 16⟩
abbrev Fld.GC_CTRL_read_bank : Fld := ⟨.GC_CTRL, 0, 0⟩
abbrev Fld.GC_STATUS_bank_busy : Fld := ⟨.GC_STATUS, 63, 63⟩
abbrev Fld.GC_STATUS_write_refused : Fld := ⟨.GC_STATUS, 62, 62⟩
abbrev Fld.GC_STATUS_cmd_refused : Fld := ⟨.GC_STATUS, 61, 61⟩
abbrev Fld.GC_STATUS_cause : Fld := ⟨.GC_STATUS, 55, 52⟩
abbrev Fld.GC_INDEX_index_b : Fld := ⟨.GC_INDEX, 31, 16⟩
abbrev Fld.GC_INDEX_index_a : Fld := ⟨.GC_INDEX, 15, 0⟩
abbrev Fld.GC_CMD_busy : Fld := ⟨.GC_CMD, 63, 63⟩
abbrev Fld.GC_CMD_ed_b : Fld := ⟨.GC_CMD, 13, 12⟩
abbrev Fld.GC_CMD_ed_a : Fld := ⟨.GC_CMD, 9, 8⟩
abbrev Fld.GC_CMD_op_b : Fld := ⟨.GC_CMD, 6, 4⟩
abbrev Fld.GC_CMD_op_a : Fld := ⟨.GC_CMD, 2, 0⟩
abbrev Fld.GC_A_WORD_word : Fld := ⟨.GC_A_WORD, 63, 0⟩
abbrev Fld.GC_A_ATTR_attr : Fld := ⟨.GC_A_ATTR, 63, 0⟩
abbrev Fld.GC_B_WORD_word : Fld := ⟨.GC_B_WORD, 63, 0⟩
abbrev Fld.GC_B_ATTR_attr : Fld := ⟨.GC_B_ATTR, 63, 0⟩
abbrev Fld.GC_SHADOW_BASE_base : Fld := ⟨.GC_SHADOW_BASE, 39, 0⟩
abbrev Fld.GC_CNT_count : Fld := ⟨.GC_CNT, 47, 0⟩
abbrev Fld.GC_PROBE_MASK_mask : Fld := ⟨.GC_PROBE_MASK, 63, 0⟩
abbrev Fld.GC_PROBE_CFG_probe1_en : Fld := ⟨.GC_PROBE_CFG, 1, 1⟩
abbrev Fld.GC_PROBE_CFG_miss_deny : Fld := ⟨.GC_PROBE_CFG, 0, 0⟩
abbrev Fld.FT_CTRL_scrub_ms : Fld := ⟨.FT_CTRL, 31, 16⟩
abbrev Fld.FT_CTRL_read_bank : Fld := ⟨.FT_CTRL, 0, 0⟩
abbrev Fld.FT_STATUS_bank_busy : Fld := ⟨.FT_STATUS, 63, 63⟩
abbrev Fld.FT_STATUS_write_refused : Fld := ⟨.FT_STATUS, 62, 62⟩
abbrev Fld.FT_STATUS_cmd_refused : Fld := ⟨.FT_STATUS, 61, 61⟩
abbrev Fld.FT_STATUS_stale : Fld := ⟨.FT_STATUS, 60, 60⟩
abbrev Fld.FT_STATUS_sync_done : Fld := ⟨.FT_STATUS, 59, 59⟩
abbrev Fld.FT_STATUS_cause : Fld := ⟨.FT_STATUS, 55, 52⟩
abbrev Fld.FT_SHADOW_BASE_base : Fld := ⟨.FT_SHADOW_BASE, 39, 0⟩
abbrev Fld.FT_TARGET_table : Fld := ⟨.FT_TARGET, 63, 61⟩
abbrev Fld.FT_TARGET_half : Fld := ⟨.FT_TARGET, 60, 60⟩
abbrev Fld.FT_TARGET_index : Fld := ⟨.FT_TARGET, 21, 0⟩
abbrev Fld.FT_DATA_HI_hi : Fld := ⟨.FT_DATA_HI, 63, 0⟩
abbrev Fld.FT_DATA_LO_lo : Fld := ⟨.FT_DATA_LO, 63, 0⟩
abbrev Fld.FT_CMD_busy : Fld := ⟨.FT_CMD, 63, 63⟩
abbrev Fld.FT_CMD_replicas : Fld := ⟨.FT_CMD, 15, 8⟩
abbrev Fld.FT_CMD_op : Fld := ⟨.FT_CMD, 1, 0⟩
abbrev Fld.FT_SYNC_go : Fld := ⟨.FT_SYNC, 63, 63⟩
abbrev Fld.FT_SYNC_busy : Fld := ⟨.FT_SYNC, 62, 62⟩
abbrev Fld.FT_SYNC_src : Fld := ⟨.FT_SYNC, 2, 0⟩
abbrev Fld.FT_LP_FENCE_go : Fld := ⟨.FT_LP_FENCE, 63, 63⟩
abbrev Fld.FT_LP_FENCE_busy : Fld := ⟨.FT_LP_FENCE, 62, 62⟩
abbrev Fld.FT_LP_FENCE_replicas : Fld := ⟨.FT_LP_FENCE, 15, 8⟩
abbrev Fld.FT_LP_BANKMAP_level : Fld := ⟨.FT_LP_BANKMAP, 3, 0⟩
abbrev Fld.FT_LP_PROFILE_strides : Fld := ⟨.FT_LP_PROFILE, 43, 0⟩
abbrev Fld.FT_HX_DESC_valid : Fld := ⟨.FT_HX_DESC, 63, 63⟩
abbrev Fld.FT_HX_DESC_log2_buckets : Fld := ⟨.FT_HX_DESC, 60, 56⟩
abbrev Fld.FT_HX_DESC_base : Fld := ⟨.FT_HX_DESC, 39, 0⟩
abbrev Fld.FT_HX_TARGET_table : Fld := ⟨.FT_HX_TARGET, 26, 24⟩
abbrev Fld.FT_HX_TARGET_bucket : Fld := ⟨.FT_HX_TARGET, 23, 2⟩
abbrev Fld.FT_HX_TARGET_slot : Fld := ⟨.FT_HX_TARGET, 1, 0⟩
abbrev Fld.FT_HX_ENTRY_word : Fld := ⟨.FT_HX_ENTRY, 63, 0⟩
abbrev Fld.FT_HX_CMD_busy : Fld := ⟨.FT_HX_CMD, 63, 63⟩
abbrev Fld.FT_HX_CMD_op : Fld := ⟨.FT_HX_CMD, 1, 0⟩
abbrev Fld.FT_CNT_count : Fld := ⟨.FT_CNT, 47, 0⟩
abbrev Fld.FT_CH_CTRL_move_hold : Fld := ⟨.FT_CH_CTRL, 63, 48⟩
abbrev Fld.FT_CH_CTRL_age_limit : Fld := ⟨.FT_CH_CTRL, 47, 32⟩
abbrev Fld.FT_CH_CTRL_age_tick_ms : Fld := ⟨.FT_CH_CTRL, 31, 16⟩
abbrev Fld.FT_CH_CTRL_age_en : Fld := ⟨.FT_CH_CTRL, 15, 15⟩
abbrev Fld.FT_CH_CTRL_learn_en : Fld := ⟨.FT_CH_CTRL, 14, 14⟩
abbrev Fld.FT_CH_CTRL_learn_ed : Fld := ⟨.FT_CH_CTRL, 9, 8⟩
abbrev Fld.FT_CH_STATUS_resync : Fld := ⟨.FT_CH_STATUS, 63, 63⟩
abbrev Fld.FT_CH_STATUS_cmd_refused : Fld := ⟨.FT_CH_STATUS, 62, 62⟩
abbrev Fld.FT_CH_STATUS_cause : Fld := ⟨.FT_CH_STATUS, 55, 52⟩
abbrev Fld.FT_CH_STATUS_depth : Fld := ⟨.FT_CH_STATUS, 44, 32⟩
abbrev Fld.FT_CH_STATUS_occupancy : Fld := ⟨.FT_CH_STATUS, 20, 0⟩
abbrev Fld.FT_CH_KEY_key : Fld := ⟨.FT_CH_KEY, 63, 0⟩
abbrev Fld.FT_CH_DATA_pinned : Fld := ⟨.FT_CH_DATA, 63, 63⟩
abbrev Fld.FT_CH_DATA_ed : Fld := ⟨.FT_CH_DATA, 62, 61⟩
abbrev Fld.FT_CH_DATA_data : Fld := ⟨.FT_CH_DATA, 31, 0⟩
abbrev Fld.FT_CH_CMD_busy : Fld := ⟨.FT_CH_CMD, 63, 63⟩
abbrev Fld.FT_CH_CMD_sub : Fld := ⟨.FT_CH_CMD, 61, 56⟩
abbrev Fld.FT_CH_CMD_op : Fld := ⟨.FT_CH_CMD, 2, 0⟩
abbrev Fld.FT_CH_RESULT_found : Fld := ⟨.FT_CH_RESULT, 63, 63⟩
abbrev Fld.FT_CH_RESULT_index : Fld := ⟨.FT_CH_RESULT, 19, 0⟩
abbrev Fld.FT_CH_WORD1_word1 : Fld := ⟨.FT_CH_WORD1, 63, 0⟩
abbrev Fld.FT_CH_STAMP_seen : Fld := ⟨.FT_CH_STAMP, 63, 48⟩
abbrev Fld.FT_CH_STAMP_changed : Fld := ⟨.FT_CH_STAMP, 47, 32⟩
abbrev Fld.FT_CH_STAMP_settled : Fld := ⟨.FT_CH_STAMP, 31, 31⟩
abbrev Fld.FT_CH_STAMP_port : Fld := ⟨.FT_CH_STAMP, 25, 16⟩
abbrev Fld.FT_CH_SEED_seed : Fld := ⟨.FT_CH_SEED, 31, 0⟩
abbrev Fld.FT_CH_RING_log2_size : Fld := ⟨.FT_CH_RING, 63, 60⟩
abbrev Fld.FT_CH_RING_base : Fld := ⟨.FT_CH_RING, 39, 0⟩
abbrev Fld.FT_CH_RING_PROD_prod : Fld := ⟨.FT_CH_RING_PROD, 31, 0⟩
abbrev Fld.FT_CH_RING_CONS_cons : Fld := ⟨.FT_CH_RING_CONS, 31, 0⟩
abbrev Fld.FT_CH_CNT_count : Fld := ⟨.FT_CH_CNT, 47, 0⟩
abbrev Fld.ED_CTRL_drain_limit_ms : Fld := ⟨.ED_CTRL, 63, 48⟩
abbrev Fld.ED_CTRL_marker_wait_us : Fld := ⟨.ED_CTRL, 47, 32⟩
abbrev Fld.ED_CTRL_auto_close : Fld := ⟨.ED_CTRL, 0, 0⟩
abbrev Fld.ED_STATUS_current : Fld := ⟨.ED_STATUS, 63, 63⟩
abbrev Fld.ED_STATUS_other_state : Fld := ⟨.ED_STATUS, 62, 61⟩
abbrev Fld.ED_STATUS_flip_refused : Fld := ⟨.ED_STATUS, 60, 60⟩
abbrev Fld.ED_STATUS_close_permitted : Fld := ⟨.ED_STATUS, 59, 59⟩
abbrev Fld.ED_STATUS_cause : Fld := ⟨.ED_STATUS, 55, 52⟩
abbrev Fld.ED_STATUS_markwait : Fld := ⟨.ED_STATUS, 9, 0⟩
abbrev Fld.ED_CMD_busy : Fld := ⟨.ED_CMD, 63, 63⟩
abbrev Fld.ED_CMD_op : Fld := ⟨.ED_CMD, 2, 0⟩
abbrev Fld.ED_MISSING_valid : Fld := ⟨.ED_MISSING, 63, 63⟩
abbrev Fld.ED_MISSING_slice : Fld := ⟨.ED_MISSING, 42, 40⟩
abbrev Fld.ED_MISSING_engine : Fld := ⟨.ED_MISSING, 35, 32⟩
abbrev Fld.ED_MISSING_address : Fld := ⟨.ED_MISSING, 26, 16⟩
abbrev Fld.ED_MISSING_nano : Fld := ⟨.ED_MISSING, 9, 0⟩
abbrev Fld.ED_DRAIN_count : Fld := ⟨.ED_DRAIN, 39, 0⟩
abbrev Fld.ED_FLIPTIME_time : Fld := ⟨.ED_FLIPTIME, 63, 0⟩
abbrev Fld.ED_FLIPS_flips : Fld := ⟨.ED_FLIPS, 31, 0⟩
abbrev Fld.ED_EVENT_events : Fld := ⟨.ED_EVENT, 5, 0⟩
abbrev Fld.ED_EVENT_EN_enables : Fld := ⟨.ED_EVENT_EN, 5, 0⟩
abbrev Fld.ED_CNT_count : Fld := ⟨.ED_CNT, 47, 0⟩
abbrev Fld.XB_CTRL_reseq_timeout_ns : Fld := ⟨.XB_CTRL, 63, 48⟩
abbrev Fld.XB_CTRL_src_hold_ns : Fld := ⟨.XB_CTRL, 47, 32⟩
abbrev Fld.XB_CTRL_plane_err_thr : Fld := ⟨.XB_CTRL, 31, 24⟩
abbrev Fld.XB_STATUS_plane_up : Fld := ⟨.XB_STATUS, 63, 60⟩
abbrev Fld.XB_STATUS_plane_removed : Fld := ⟨.XB_STATUS, 59, 56⟩
abbrev Fld.XB_STATUS_restore_failed : Fld := ⟨.XB_STATUS, 55, 52⟩
abbrev Fld.XB_RESTORE_restore : Fld := ⟨.XB_RESTORE, 3, 0⟩
abbrev Fld.XB_CNT_count : Fld := ⟨.XB_CNT, 47, 0⟩
abbrev Fld.XB_GROUP_valid : Fld := ⟨.XB_GROUP, 63, 63⟩
abbrev Fld.XB_GROUP_prune : Fld := ⟨.XB_GROUP, 62, 62⟩
abbrev Fld.XB_GROUP_slices : Fld := ⟨.XB_GROUP, 7, 0⟩
abbrev Fld.XB_MIRROR_valid : Fld := ⟨.XB_MIRROR, 63, 63⟩
abbrev Fld.XB_MIRROR_port : Fld := ⟨.XB_MIRROR, 57, 48⟩
abbrev Fld.XB_MIRROR_queue : Fld := ⟨.XB_MIRROR, 47, 44⟩
abbrev Fld.XB_MIRROR_tenant : Fld := ⟨.XB_MIRROR, 43, 28⟩
abbrev Fld.XB_MIRROR_trunc_len : Fld := ⟨.XB_MIRROR, 13, 0⟩
abbrev Fld.BP_CARVE_d0_count : Fld := ⟨.BP_CARVE, 63, 48⟩
abbrev Fld.BP_CARVE_d1_count : Fld := ⟨.BP_CARVE, 47, 32⟩
abbrev Fld.BP_CARVE_d2_count : Fld := ⟨.BP_CARVE, 31, 16⟩
abbrev Fld.BP_CARVE_d3_count : Fld := ⟨.BP_CARVE, 15, 0⟩
abbrev Fld.BP_STATUS_carve_refused : Fld := ⟨.BP_STATUS, 63, 63⟩
abbrev Fld.BP_STATUS_free_fault : Fld := ⟨.BP_STATUS, 62, 62⟩
abbrev Fld.BP_STATUS_account_fault : Fld := ⟨.BP_STATUS, 61, 61⟩
abbrev Fld.BP_STATUS_withheld : Fld := ⟨.BP_STATUS, 15, 0⟩
abbrev Fld.BP_FREE_d0_free : Fld := ⟨.BP_FREE, 63, 48⟩
abbrev Fld.BP_FREE_d1_free : Fld := ⟨.BP_FREE, 47, 32⟩
abbrev Fld.BP_FREE_d2_free : Fld := ⟨.BP_FREE, 31, 16⟩
abbrev Fld.BP_FREE_d3_free : Fld := ⟨.BP_FREE, 15, 0⟩
abbrev Fld.BP_FREEFAULT_valid : Fld := ⟨.BP_FREEFAULT, 63, 63⟩
abbrev Fld.BP_FREEFAULT_kind : Fld := ⟨.BP_FREEFAULT, 62, 62⟩
abbrev Fld.BP_FREEFAULT_buffer : Fld := ⟨.BP_FREEFAULT, 60, 44⟩
abbrev Fld.BP_FREEFAULT_recorded : Fld := ⟨.BP_FREEFAULT, 43, 28⟩
abbrev Fld.BP_FREEFAULT_presented : Fld := ⟨.BP_FREEFAULT, 27, 12⟩
abbrev Fld.BP_ALLOW_limit : Fld := ⟨.BP_ALLOW, 49, 32⟩
abbrev Fld.BP_ALLOW_used : Fld := ⟨.BP_ALLOW, 17, 0⟩
abbrev Fld.BP_CNT_count : Fld := ⟨.BP_CNT, 47, 0⟩
abbrev Fld.BP_GROUP_members : Fld := ⟨.BP_GROUP, 63, 0⟩
abbrev Fld.TM_STATUS_write_refused : Fld := ⟨.TM_STATUS, 62, 62⟩
abbrev Fld.TM_STATUS_cause : Fld := ⟨.TM_STATUS, 55, 52⟩
abbrev Fld.TM_STATUS_refused_offset : Fld := ⟨.TM_STATUS, 23, 0⟩
abbrev Fld.TM_PORTCFG_phase : Fld := ⟨.TM_PORTCFG, 63, 62⟩
abbrev Fld.TM_PORTCFG_overhead : Fld := ⟨.TM_PORTCFG, 61, 56⟩
abbrev Fld.TM_PORTCFG_quantum : Fld := ⟨.TM_PORTCFG, 47, 32⟩
abbrev Fld.TM_PORTSTAT_mode : Fld := ⟨.TM_PORTSTAT, 63, 63⟩
abbrev Fld.TM_PORTSTAT_strict_count : Fld := ⟨.TM_PORTSTAT, 2, 0⟩
abbrev Fld.TM_GCLBASE_base : Fld := ⟨.TM_GCLBASE, 63, 0⟩
abbrev Fld.TM_GCLCMD_go : Fld := ⟨.TM_GCLCMD, 63, 63⟩
abbrev Fld.TM_GCLCMD_pending : Fld := ⟨.TM_GCLCMD, 62, 62⟩
abbrev Fld.TM_GCLCMD_oper_bank : Fld := ⟨.TM_GCLCMD, 61, 61⟩
abbrev Fld.TM_GCLCMD_admin_len : Fld := ⟨.TM_GCLCMD, 42, 32⟩
abbrev Fld.TM_GCLCMD_cycle_us : Fld := ⟨.TM_GCLCMD, 31, 0⟩
abbrev Fld.TM_WRED_enable : Fld := ⟨.TM_WRED, 63, 63⟩
abbrev Fld.TM_WRED_pmax : Fld := ⟨.TM_WRED, 55, 48⟩
abbrev Fld.TM_WRED_max_kib : Fld := ⟨.TM_WRED, 47, 24⟩
abbrev Fld.TM_WRED_min_kib : Fld := ⟨.TM_WRED, 23, 0⟩
abbrev Fld.TM_WREDCTL_ecn_en : Fld := ⟨.TM_WREDCTL, 63, 63⟩
abbrev Fld.TM_WREDCTL_ecn_mark : Fld := ⟨.TM_WREDCTL, 57, 56⟩
abbrev Fld.TM_WREDCTL_ewma_w : Fld := ⟨.TM_WREDCTL, 51, 48⟩
abbrev Fld.TM_RCQ_wred : Fld := ⟨.TM_RCQ, 35, 32⟩
abbrev Fld.TM_RCQ_limit_kib : Fld := ⟨.TM_RCQ, 23, 0⟩
abbrev Fld.TM_CNT_count : Fld := ⟨.TM_CNT, 47, 0⟩
abbrev Fld.TM_POL_INDEX_index : Fld := ⟨.TM_POL_INDEX, 16, 0⟩
abbrev Fld.TM_POL_CFG0_mode : Fld := ⟨.TM_POL_CFG0, 63, 62⟩
abbrev Fld.TM_POL_CFG0_colour_aware : Fld := ⟨.TM_POL_CFG0, 61, 61⟩
abbrev Fld.TM_POL_CFG0_red_drop : Fld := ⟨.TM_POL_CFG0, 60, 60⟩
abbrev Fld.TM_POL_CFG0_cir : Fld := ⟨.TM_POL_CFG0, 31, 0⟩
abbrev Fld.TM_POL_CFG1_pir : Fld := ⟨.TM_POL_CFG1, 31, 0⟩
abbrev Fld.TM_POL_CFG2_cbs : Fld := ⟨.TM_POL_CFG2, 63, 32⟩
abbrev Fld.TM_POL_CFG2_ebs_pbs : Fld := ⟨.TM_POL_CFG2, 31, 0⟩
abbrev Fld.TM_POL_CMD_busy : Fld := ⟨.TM_POL_CMD, 63, 63⟩
abbrev Fld.TM_POL_CMD_op : Fld := ⟨.TM_POL_CMD, 1, 0⟩
abbrev Fld.TM_POL_STATE0_tc : Fld := ⟨.TM_POL_STATE0, 39, 0⟩
abbrev Fld.TM_POL_STATE1_te_tp : Fld := ⟨.TM_POL_STATE1, 39, 0⟩
abbrev Fld.TM_POL_CNT_count : Fld := ⟨.TM_POL_CNT, 47, 0⟩
abbrev Fld.TM_QCFG_strict : Fld := ⟨.TM_QCFG, 63, 63⟩
abbrev Fld.TM_QCFG_gate_en : Fld := ⟨.TM_QCFG, 62, 62⟩
abbrev Fld.TM_QCFG_purchased : Fld := ⟨.TM_QCFG, 61, 61⟩
abbrev Fld.TM_QCFG_cal_off_open : Fld := ⟨.TM_QCFG, 60, 60⟩
abbrev Fld.TM_QCFG_spill_en : Fld := ⟨.TM_QCFG, 59, 59⟩
abbrev Fld.TM_QCFG_weight : Fld := ⟨.TM_QCFG, 58, 48⟩
abbrev Fld.TM_QCFG_adjust : Fld := ⟨.TM_QCFG, 45, 40⟩
abbrev Fld.TM_QCFG_wred : Fld := ⟨.TM_QCFG, 35, 32⟩
abbrev Fld.TM_QCFG_limit_kib : Fld := ⟨.TM_QCFG, 23, 0⟩
abbrev Fld.TM_QCFG2_spill_kib : Fld := ⟨.TM_QCFG2, 63, 40⟩
abbrev Fld.TM_QCFG2_age_ms : Fld := ⟨.TM_QCFG2, 31, 0⟩
abbrev Fld.TM_QSTAT_ondie_bytes : Fld := ⟨.TM_QSTAT, 63, 32⟩
abbrev Fld.TM_QSTAT_hbm_kib : Fld := ⟨.TM_QSTAT, 31, 0⟩
abbrev Fld.TM_QSTAT2_avg_kib : Fld := ⟨.TM_QSTAT2, 63, 40⟩
abbrev Fld.TM_QSTAT2_copies : Fld := ⟨.TM_QSTAT2, 31, 0⟩
abbrev Fld.TM_QCNT_count : Fld := ⟨.TM_QCNT, 47, 0⟩
abbrev Fld.TM_GCL_gates : Fld := ⟨.TM_GCL, 63, 48⟩
abbrev Fld.TM_GCL_interval_us : Fld := ⟨.TM_GCL, 47, 28⟩
abbrev Fld.TM_GCL_check : Fld := ⟨.TM_GCL, 15, 0⟩
abbrev Fld.TM_CAL_slots : Fld := ⟨.TM_CAL, 63, 0⟩
abbrev Fld.LG_CTRL_enable : Fld := ⟨.LG_CTRL, 63, 63⟩
abbrev Fld.LG_CTRL_lg_arm : Fld := ⟨.LG_CTRL, 62, 62⟩
abbrev Fld.LG_CTRL_twin_en : Fld := ⟨.LG_CTRL, 61, 61⟩
abbrev Fld.LG_CTRL_settle_us : Fld := ⟨.LG_CTRL, 47, 32⟩
abbrev Fld.LG_CTRL_lg_settle_us : Fld := ⟨.LG_CTRL, 31, 24⟩
abbrev Fld.LG_CTRL_seal_slot : Fld := ⟨.LG_CTRL, 19, 16⟩
abbrev Fld.LG_CTRL_witness_wait_ms : Fld := ⟨.LG_CTRL, 15, 0⟩
abbrev Fld.LG_STATUS_open_parity : Fld := ⟨.LG_STATUS, 63, 63⟩
abbrev Fld.LG_STATUS_chain : Fld := ⟨.LG_STATUS, 62, 62⟩
abbrev Fld.LG_STATUS_walking : Fld := ⟨.LG_STATUS, 61, 61⟩
abbrev Fld.LG_STATUS_lastgasp : Fld := ⟨.LG_STATUS, 60, 60⟩
abbrev Fld.LG_STATUS_overrun : Fld := ⟨.LG_STATUS, 59, 59⟩
abbrev Fld.LG_STATUS_arm_refused : Fld := ⟨.LG_STATUS, 58, 58⟩
abbrev Fld.LG_STATUS_enable_refused : Fld := ⟨.LG_STATUS, 57, 57⟩
abbrev Fld.LG_STATUS_accum_loss : Fld := ⟨.LG_STATUS, 56, 56⟩
abbrev Fld.LG_SEQ_sequence : Fld := ⟨.LG_SEQ, 63, 0⟩
abbrev Fld.LG_LAST_MINUTE_minute : Fld := ⟨.LG_LAST_MINUTE, 63, 0⟩
abbrev Fld.LG_BOOK_BASE_base : Fld := ⟨.LG_BOOK_BASE, 39, 0⟩
abbrev Fld.LG_RING_log2_slots : Fld := ⟨.LG_RING, 63, 60⟩
abbrev Fld.LG_RING_base : Fld := ⟨.LG_RING, 39, 0⟩
abbrev Fld.LG_RING_PROD_prod : Fld := ⟨.LG_RING_PROD, 31, 0⟩
abbrev Fld.LG_RING_CONS_cons : Fld := ⟨.LG_RING_CONS, 31, 0⟩
abbrev Fld.LG_HELD_held : Fld := ⟨.LG_HELD, 47, 0⟩
abbrev Fld.LG_LAST_SEAL_seal : Fld := ⟨.LG_LAST_SEAL, 63, 0⟩
abbrev Fld.LG_EVENT_events : Fld := ⟨.LG_EVENT, 7, 0⟩
abbrev Fld.LG_EVENT_EN_enables : Fld := ⟨.LG_EVENT_EN, 7, 0⟩
abbrev Fld.LG_LGPORT_valid : Fld := ⟨.LG_LGPORT, 63, 63⟩
abbrev Fld.LG_LGPORT_form : Fld := ⟨.LG_LGPORT, 62, 62⟩
abbrev Fld.LG_LGPORT_port : Fld := ⟨.LG_LGPORT, 57, 48⟩
abbrev Fld.LG_LGPORT_tmpl_len : Fld := ⟨.LG_LGPORT, 46, 40⟩
abbrev Fld.LG_LGPORT_tmpl_addr : Fld := ⟨.LG_LGPORT, 39, 0⟩
abbrev Fld.LG_CNT_count : Fld := ⟨.LG_CNT, 47, 0⟩
abbrev Fld.CX_CTRL_scrub_ms : Fld := ⟨.CX_CTRL, 31, 16⟩
abbrev Fld.CX_CTRL_lock_kek : Fld := ⟨.CX_CTRL, 0, 0⟩
abbrev Fld.CX_STATUS_zeroizing : Fld := ⟨.CX_STATUS, 63, 63⟩
abbrev Fld.CX_STATUS_zeroized : Fld := ⟨.CX_STATUS, 62, 62⟩
abbrev Fld.CX_STATUS_rng_ok : Fld := ⟨.CX_STATUS, 61, 61⟩
abbrev Fld.CX_STATUS_refused : Fld := ⟨.CX_STATUS, 60, 60⟩
abbrev Fld.CX_STATUS_cause : Fld := ⟨.CX_STATUS, 55, 52⟩
abbrev Fld.CX_STATUS_loaded : Fld := ⟨.CX_STATUS, 13, 0⟩
abbrev Fld.CX_ALARM_EN_enables : Fld := ⟨.CX_ALARM_EN, 7, 0⟩
abbrev Fld.CX_ALARM_sources : Fld := ⟨.CX_ALARM, 7, 0⟩
abbrev Fld.CX_ZEROIZE_go : Fld := ⟨.CX_ZEROIZE, 0, 0⟩
abbrev Fld.CX_ERASE_busy : Fld := ⟨.CX_ERASE, 63, 63⟩
abbrev Fld.CX_ERASE_go : Fld := ⟨.CX_ERASE, 62, 62⟩
abbrev Fld.CX_ERASE_kind : Fld := ⟨.CX_ERASE, 61, 60⟩
abbrev Fld.CX_ERASE_slot : Fld := ⟨.CX_ERASE, 12, 0⟩
abbrev Fld.CX_IMPORT_CMD_go : Fld := ⟨.CX_IMPORT_CMD, 63, 63⟩
abbrev Fld.CX_IMPORT_CMD_busy : Fld := ⟨.CX_IMPORT_CMD, 62, 62⟩
abbrev Fld.CX_IMPORT_CMD_method : Fld := ⟨.CX_IMPORT_CMD, 61, 60⟩
abbrev Fld.CX_IMPORT_CMD_kind : Fld := ⟨.CX_IMPORT_CMD, 59, 58⟩
abbrev Fld.CX_IMPORT_CMD_suite : Fld := ⟨.CX_IMPORT_CMD, 57, 57⟩
abbrev Fld.CX_IMPORT_CMD_kek_slot : Fld := ⟨.CX_IMPORT_CMD, 51, 48⟩
abbrev Fld.CX_IMPORT_CMD_slot : Fld := ⟨.CX_IMPORT_CMD, 44, 32⟩
abbrev Fld.CX_IMPORT_STATUS_result : Fld := ⟨.CX_IMPORT_STATUS, 63, 60⟩
abbrev Fld.CX_IMPORT_STATUS_generation : Fld := ⟨.CX_IMPORT_STATUS, 47, 32⟩
abbrev Fld.CX_IMPORT_PN_pn : Fld := ⟨.CX_IMPORT_PN, 63, 0⟩
abbrev Fld.CX_IMPORT_BUF_data : Fld := ⟨.CX_IMPORT_BUF, 63, 0⟩
abbrev Fld.CX_DEVPUB_key : Fld := ⟨.CX_DEVPUB, 63, 0⟩
abbrev Fld.CX_PNWARN_warn : Fld := ⟨.CX_PNWARN, 63, 0⟩
abbrev Fld.CX_PNSTOP_stop : Fld := ⟨.CX_PNSTOP, 63, 0⟩
abbrev Fld.CX_CNT_count : Fld := ⟨.CX_CNT, 47, 0⟩
abbrev Fld.CX_EVENT_events : Fld := ⟨.CX_EVENT, 3, 0⟩
abbrev Fld.CX_EVENT_EN_enables : Fld := ⟨.CX_EVENT_EN, 3, 0⟩
abbrev Fld.CX_PNWARN_VEC_slots : Fld := ⟨.CX_PNWARN_VEC, 63, 0⟩
abbrev Fld.CX_SEALSLOT_state : Fld := ⟨.CX_SEALSLOT, 63, 62⟩
abbrev Fld.CX_SEALSLOT_spent : Fld := ⟨.CX_SEALSLOT, 61, 61⟩
abbrev Fld.CX_SEALSLOT_generation : Fld := ⟨.CX_SEALSLOT, 15, 0⟩
abbrev Fld.CX_KEKSLOT_state : Fld := ⟨.CX_KEKSLOT, 63, 62⟩
abbrev Fld.CX_KEKSLOT_generation : Fld := ⟨.CX_KEKSLOT, 15, 0⟩
abbrev Fld.CX_SECY_tx_en : Fld := ⟨.CX_SECY, 63, 63⟩
abbrev Fld.CX_SECY_rx_en : Fld := ⟨.CX_SECY, 62, 62⟩
abbrev Fld.CX_SECY_encrypt : Fld := ⟨.CX_SECY, 61, 61⟩
abbrev Fld.CX_SECY_include_sci : Fld := ⟨.CX_SECY, 60, 60⟩
abbrev Fld.CX_SECY_conf_offset : Fld := ⟨.CX_SECY, 59, 58⟩
abbrev Fld.CX_SECY_replay_protect : Fld := ⟨.CX_SECY, 57, 57⟩
abbrev Fld.CX_SECY_tx_an : Fld := ⟨.CX_SECY, 53, 52⟩
abbrev Fld.CX_SECY_replay_window : Fld := ⟨.CX_SECY, 31, 0⟩
abbrev Fld.CX_TXSCI_sci : Fld := ⟨.CX_TXSCI, 63, 0⟩
abbrev Fld.CX_RXSCI_sci : Fld := ⟨.CX_RXSCI, 63, 0⟩
abbrev Fld.CX_TXMAP_entries : Fld := ⟨.CX_TXMAP, 63, 0⟩
abbrev Fld.CX_RXMAP_entries : Fld := ⟨.CX_RXMAP, 63, 0⟩
abbrev Fld.CX_SA_state : Fld := ⟨.CX_SA, 63, 62⟩
abbrev Fld.CX_SA_shadow : Fld := ⟨.CX_SA, 61, 61⟩
abbrev Fld.CX_SA_exhausted : Fld := ⟨.CX_SA, 60, 60⟩
abbrev Fld.CX_SA_mapped : Fld := ⟨.CX_SA, 59, 59⟩
abbrev Fld.CX_SA_dir : Fld := ⟨.CX_SA, 58, 58⟩
abbrev Fld.CX_SA_suite : Fld := ⟨.CX_SA, 57, 57⟩
abbrev Fld.CX_SA_port : Fld := ⟨.CX_SA, 41, 32⟩
abbrev Fld.CX_SA_generation : Fld := ⟨.CX_SA, 15, 0⟩
abbrev Fld.CX_PN_pn : Fld := ⟨.CX_PN, 63, 0⟩
abbrev Fld.CX_SALT_HI_salt_hi : Fld := ⟨.CX_SALT_HI, 63, 32⟩
abbrev Fld.CX_SALT_HI_ssci : Fld := ⟨.CX_SALT_HI, 31, 0⟩
abbrev Fld.CX_SALT_LO_salt_lo : Fld := ⟨.CX_SALT_LO, 63, 0⟩
abbrev Fld.CK_STATUS_owned : Fld := ⟨.CK_STATUS, 31, 16⟩
abbrev Fld.CK_STATUS_mismatch : Fld := ⟨.CK_STATUS, 15, 0⟩
abbrev Fld.CK_UCTRL_claim : Fld := ⟨.CK_UCTRL, 63, 63⟩
abbrev Fld.CK_UCTRL_release : Fld := ⟨.CK_UCTRL, 62, 62⟩
abbrev Fld.CK_UCTRL_owner : Fld := ⟨.CK_UCTRL, 59, 56⟩
abbrev Fld.CK_UCTRL_poly : Fld := ⟨.CK_UCTRL, 53, 52⟩
abbrev Fld.CK_UCTRL_order : Fld := ⟨.CK_UCTRL, 51, 51⟩
abbrev Fld.CK_UCTRL_fault_en : Fld := ⟨.CK_UCTRL, 50, 50⟩
abbrev Fld.CK_UCTRL_int_en : Fld := ⟨.CK_UCTRL, 49, 49⟩
abbrev Fld.CK_UINIT_init : Fld := ⟨.CK_UINIT, 63, 0⟩
abbrev Fld.CK_UFOLD_value : Fld := ⟨.CK_UFOLD, 63, 0⟩
abbrev Fld.CK_UTAIL_data : Fld := ⟨.CK_UTAIL, 63, 0⟩
abbrev Fld.CK_UCMD_code : Fld := ⟨.CK_UCMD, 23, 16⟩
abbrev Fld.CK_UCMD_count : Fld := ⟨.CK_UCMD, 10, 8⟩
abbrev Fld.CK_UCMD_op : Fld := ⟨.CK_UCMD, 2, 0⟩
abbrev Fld.CK_UEXPECT_expect : Fld := ⟨.CK_UEXPECT, 63, 0⟩
abbrev Fld.CK_URESULT_result : Fld := ⟨.CK_URESULT, 63, 0⟩
abbrev Fld.CK_USTATUS_mismatch : Fld := ⟨.CK_USTATUS, 63, 63⟩
abbrev Fld.CK_USTATUS_match : Fld := ⟨.CK_USTATUS, 62, 62⟩
abbrev Fld.CK_USTATUS_unit_fault : Fld := ⟨.CK_USTATUS, 61, 61⟩
abbrev Fld.CK_USTATUS_foreign : Fld := ⟨.CK_USTATUS, 60, 60⟩
abbrev Fld.CK_USTATUS_bad_cmd : Fld := ⟨.CK_USTATUS, 59, 59⟩
abbrev Fld.CK_USTATUS_bytes : Fld := ⟨.CK_USTATUS, 47, 0⟩
abbrev Fld.CK_CNT_count : Fld := ⟨.CK_CNT, 47, 0⟩
abbrev Fld.CK_UWIN_data : Fld := ⟨.CK_UWIN, 63, 0⟩
abbrev Fld.HM_CTRL_patrol_h : Fld := ⟨.HM_CTRL, 47, 40⟩
abbrev Fld.HM_CTRL_pnr_log2 : Fld := ⟨.HM_CTRL, 35, 32⟩
abbrev Fld.HM_CTRL_starve_us : Fld := ⟨.HM_CTRL, 31, 16⟩
abbrev Fld.HM_STATUS_active : Fld := ⟨.HM_STATUS, 63, 60⟩
abbrev Fld.HM_STATUS_hot : Fld := ⟨.HM_STATUS, 59, 56⟩
abbrev Fld.HM_EVENT_events : Fld := ⟨.HM_EVENT, 5, 0⟩
abbrev Fld.HM_EVENT_EN_enables : Fld := ⟨.HM_EVENT_EN, 5, 0⟩
abbrev Fld.HM_WEIGHT_clerk : Fld := ⟨.HM_WEIGHT, 39, 32⟩
abbrev Fld.HM_WEIGHT_shadow : Fld := ⟨.HM_WEIGHT, 31, 24⟩
abbrev Fld.HM_WEIGHT_ledger : Fld := ⟨.HM_WEIGHT, 23, 16⟩
abbrev Fld.HM_WEIGHT_spill : Fld := ⟨.HM_WEIGHT, 15, 8⟩
abbrev Fld.HM_WEIGHT_lookup : Fld := ⟨.HM_WEIGHT, 7, 0⟩
abbrev Fld.HM_ERRLOG_valid : Fld := ⟨.HM_ERRLOG, 63, 63⟩
abbrev Fld.HM_ERRLOG_clear : Fld := ⟨.HM_ERRLOG, 62, 62⟩
abbrev Fld.HM_ERRLOG_stack : Fld := ⟨.HM_ERRLOG, 61, 60⟩
abbrev Fld.HM_ERRLOG_class : Fld := ⟨.HM_ERRLOG, 58, 56⟩
abbrev Fld.HM_ERRLOG_address : Fld := ⟨.HM_ERRLOG, 39, 0⟩
abbrev Fld.HM_CNT_count : Fld := ⟨.HM_CNT, 47, 0⟩
abbrev Fld.HM_DB_enable : Fld := ⟨.HM_DB, 63, 63⟩
abbrev Fld.HM_DB_blocks : Fld := ⟨.HM_DB, 60, 40⟩
abbrev Fld.HM_DB_base : Fld := ⟨.HM_DB, 39, 0⟩
abbrev Fld.HM_DB_STAT_purging : Fld := ⟨.HM_DB_STAT, 63, 63⟩
abbrev Fld.HM_DB_STAT_refused : Fld := ⟨.HM_DB_STAT, 62, 62⟩
abbrev Fld.HM_DB_STAT_in_use : Fld := ⟨.HM_DB_STAT, 60, 40⟩
abbrev Fld.HM_DB_STAT_lost : Fld := ⟨.HM_DB_STAT, 36, 21⟩
abbrev Fld.HM_DB_STAT_high_water : Fld := ⟨.HM_DB_STAT, 20, 0⟩
abbrev Fld.HM_STACKCMD_go : Fld := ⟨.HM_STACKCMD, 63, 63⟩
abbrev Fld.HM_STACKCMD_busy : Fld := ⟨.HM_STACKCMD, 62, 62⟩
abbrev Fld.HM_STACKCMD_op : Fld := ⟨.HM_STACKCMD, 61, 60⟩
abbrev Fld.HM_STACKCMD_state : Fld := ⟨.HM_STACKCMD, 57, 56⟩
abbrev Fld.HM_STACKCMD_rate : Fld := ⟨.HM_STACKCMD, 53, 52⟩
abbrev Fld.HM_STACKCMD_result : Fld := ⟨.HM_STACKCMD, 50, 48⟩
abbrev Fld.HM_STACKSTAT_state : Fld := ⟨.HM_STACKSTAT, 63, 62⟩
abbrev Fld.HM_STACKSTAT_training : Fld := ⟨.HM_STACKSTAT, 61, 61⟩
abbrev Fld.HM_STACKSTAT_temp : Fld := ⟨.HM_STACKSTAT, 55, 48⟩
abbrev Fld.HM_STACKSTAT_margin : Fld := ⟨.HM_STACKSTAT, 47, 40⟩
abbrev Fld.HM_STACKSTAT_trainings : Fld := ⟨.HM_STACKSTAT, 31, 0⟩
abbrev Fld.HM_SHARE_db_share : Fld := ⟨.HM_SHARE, 63, 48⟩
abbrev Fld.HM_SHARE_lk_share : Fld := ⟨.HM_SHARE, 47, 32⟩
abbrev Fld.HM_SHARE_margin_thr : Fld := ⟨.HM_SHARE, 15, 8⟩
abbrev Fld.HM_SCNT_count : Fld := ⟨.HM_SCNT, 47, 0⟩
abbrev Fld.MC_CTRL_priv_lock : Fld := ⟨.MC_CTRL, 63, 63⟩
abbrev Fld.MC_CTRL_clerk7_reserved : Fld := ⟨.MC_CTRL, 62, 62⟩
abbrev Fld.MC_STATUS_store_refused : Fld := ⟨.MC_STATUS, 63, 63⟩
abbrev Fld.MC_STATUS_store_clerk : Fld := ⟨.MC_STATUS, 62, 60⟩
abbrev Fld.MC_STATUS_ring_refused : Fld := ⟨.MC_STATUS, 59, 59⟩
abbrev Fld.MC_STATUS_state : Fld := ⟨.MC_STATUS, 15, 0⟩
abbrev Fld.MC_BOOT_source : Fld := ⟨.MC_BOOT, 63, 62⟩
abbrev Fld.MC_BOOT_result_cs0 : Fld := ⟨.MC_BOOT, 59, 56⟩
abbrev Fld.MC_BOOT_result_cs1 : Fld := ⟨.MC_BOOT, 55, 52⟩
abbrev Fld.MC_BOOT_result_host : Fld := ⟨.MC_BOOT, 51, 48⟩
abbrev Fld.MC_BOOT_key : Fld := ⟨.MC_BOOT, 45, 44⟩
abbrev Fld.MC_BOOT_sec_version : Fld := ⟨.MC_BOOT, 37, 32⟩
abbrev Fld.MC_BOOT_image_version : Fld := ⟨.MC_BOOT, 31, 0⟩
abbrev Fld.MC_FUSE_revoked : Fld := ⟨.MC_FUSE, 63, 60⟩
abbrev Fld.MC_FUSE_present : Fld := ⟨.MC_FUSE, 59, 56⟩
abbrev Fld.MC_FUSE_min_version : Fld := ⟨.MC_FUSE, 5, 0⟩
abbrev Fld.MC_FUSECMD_go : Fld := ⟨.MC_FUSECMD, 63, 63⟩
abbrev Fld.MC_FUSECMD_busy : Fld := ⟨.MC_FUSECMD, 62, 62⟩
abbrev Fld.MC_FUSECMD_refused : Fld := ⟨.MC_FUSECMD, 61, 61⟩
abbrev Fld.MC_FUSECMD_op : Fld := ⟨.MC_FUSECMD, 57, 56⟩
abbrev Fld.MC_FUSECMD_arg : Fld := ⟨.MC_FUSECMD, 5, 0⟩
abbrev Fld.MC_CMD_busy : Fld := ⟨.MC_CMD, 63, 63⟩
abbrev Fld.MC_CMD_op : Fld := ⟨.MC_CMD, 1, 0⟩
abbrev Fld.MC_ENTRY_entry : Fld := ⟨.MC_ENTRY, 10, 0⟩
abbrev Fld.MC_PRIV_reg : Fld := ⟨.MC_PRIV, 63, 63⟩
abbrev Fld.MC_PRIV_sec : Fld := ⟨.MC_PRIV, 62, 62⟩
abbrev Fld.MC_PRIV_tx_any_tenant : Fld := ⟨.MC_PRIV, 61, 61⟩
abbrev Fld.MC_HBMWIN_base : Fld := ⟨.MC_HBMWIN, 45, 32⟩
abbrev Fld.MC_HBMWIN_limit : Fld := ⟨.MC_HBMWIN, 13, 0⟩
abbrev Fld.MC_EXC_valid : Fld := ⟨.MC_EXC, 63, 63⟩
abbrev Fld.MC_EXC_cause : Fld := ⟨.MC_EXC, 62, 59⟩
abbrev Fld.MC_EXC_microword : Fld := ⟨.MC_EXC, 58, 48⟩
abbrev Fld.MC_EXC_address : Fld := ⟨.MC_EXC, 39, 0⟩
abbrev Fld.MC_WAKE_kick : Fld := ⟨.MC_WAKE, 2, 2⟩
abbrev Fld.MC_WAKE_level : Fld := ⟨.MC_WAKE, 1, 0⟩
abbrev Fld.MC_WAKE_enable : Fld := ⟨.MC_WAKE, 10, 8⟩
abbrev Fld.MC_KICK_kick : Fld := ⟨.MC_KICK, 0, 0⟩
abbrev Fld.MC_WDOG_pet : Fld := ⟨.MC_WDOG, 63, 63⟩
abbrev Fld.MC_WDOG_fired : Fld := ⟨.MC_WDOG, 62, 62⟩
abbrev Fld.MC_WDOG_timeout_us : Fld := ⟨.MC_WDOG, 31, 0⟩
abbrev Fld.MC_RXRING_log2_slots : Fld := ⟨.MC_RXRING, 63, 60⟩
abbrev Fld.MC_RXRING_mirror_free : Fld := ⟨.MC_RXRING, 57, 48⟩
abbrev Fld.MC_RXRING_step : Fld := ⟨.MC_RXRING, 47, 40⟩
abbrev Fld.MC_RXRING_base : Fld := ⟨.MC_RXRING, 39, 0⟩
abbrev Fld.MC_RXPROD_prod : Fld := ⟨.MC_RXPROD, 31, 0⟩
abbrev Fld.MC_RXCONS_cons : Fld := ⟨.MC_RXCONS, 31, 0⟩
abbrev Fld.MC_TXRING_log2_slots : Fld := ⟨.MC_TXRING, 63, 60⟩
abbrev Fld.MC_TXRING_base : Fld := ⟨.MC_TXRING, 39, 0⟩
abbrev Fld.MC_TXPROD_prod : Fld := ⟨.MC_TXPROD, 31, 0⟩
abbrev Fld.MC_TXCONS_cons : Fld := ⟨.MC_TXCONS, 31, 0⟩
abbrev Fld.MC_TXSTAT_invalid : Fld := ⟨.MC_TXSTAT, 63, 63⟩
abbrev Fld.MC_TXSTAT_slot : Fld := ⟨.MC_TXSTAT, 31, 0⟩
abbrev Fld.MC_CNT_count : Fld := ⟨.MC_CNT, 47, 0⟩
abbrev Fld.MC_CLASS_enable : Fld := ⟨.MC_CLASS, 63, 63⟩
abbrev Fld.MC_CLASS_kind : Fld := ⟨.MC_CLASS, 62, 62⟩
abbrev Fld.MC_CLASS_clerk : Fld := ⟨.MC_CLASS, 61, 59⟩
abbrev Fld.MC_CLASS_priority : Fld := ⟨.MC_CLASS, 58, 56⟩
abbrev Fld.MC_CLASS_trunc_len : Fld := ⟨.MC_CLASS, 45, 32⟩
abbrev Fld.MC_CLASS_rate_pps : Fld := ⟨.MC_CLASS, 31, 0⟩
abbrev Fld.MC_CLASSB_burst : Fld := ⟨.MC_CLASSB, 15, 0⟩
abbrev Fld.MC_CLASSCNT_count : Fld := ⟨.MC_CLASSCNT, 47, 0⟩
abbrev Fld.MC_UW_microword : Fld := ⟨.MC_UW, 63, 0⟩
abbrev Fld.MC_NW_bits : Fld := ⟨.MC_NW, 63, 0⟩
abbrev Fld.TW_HCTRL_resync : Fld := ⟨.TW_HCTRL, 63, 63⟩
abbrev Fld.TW_HSTATUS_state : Fld := ⟨.TW_HSTATUS, 63, 62⟩
abbrev Fld.TW_HSTATUS_phase : Fld := ⟨.TW_HSTATUS, 61, 60⟩
abbrev Fld.TW_HSTATUS_tx_overflow : Fld := ⟨.TW_HSTATUS, 59, 59⟩
abbrev Fld.TW_HSTATUS_bad_pop : Fld := ⟨.TW_HSTATUS, 58, 58⟩
abbrev Fld.TW_HSTATUS_bad_access : Fld := ⟨.TW_HSTATUS, 57, 57⟩
abbrev Fld.TW_HSTATUS_epoch : Fld := ⟨.TW_HSTATUS, 47, 32⟩
abbrev Fld.TW_HSTATUS_expect_seq : Fld := ⟨.TW_HSTATUS, 31, 0⟩
abbrev Fld.TW_RXPOP_words : Fld := ⟨.TW_RXPOP, 13, 0⟩
abbrev Fld.TW_TXFREE_free : Fld := ⟨.TW_TXFREE, 13, 0⟩
abbrev Fld.TW_RXLEVEL_receipts : Fld := ⟨.TW_RXLEVEL, 31, 16⟩
abbrev Fld.TW_RXLEVEL_words : Fld := ⟨.TW_RXLEVEL, 13, 0⟩
abbrev Fld.TW_RSEQ_rseq : Fld := ⟨.TW_RSEQ, 31, 0⟩
abbrev Fld.TW_HCNT_count : Fld := ⟨.TW_HCNT, 47, 0⟩
abbrev Fld.TW_TXWIN_word : Fld := ⟨.TW_TXWIN, 63, 0⟩
abbrev Fld.TW_RXAPT_word : Fld := ⟨.TW_RXAPT, 63, 0⟩
abbrev Fld.TW_CTRL_idle_us : Fld := ⟨.TW_CTRL, 63, 48⟩
abbrev Fld.TW_CTRL_req_wait_us : Fld := ⟨.TW_CTRL, 47, 32⟩
abbrev Fld.TW_CTRL_image_clerk : Fld := ⟨.TW_CTRL, 2, 0⟩
abbrev Fld.TW_HOSTPRIV_reg : Fld := ⟨.TW_HOSTPRIV, 63, 63⟩
abbrev Fld.TW_HBMWIN_base : Fld := ⟨.TW_HBMWIN, 45, 32⟩
abbrev Fld.TW_HBMWIN_limit : Fld := ⟨.TW_HBMWIN, 13, 0⟩
abbrev Fld.TW_IMGBASE_base : Fld := ⟨.TW_IMGBASE, 39, 0⟩
abbrev Fld.TW_STATUS_status : Fld := ⟨.TW_STATUS, 63, 0⟩
abbrev Fld.TW_EVENT_events : Fld := ⟨.TW_EVENT, 3, 0⟩
abbrev Fld.TW_EVENT_EN_enables : Fld := ⟨.TW_EVENT_EN, 3, 0⟩
abbrev Fld.TW_REQRING_log2_slots : Fld := ⟨.TW_REQRING, 63, 60⟩
abbrev Fld.TW_REQRING_base : Fld := ⟨.TW_REQRING, 39, 0⟩
abbrev Fld.TW_REQPROD_prod : Fld := ⟨.TW_REQPROD, 31, 0⟩
abbrev Fld.TW_REQCONS_cons : Fld := ⟨.TW_REQCONS, 31, 0⟩
abbrev Fld.TW_CRCMD_go : Fld := ⟨.TW_CRCMD, 63, 63⟩
abbrev Fld.TW_CRCMD_busy : Fld := ⟨.TW_CRCMD, 62, 62⟩
abbrev Fld.TW_CRCMD_status : Fld := ⟨.TW_CRCMD, 55, 48⟩
abbrev Fld.TW_CRCMD_count : Fld := ⟨.TW_CRCMD, 11, 0⟩
abbrev Fld.TW_CRCPT_word : Fld := ⟨.TW_CRCPT, 63, 0⟩
abbrev Fld.EV_CTRL_strand_us : Fld := ⟨.EV_CTRL, 47, 32⟩
abbrev Fld.EV_HOSTCFG_intn_all : Fld := ⟨.EV_HOSTCFG, 0, 0⟩
abbrev Fld.EV_CLAIM_valid : Fld := ⟨.EV_CLAIM, 63, 63⟩
abbrev Fld.EV_CLAIM_level : Fld := ⟨.EV_CLAIM, 19, 16⟩
abbrev Fld.EV_CLAIM_id : Fld := ⟨.EV_CLAIM, 12, 0⟩
abbrev Fld.EV_DONE_id : Fld := ⟨.EV_DONE, 12, 0⟩
abbrev Fld.EV_SOFT_SET_bits : Fld := ⟨.EV_SOFT_SET, 63, 0⟩
abbrev Fld.EV_SOFT_bits : Fld := ⟨.EV_SOFT, 63, 0⟩
abbrev Fld.EV_CFG_deliver_en : Fld := ⟨.EV_CFG, 63, 63⟩
abbrev Fld.EV_CFG_threshold : Fld := ⟨.EV_CFG, 3, 0⟩
abbrev Fld.EV_STACK_depth : Fld := ⟨.EV_STACK, 63, 60⟩
abbrev Fld.EV_STACK_level : Fld := ⟨.EV_STACK, 59, 56⟩
abbrev Fld.EV_STACK_top : Fld := ⟨.EV_STACK, 12, 0⟩
abbrev Fld.EV_CUR_id : Fld := ⟨.EV_CUR, 12, 0⟩
abbrev Fld.EV_CSTAT_done_order : Fld := ⟨.EV_CSTAT, 63, 63⟩
abbrev Fld.EV_CSTAT_timer : Fld := ⟨.EV_CSTAT, 62, 62⟩
abbrev Fld.EV_PSOFT_SET_bits : Fld := ⟨.EV_PSOFT_SET, 63, 16⟩
abbrev Fld.EV_PSOFT_bits : Fld := ⟨.EV_PSOFT, 63, 16⟩
abbrev Fld.EV_TIMER_count : Fld := ⟨.EV_TIMER, 31, 0⟩
abbrev Fld.EV_HANDLER_entry : Fld := ⟨.EV_HANDLER, 10, 0⟩
abbrev Fld.EV_PRIV_level : Fld := ⟨.EV_PRIV, 3, 0⟩
abbrev Fld.EV_CNT_count : Fld := ⟨.EV_CNT, 47, 0⟩
abbrev Fld.EV_SRC_state : Fld := ⟨.EV_SRC, 63, 62⟩
abbrev Fld.EV_SRC_stranded : Fld := ⟨.EV_SRC, 61, 61⟩
abbrev Fld.EV_SRC_asserted : Fld := ⟨.EV_SRC, 60, 60⟩
abbrev Fld.EV_SRC_vector : Fld := ⟨.EV_SRC, 21, 16⟩
abbrev Fld.EV_SRC_target : Fld := ⟨.EV_SRC, 11, 8⟩
abbrev Fld.EV_SRC_level : Fld := ⟨.EV_SRC, 3, 0⟩
abbrev Fld.EV_STRANDED_bits : Fld := ⟨.EV_STRANDED, 63, 0⟩
abbrev Fld.EV_HPEND_bits : Fld := ⟨.EV_HPEND, 63, 0⟩
abbrev Fld.PM_CTRL_run : Fld := ⟨.PM_CTRL, 63, 63⟩
abbrev Fld.PM_CTRL_cyc_clear : Fld := ⟨.PM_CTRL, 62, 62⟩
abbrev Fld.PM_CTRL_freeze_on_sample : Fld := ⟨.PM_CTRL, 0, 0⟩
abbrev Fld.PM_STATUS_missed : Fld := ⟨.PM_STATUS, 47, 32⟩
abbrev Fld.PM_STATUS_ovf : Fld := ⟨.PM_STATUS, 7, 0⟩
abbrev Fld.PM_CYCLES_cycles : Fld := ⟨.PM_CYCLES, 63, 0⟩
abbrev Fld.PM_SEL_enable : Fld := ⟨.PM_SEL, 63, 63⟩
abbrev Fld.PM_SEL_mode : Fld := ⟨.PM_SEL, 62, 62⟩
abbrev Fld.PM_SEL_sample_en : Fld := ⟨.PM_SEL, 61, 61⟩
abbrev Fld.PM_SEL_tenant_en : Fld := ⟨.PM_SEL, 60, 60⟩
abbrev Fld.PM_SEL_pipe_mask : Fld := ⟨.PM_SEL, 56, 48⟩
abbrev Fld.PM_SEL_tenant : Fld := ⟨.PM_SEL, 47, 32⟩
abbrev Fld.PM_SEL_qual : Fld := ⟨.PM_SEL, 15, 8⟩
abbrev Fld.PM_SEL_event : Fld := ⟨.PM_SEL, 7, 0⟩
abbrev Fld.PM_CTR_count : Fld := ⟨.PM_CTR, 47, 0⟩
abbrev Fld.PM_SAMPLE_valid : Fld := ⟨.PM_SAMPLE, 63, 63⟩
abbrev Fld.PM_SAMPLE_counter : Fld := ⟨.PM_SAMPLE, 62, 60⟩
abbrev Fld.PM_SAMPLE_pipeline : Fld := ⟨.PM_SAMPLE, 59, 56⟩
abbrev Fld.PM_SAMPLE_edition : Fld := ⟨.PM_SAMPLE, 55, 55⟩
abbrev Fld.PM_SAMPLE_in_port : Fld := ⟨.PM_SAMPLE, 49, 40⟩
abbrev Fld.PM_SAMPLE_tenant : Fld := ⟨.PM_SAMPLE, 15, 0⟩
abbrev Fld.PM_SAMPLE_TIME_time : Fld := ⟨.PM_SAMPLE_TIME, 63, 0⟩
abbrev Fld.MC_PMCTRL_run : Fld := ⟨.MC_PMCTRL, 63, 63⟩
abbrev Fld.MC_PMCTRL_cyc_clear : Fld := ⟨.MC_PMCTRL, 62, 62⟩
abbrev Fld.MC_PMCTRL_freeze_on_sample : Fld := ⟨.MC_PMCTRL, 0, 0⟩
abbrev Fld.MC_PMSTATUS_missed : Fld := ⟨.MC_PMSTATUS, 47, 32⟩
abbrev Fld.MC_PMSTATUS_ovf : Fld := ⟨.MC_PMSTATUS, 7, 0⟩
abbrev Fld.MC_PMCYCLES_cycles : Fld := ⟨.MC_PMCYCLES, 63, 0⟩
abbrev Fld.MC_PMSEL_enable : Fld := ⟨.MC_PMSEL, 63, 63⟩
abbrev Fld.MC_PMSEL_mode : Fld := ⟨.MC_PMSEL, 62, 62⟩
abbrev Fld.MC_PMSEL_sample_en : Fld := ⟨.MC_PMSEL, 61, 61⟩
abbrev Fld.MC_PMSEL_event : Fld := ⟨.MC_PMSEL, 7, 0⟩
abbrev Fld.MC_PMCTR_count : Fld := ⟨.MC_PMCTR, 47, 0⟩
abbrev Fld.MC_PMSAMPLE_valid : Fld := ⟨.MC_PMSAMPLE, 63, 63⟩
abbrev Fld.MC_PMSAMPLE_counter : Fld := ⟨.MC_PMSAMPLE, 62, 60⟩
abbrev Fld.MC_PMSAMPLE_depth : Fld := ⟨.MC_PMSAMPLE, 59, 56⟩
abbrev Fld.MC_PMSAMPLE_microword : Fld := ⟨.MC_PMSAMPLE, 10, 0⟩
abbrev Fld.SF_CTRL_hello_us : Fld := ⟨.SF_CTRL, 63, 48⟩
abbrev Fld.SF_CTRL_dead_us : Fld := ⟨.SF_CTRL, 47, 32⟩
abbrev Fld.SF_CTRL_hop_max : Fld := ⟨.SF_CTRL, 29, 24⟩
abbrev Fld.SF_CTRL_reach_class : Fld := ⟨.SF_CTRL, 21, 16⟩
abbrev Fld.SF_MEMBER_valid : Fld := ⟨.SF_MEMBER, 63, 63⟩
abbrev Fld.SF_MEMBER_member : Fld := ⟨.SF_MEMBER, 11, 0⟩
abbrev Fld.SF_STATUS_member_refused : Fld := ⟨.SF_STATUS, 63, 63⟩
abbrev Fld.SF_STATUS_reach_refused : Fld := ⟨.SF_STATUS, 62, 62⟩
abbrev Fld.SF_STATUS_live_count : Fld := ⟨.SF_STATUS, 9, 0⟩
abbrev Fld.SF_BASEMAC_base : Fld := ⟨.SF_BASEMAC, 47, 0⟩
abbrev Fld.SF_HELLO_DA_address : Fld := ⟨.SF_HELLO_DA, 47, 0⟩
abbrev Fld.SF_EVENT_events : Fld := ⟨.SF_EVENT, 3, 0⟩
abbrev Fld.SF_EVENT_EN_enables : Fld := ⟨.SF_EVENT_EN, 3, 0⟩
abbrev Fld.SF_LINKLIVE_live : Fld := ⟨.SF_LINKLIVE, 63, 0⟩
abbrev Fld.SF_LINKCHG_changed : Fld := ⟨.SF_LINKCHG, 63, 0⟩
abbrev Fld.SF_REACH_INDEX_member : Fld := ⟨.SF_REACH_INDEX, 11, 0⟩
abbrev Fld.SF_REACH_CMD_busy : Fld := ⟨.SF_REACH_CMD, 63, 63⟩
abbrev Fld.SF_REACH_CMD_op : Fld := ⟨.SF_REACH_CMD, 1, 0⟩
abbrev Fld.SF_REACH_W_hops : Fld := ⟨.SF_REACH_W, 63, 0⟩
abbrev Fld.SF_MIRDEST_valid : Fld := ⟨.SF_MIRDEST, 63, 63⟩
abbrev Fld.SF_MIRDEST_member : Fld := ⟨.SF_MIRDEST, 11, 0⟩
abbrev Fld.SF_CNT_count : Fld := ⟨.SF_CNT, 47, 0⟩
abbrev Fld.SF_LINK_state : Fld := ⟨.SF_LINK, 63, 62⟩
abbrev Fld.SF_LINK_pair : Fld := ⟨.SF_LINK, 61, 61⟩
abbrev Fld.SF_LINK_conflict : Fld := ⟨.SF_LINK, 60, 60⟩
abbrev Fld.SF_LINK_nbr_port : Fld := ⟨.SF_LINK, 57, 48⟩
abbrev Fld.SF_LINK_nbr_member : Fld := ⟨.SF_LINK, 43, 32⟩
abbrev Fld.SF_LINK_adopted : Fld := ⟨.SF_LINK, 31, 0⟩
abbrev Fld.SF_NBRID_device_id : Fld := ⟨.SF_NBRID, 63, 0⟩
abbrev Fld.TP_CTRL_enable : Fld := ⟨.TP_CTRL, 63, 63⟩
abbrev Fld.TP_CTRL_learn_share : Fld := ⟨.TP_CTRL, 62, 62⟩
abbrev Fld.TP_CTRL_map_en : Fld := ⟨.TP_CTRL, 61, 61⟩
abbrev Fld.TP_CTRL_partner : Fld := ⟨.TP_CTRL, 59, 48⟩
abbrev Fld.TP_CTRL_hb_us : Fld := ⟨.TP_CTRL, 47, 32⟩
abbrev Fld.TP_CTRL_lg_class : Fld := ⟨.TP_CTRL, 29, 24⟩
abbrev Fld.TP_CTRL_via_partner : Fld := ⟨.TP_CTRL, 15, 0⟩
abbrev Fld.TP_STATUS_partner_up : Fld := ⟨.TP_STATUS, 63, 63⟩
abbrev Fld.TP_STATUS_sync_gap : Fld := ⟨.TP_STATUS, 62, 62⟩
abbrev Fld.TP_STATUS_overflow : Fld := ⟨.TP_STATUS, 61, 61⟩
abbrev Fld.TP_STATUS_pair_live : Fld := ⟨.TP_STATUS, 3, 0⟩
abbrev Fld.TP_EVENT_events : Fld := ⟨.TP_EVENT, 3, 0⟩
abbrev Fld.TP_EVENT_EN_enables : Fld := ⟨.TP_EVENT_EN, 3, 0⟩
abbrev Fld.TP_HOSTWORD_word : Fld := ⟨.TP_HOSTWORD, 63, 0⟩
abbrev Fld.TP_PEERWORD_word : Fld := ⟨.TP_PEERWORD, 63, 0⟩
abbrev Fld.TP_PEERSTAT_other_state : Fld := ⟨.TP_PEERSTAT, 34, 33⟩
abbrev Fld.TP_PEERSTAT_current : Fld := ⟨.TP_PEERSTAT, 32, 32⟩
abbrev Fld.TP_PEERSTAT_rx_seq : Fld := ⟨.TP_PEERSTAT, 31, 0⟩
abbrev Fld.TP_TXSEQ_seq : Fld := ⟨.TP_TXSEQ, 31, 0⟩
abbrev Fld.TP_PAIR_valid : Fld := ⟨.TP_PAIR, 63, 63⟩
abbrev Fld.TP_PAIR_port : Fld := ⟨.TP_PAIR, 9, 0⟩
abbrev Fld.TP_CNT_count : Fld := ⟨.TP_CNT, 47, 0⟩
abbrev Fld.TP_PORTMAP_entries : Fld := ⟨.TP_PORTMAP, 63, 0⟩
abbrev Fld.GL_ID_part : Fld := ⟨.GL_ID, 63, 48⟩
abbrev Fld.GL_ID_variant : Fld := ⟨.GL_ID, 47, 40⟩
abbrev Fld.GL_ID_stepping : Fld := ⟨.GL_ID, 39, 32⟩
abbrev Fld.GL_DEVICE_ID_id : Fld := ⟨.GL_DEVICE_ID, 63, 0⟩
abbrev Fld.GL_RESET_CAUSE_count : Fld := ⟨.GL_RESET_CAUSE, 15, 8⟩
abbrev Fld.GL_RESET_CAUSE_cause : Fld := ⟨.GL_RESET_CAUSE, 3, 0⟩
abbrev Fld.GL_RESET_arm : Fld := ⟨.GL_RESET, 63, 63⟩
abbrev Fld.GL_RESET_go : Fld := ⟨.GL_RESET, 62, 62⟩
abbrev Fld.GL_STRAPS_boot_src : Fld := ⟨.GL_STRAPS, 1, 0⟩
abbrev Fld.PW_CTRL_quiesce_us : Fld := ⟨.PW_CTRL, 47, 32⟩
abbrev Fld.PW_CTRL_warn_c : Fld := ⟨.PW_CTRL, 7, 0⟩
abbrev Fld.PW_STATUS_pwr_fail : Fld := ⟨.PW_STATUS, 63, 63⟩
abbrev Fld.PW_STATUS_thermal_critical : Fld := ⟨.PW_STATUS, 62, 62⟩
abbrev Fld.PW_STATUS_supply_alarm : Fld := ⟨.PW_STATUS, 61, 61⟩
abbrev Fld.PW_STATUS_clerk_pwr : Fld := ⟨.PW_STATUS, 15, 0⟩
abbrev Fld.PW_EVENT_events : Fld := ⟨.PW_EVENT, 7, 0⟩
abbrev Fld.PW_EVENT_EN_enables : Fld := ⟨.PW_EVENT_EN, 7, 0⟩
abbrev Fld.PW_RAILALARM_die : Fld := ⟨.PW_RAILALARM, 19, 16⟩
abbrev Fld.PW_RAILALARM_rails : Fld := ⟨.PW_RAILALARM, 7, 0⟩
abbrev Fld.PW_CLKMON_ts_clk : Fld := ⟨.PW_CLKMON, 10, 10⟩
abbrev Fld.PW_CLKMON_pcie_refclk : Fld := ⟨.PW_CLKMON, 9, 9⟩
abbrev Fld.PW_CLKMON_core_refclk : Fld := ⟨.PW_CLKMON, 8, 8⟩
abbrev Fld.PW_CLKMON_derived : Fld := ⟨.PW_CLKMON, 5, 0⟩
abbrev Fld.PW_TEMP_clear : Fld := ⟨.PW_TEMP, 63, 63⟩
abbrev Fld.PW_TEMP_max : Fld := ⟨.PW_TEMP, 31, 16⟩
abbrev Fld.PW_TEMP_temp : Fld := ⟨.PW_TEMP, 15, 0⟩
abbrev Fld.PW_SLICECMD_go : Fld := ⟨.PW_SLICECMD, 63, 63⟩
abbrev Fld.PW_SLICECMD_busy : Fld := ⟨.PW_SLICECMD, 62, 62⟩
abbrev Fld.PW_SLICECMD_state : Fld := ⟨.PW_SLICECMD, 57, 56⟩
abbrev Fld.PW_SLICECMD_load_bank : Fld := ⟨.PW_SLICECMD, 53, 52⟩
abbrev Fld.PW_SLICECMD_result : Fld := ⟨.PW_SLICECMD, 50, 48⟩
abbrev Fld.PW_SLICESTAT_state : Fld := ⟨.PW_SLICESTAT, 63, 62⟩
abbrev Fld.PW_SLICESTAT_testing : Fld := ⟨.PW_SLICESTAT, 61, 61⟩
abbrev Fld.PW_CLERKCMD_go : Fld := ⟨.PW_CLERKCMD, 63, 63⟩
abbrev Fld.PW_CLERKCMD_busy : Fld := ⟨.PW_CLERKCMD, 62, 62⟩
abbrev Fld.PW_CLERKCMD_state : Fld := ⟨.PW_CLERKCMD, 57, 56⟩
abbrev Fld.PW_CLERKCMD_result : Fld := ⟨.PW_CLERKCMD, 50, 48⟩
abbrev Fld.TB_CTRL_src : Fld := ⟨.TB_CTRL, 63, 63⟩
abbrev Fld.TB_CTRL_ts_clk_25 : Fld := ⟨.TB_CTRL, 62, 62⟩
abbrev Fld.TB_CTRL_pps_out_en : Fld := ⟨.TB_CTRL, 61, 61⟩
abbrev Fld.TB_CTRL_tod_out_en : Fld := ⟨.TB_CTRL, 60, 60⟩
abbrev Fld.TB_CTRL_tod_arm : Fld := ⟨.TB_CTRL, 59, 59⟩
abbrev Fld.TB_CTRL_clear_ts : Fld := ⟨.TB_CTRL, 58, 58⟩
abbrev Fld.TB_CTRL_pps_width_us : Fld := ⟨.TB_CTRL, 47, 32⟩
abbrev Fld.TB_TIME_time : Fld := ⟨.TB_TIME, 63, 0⟩
abbrev Fld.TB_ADJ_adj : Fld := ⟨.TB_ADJ, 47, 0⟩
abbrev Fld.TB_STEP_offset : Fld := ⟨.TB_STEP, 63, 0⟩
abbrev Fld.TB_SET_time : Fld := ⟨.TB_SET, 63, 0⟩
abbrev Fld.TB_PPSCAP_time : Fld := ⟨.TB_PPSCAP, 63, 0⟩
abbrev Fld.TB_TODRX_valid : Fld := ⟨.TB_TODRX, 63, 63⟩
abbrev Fld.TB_TODRX_seconds : Fld := ⟨.TB_TODRX, 47, 0⟩
abbrev Fld.TB_LASTMARK_time : Fld := ⟨.TB_LASTMARK, 63, 0⟩
abbrev Fld.TB_EVENT_events : Fld := ⟨.TB_EVENT, 5, 0⟩
abbrev Fld.TB_EVENT_EN_enables : Fld := ⟨.TB_EVENT_EN, 5, 0⟩
abbrev Fld.TB_TXTS_HEAD_valid : Fld := ⟨.TB_TXTS_HEAD, 63, 63⟩
abbrev Fld.TB_TXTS_HEAD_port : Fld := ⟨.TB_TXTS_HEAD, 57, 48⟩
abbrev Fld.TB_TXTS_HEAD_tag : Fld := ⟨.TB_TXTS_HEAD, 15, 0⟩
abbrev Fld.TB_TXTS_TIME_time : Fld := ⟨.TB_TXTS_TIME, 63, 0⟩
abbrev Fld.TB_CNT_count : Fld := ⟨.TB_CNT, 47, 0⟩
abbrev Fld.GL_GPIO_DIR_dir : Fld := ⟨.GL_GPIO_DIR, 15, 0⟩
abbrev Fld.GL_GPIO_OUT_out : Fld := ⟨.GL_GPIO_OUT, 15, 0⟩
abbrev Fld.GL_GPIO_IN_in : Fld := ⟨.GL_GPIO_IN, 15, 0⟩
abbrev Fld.GL_I2CT_refused : Fld := ⟨.GL_I2CT, 47, 32⟩
abbrev Fld.GL_I2CT_accepted : Fld := ⟨.GL_I2CT, 31, 16⟩
abbrev Fld.GL_I2CT_address : Fld := ⟨.GL_I2CT, 6, 0⟩
abbrev Fld.PW_VRCTRL_enable : Fld := ⟨.PW_VRCTRL, 63, 63⟩
abbrev Fld.PW_VRCTRL_poll_ms : Fld := ⟨.PW_VRCTRL, 47, 32⟩
abbrev Fld.PW_VRCTRL_speed : Fld := ⟨.PW_VRCTRL, 1, 0⟩
abbrev Fld.PW_VR_valid : Fld := ⟨.PW_VR, 63, 63⟩
abbrev Fld.PW_VR_pec : Fld := ⟨.PW_VR, 62, 62⟩
abbrev Fld.PW_VR_page_en : Fld := ⟨.PW_VR, 61, 61⟩
abbrev Fld.PW_VR_address : Fld := ⟨.PW_VR, 22, 16⟩
abbrev Fld.PW_VR_page : Fld := ⟨.PW_VR, 15, 8⟩
abbrev Fld.PW_VR_rail : Fld := ⟨.PW_VR, 2, 0⟩
abbrev Fld.PW_VRDATA_valid : Fld := ⟨.PW_VRDATA, 63, 63⟩
abbrev Fld.PW_VRDATA_stale : Fld := ⟨.PW_VRDATA, 62, 62⟩
abbrev Fld.PW_VRDATA_vout_mv : Fld := ⟨.PW_VRDATA, 47, 32⟩
abbrev Fld.PW_VRDATA_iout : Fld := ⟨.PW_VRDATA, 31, 16⟩
abbrev Fld.PW_VRDATA_failures : Fld := ⟨.PW_VRDATA, 7, 0⟩
abbrev Fld.FC_CTRL_esc_window_us : Fld := ⟨.FC_CTRL, 47, 32⟩
abbrev Fld.FC_CTRL_esc_count : Fld := ⟨.FC_CTRL, 31, 24⟩
abbrev Fld.FC_CTRL_retire_count : Fld := ⟨.FC_CTRL, 23, 16⟩
abbrev Fld.FC_CTRL_inject_en : Fld := ⟨.FC_CTRL, 1, 1⟩
abbrev Fld.FC_CTRL_alarm_on_slice : Fld := ⟨.FC_CTRL, 0, 0⟩
abbrev Fld.FC_STATUS_device_hold : Fld := ⟨.FC_STATUS, 63, 63⟩
abbrev Fld.FC_STATUS_log_overflow : Fld := ⟨.FC_STATUS, 62, 62⟩
abbrev Fld.FC_STATUS_cmd_refused : Fld := ⟨.FC_STATUS, 61, 61⟩
abbrev Fld.FC_STATUS_slice_frozen : Fld := ⟨.FC_STATUS, 55, 48⟩
abbrev Fld.FC_STATUS_coverage_lost : Fld := ⟨.FC_STATUS, 47, 40⟩
abbrev Fld.FC_STATUS_overflow_count : Fld := ⟨.FC_STATUS, 31, 16⟩
abbrev Fld.FC_STATUS_log_count : Fld := ⟨.FC_STATUS, 8, 0⟩
abbrev Fld.FC_LOG_HEAD_valid : Fld := ⟨.FC_LOG_HEAD, 63, 63⟩
abbrev Fld.FC_LOG_HEAD_injected : Fld := ⟨.FC_LOG_HEAD, 62, 62⟩
abbrev Fld.FC_LOG_HEAD_reaction : Fld := ⟨.FC_LOG_HEAD, 61, 59⟩
abbrev Fld.FC_LOG_HEAD_tenant_valid : Fld := ⟨.FC_LOG_HEAD, 58, 58⟩
abbrev Fld.FC_LOG_HEAD_origin : Fld := ⟨.FC_LOG_HEAD, 57, 54⟩
abbrev Fld.FC_LOG_HEAD_pipeline : Fld := ⟨.FC_LOG_HEAD, 53, 50⟩
abbrev Fld.FC_LOG_HEAD_code : Fld := ⟨.FC_LOG_HEAD, 49, 38⟩
abbrev Fld.FC_LOG_HEAD_port : Fld := ⟨.FC_LOG_HEAD, 37, 28⟩
abbrev Fld.FC_LOG_HEAD_tenant : Fld := ⟨.FC_LOG_HEAD, 27, 12⟩
abbrev Fld.FC_LOG_TIME_time : Fld := ⟨.FC_LOG_TIME, 63, 0⟩
abbrev Fld.FC_TENANT_CMD_op : Fld := ⟨.FC_TENANT_CMD, 63, 62⟩
abbrev Fld.FC_TENANT_CMD_target : Fld := ⟨.FC_TENANT_CMD, 15, 0⟩
abbrev Fld.FC_PORT_CMD_op : Fld := ⟨.FC_PORT_CMD, 63, 62⟩
abbrev Fld.FC_PORT_CMD_target : Fld := ⟨.FC_PORT_CMD, 15, 0⟩
abbrev Fld.FC_SLICE_CMD_op : Fld := ⟨.FC_SLICE_CMD, 63, 62⟩
abbrev Fld.FC_SLICE_CMD_target : Fld := ⟨.FC_SLICE_CMD, 15, 0⟩
abbrev Fld.FC_HOLD_hold : Fld := ⟨.FC_HOLD, 0, 0⟩
abbrev Fld.FC_INJECT_go : Fld := ⟨.FC_INJECT, 63, 63⟩
abbrev Fld.FC_INJECT_tenant_valid : Fld := ⟨.FC_INJECT, 58, 58⟩
abbrev Fld.FC_INJECT_origin : Fld := ⟨.FC_INJECT, 57, 54⟩
abbrev Fld.FC_INJECT_pipeline : Fld := ⟨.FC_INJECT, 53, 50⟩
abbrev Fld.FC_INJECT_code : Fld := ⟨.FC_INJECT, 49, 38⟩
abbrev Fld.FC_INJECT_port : Fld := ⟨.FC_INJECT, 37, 28⟩
abbrev Fld.FC_INJECT_tenant : Fld := ⟨.FC_INJECT, 27, 12⟩
abbrev Fld.FC_SELFTEST_go : Fld := ⟨.FC_SELFTEST, 63, 63⟩
abbrev Fld.FC_SELFTEST_slice : Fld := ⟨.FC_SELFTEST, 62, 60⟩
abbrev Fld.FC_SELFTEST_target : Fld := ⟨.FC_SELFTEST, 59, 56⟩
abbrev Fld.FC_SELFTEST_STATUS_state : Fld := ⟨.FC_SELFTEST_STATUS, 63, 62⟩
abbrev Fld.FC_SELFTEST_STATUS_pass : Fld := ⟨.FC_SELFTEST_STATUS, 61, 61⟩
abbrev Fld.FC_SELFTEST_STATUS_first_fail : Fld := ⟨.FC_SELFTEST_STATUS, 15, 0⟩
abbrev Fld.FC_STRIP_strip : Fld := ⟨.FC_STRIP, 51, 48⟩
abbrev Fld.FC_STRIP_retired : Fld := ⟨.FC_STRIP, 47, 39⟩
abbrev Fld.FC_STRIP_degrade_test : Fld := ⟨.FC_STRIP, 35, 35⟩
abbrev Fld.FC_STRIP_rotate_s : Fld := ⟨.FC_STRIP, 31, 16⟩
abbrev Fld.FC_STRIP_rotations : Fld := ⟨.FC_STRIP, 15, 0⟩
abbrev Fld.FC_PIPE_counts : Fld := ⟨.FC_PIPE, 62, 0⟩
abbrev Fld.FC_POLICY_esc_enable : Fld := ⟨.FC_POLICY, 15, 15⟩
abbrev Fld.FC_POLICY_floor : Fld := ⟨.FC_POLICY, 14, 12⟩
abbrev Fld.FC_POLICY_esc_reaction : Fld := ⟨.FC_POLICY, 10, 8⟩
abbrev Fld.FC_POLICY_reaction : Fld := ⟨.FC_POLICY, 6, 4⟩
abbrev Fld.FC_TFROZEN_frozen : Fld := ⟨.FC_TFROZEN, 63, 0⟩
abbrev Fld.FC_PFROZEN_frozen : Fld := ⟨.FC_PFROZEN, 63, 0⟩

/-- The registers of the register maps, in the order in which an address is looked up. -/
def mapNames0 : List RegName :=
  [.CS_CTRL, .CS_REFUSE_CNT, .CS_NOOWNER_CNT, .CS_TAGFAIL_CNT, .CS_COCHECK_CNT, .CS_CO_INDEX,
   .CS_CO_W0, .CS_CO_W1, .CS_CO_CMD, .CS_SHADOW_BASE, .CS_PORTCFG, .CS_PERMIT,
   .PT_GMODE, .PT_GSTATUS, .PT_NOPORT_CNT, .PT_CFG, .PT_STATUS, .PT_EVENT,
   .PT_EVENT_EN, .PT_FECTHR, .PT_AN_ADV, .PT_AN_LP, .PT_LINKVEC, .PT_CNT,
   .SD_LANECFG, .SD_LANESTAT, .SD_PRBS, .SD_PRBS_ERR, .SD_REFSTAT, .PA_CTRL,
   .PA_STATUS, .PA_BANKCOPY, .PA_POLICY, .PA_CNT, .PA_PORTCFG, .PA_TKMAP,
   .PA_STATE0, .PA_STATE1, .PA_STATE2, .PA_STATE3, .PA_TRANS0, .PA_TRANS1,
   .SE_KEYPROF, .SE_PCNT_INDEX, .SE_PCNT_CMD, .SE_PCNT_PKTS, .SE_PCNT_BYTES, .SE_ISA_CNT,
   .SE_CTRL, .SE_STATUS, .SE_BANKCOPY, .SE_ENTRY, .SE_BUDGET, .SE_ABORT_CNT,
   .SE_REFBASE, .NS_UW, .NS_NW, .CL_CTRL, .CL_STATUS, .CL_INDEX]

def mapNames1 : List RegName :=
  [.CL_CMD, .CL_SHADOW_BASE, .CL_VALUE, .CL_MASK, .CL_A0, .CL_A1,
   .CL_CNT, .CL_LIST, .GC_CTRL, .GC_STATUS, .GC_INDEX, .GC_CMD,
   .GC_A_WORD, .GC_A_ATTR, .GC_B_WORD, .GC_B_ATTR, .GC_SHADOW_BASE, .GC_CNT,
   .GC_PROBE_MASK, .GC_PROBE_CFG, .FT_CTRL, .FT_STATUS, .FT_SHADOW_BASE, .FT_TARGET,
   .FT_DATA_HI, .FT_DATA_LO, .FT_CMD, .FT_SYNC, .FT_LP_FENCE, .FT_LP_BANKMAP,
   .FT_LP_PROFILE, .FT_HX_DESC, .FT_HX_TARGET, .FT_HX_ENTRY, .FT_HX_CMD, .FT_CNT,
   .FT_CH_CTRL, .FT_CH_STATUS, .FT_CH_KEY, .FT_CH_DATA, .FT_CH_CMD, .FT_CH_RESULT,
   .FT_CH_WORD1, .FT_CH_STAMP, .FT_CH_SEED, .FT_CH_RING, .FT_CH_RING_PROD, .FT_CH_RING_CONS,
   .FT_CH_CNT, .ED_CTRL, .ED_STATUS, .ED_CMD, .ED_MISSING, .ED_DRAIN,
   .ED_FLIPTIME, .ED_FLIPS, .ED_EVENT, .ED_EVENT_EN, .ED_CNT, .XB_CTRL]

def mapNames2 : List RegName :=
  [.XB_STATUS, .XB_RESTORE, .XB_CNT, .XB_GROUP, .XB_MIRROR, .BP_CARVE,
   .BP_STATUS, .BP_FREE, .BP_FREEFAULT, .BP_ALLOW, .BP_CNT, .BP_GROUP,
   .TM_STATUS, .TM_PORTCFG, .TM_PORTSTAT, .TM_GCLBASE, .TM_GCLCMD, .TM_WRED,
   .TM_WREDCTL, .TM_RCQ, .TM_CNT, .TM_POL_INDEX, .TM_POL_CFG0, .TM_POL_CFG1,
   .TM_POL_CFG2, .TM_POL_CMD, .TM_POL_STATE0, .TM_POL_STATE1, .TM_POL_CNT, .TM_QCFG,
   .TM_QCFG2, .TM_QSTAT, .TM_QSTAT2, .TM_QCNT, .TM_GCL, .TM_CAL,
   .LG_CTRL, .LG_STATUS, .LG_SEQ, .LG_LAST_MINUTE, .LG_BOOK_BASE, .LG_RING,
   .LG_RING_PROD, .LG_RING_CONS, .LG_HELD, .LG_LAST_SEAL, .LG_EVENT, .LG_EVENT_EN,
   .LG_LGPORT, .LG_CNT, .CX_CTRL, .CX_STATUS, .CX_ALARM_EN, .CX_ALARM,
   .CX_ZEROIZE, .CX_ERASE, .CX_IMPORT_CMD, .CX_IMPORT_STATUS, .CX_IMPORT_PN, .CX_IMPORT_BUF]

def mapNames3 : List RegName :=
  [.CX_DEVPUB, .CX_PNWARN, .CX_PNSTOP, .CX_CNT, .CX_EVENT, .CX_EVENT_EN,
   .CX_PNWARN_VEC, .CX_SEALSLOT, .CX_KEKSLOT, .CX_SECY, .CX_TXSCI, .CX_RXSCI,
   .CX_TXMAP, .CX_RXMAP, .CX_SA, .CX_PN, .CX_SALT_HI, .CX_SALT_LO,
   .CK_STATUS, .CK_UCTRL, .CK_UINIT, .CK_UFOLD, .CK_UTAIL, .CK_UCMD,
   .CK_UEXPECT, .CK_URESULT, .CK_USTATUS, .CK_CNT, .CK_UWIN, .HM_CTRL,
   .HM_STATUS, .HM_EVENT, .HM_EVENT_EN, .HM_WEIGHT, .HM_ERRLOG, .HM_CNT,
   .HM_DB, .HM_DB_STAT, .HM_STACKCMD, .HM_STACKSTAT, .HM_SHARE, .HM_SCNT,
   .MC_CTRL, .MC_STATUS, .MC_BOOT, .MC_FUSE, .MC_FUSECMD, .MC_CMD,
   .MC_ENTRY, .MC_PRIV, .MC_HBMWIN, .MC_EXC, .MC_WAKE, .MC_KICK,
   .MC_WDOG, .MC_RXRING, .MC_RXPROD, .MC_RXCONS, .MC_TXRING, .MC_TXPROD]

def mapNames4 : List RegName :=
  [.MC_TXCONS, .MC_TXSTAT, .MC_CNT, .MC_CLASS, .MC_CLASSB, .MC_CLASSCNT,
   .MC_UW, .MC_NW, .TW_HCTRL, .TW_HSTATUS, .TW_RXPOP, .TW_TXFREE,
   .TW_RXLEVEL, .TW_RSEQ, .TW_HCNT, .TW_TXWIN, .TW_RXAPT, .TW_CTRL,
   .TW_HOSTPRIV, .TW_HBMWIN, .TW_IMGBASE, .TW_STATUS, .TW_EVENT, .TW_EVENT_EN,
   .TW_REQRING, .TW_REQPROD, .TW_REQCONS, .TW_CRCMD, .TW_CRCPT, .EV_CTRL,
   .EV_HOSTCFG, .EV_CLAIM, .EV_DONE, .EV_SOFT_SET, .EV_SOFT, .EV_CFG,
   .EV_STACK, .EV_CUR, .EV_CSTAT, .EV_PSOFT_SET, .EV_PSOFT, .EV_TIMER,
   .EV_HANDLER, .EV_PRIV, .EV_CNT, .EV_SRC, .EV_STRANDED, .EV_HPEND,
   .PM_CTRL, .PM_STATUS, .PM_CYCLES, .PM_SEL, .PM_CTR, .PM_SAMPLE,
   .PM_SAMPLE_TIME, .MC_PMCTRL, .MC_PMSTATUS, .MC_PMCYCLES, .MC_PMSEL, .MC_PMCTR]

def mapNames5 : List RegName :=
  [.MC_PMSAMPLE, .SF_CTRL, .SF_MEMBER, .SF_STATUS, .SF_BASEMAC, .SF_HELLO_DA,
   .SF_EVENT, .SF_EVENT_EN, .SF_LINKLIVE, .SF_LINKCHG, .SF_REACH_INDEX, .SF_REACH_CMD,
   .SF_REACH_W, .SF_MIRDEST, .SF_CNT, .SF_LINK, .SF_NBRID, .TP_CTRL,
   .TP_STATUS, .TP_EVENT, .TP_EVENT_EN, .TP_HOSTWORD, .TP_PEERWORD, .TP_PEERSTAT,
   .TP_TXSEQ, .TP_PAIR, .TP_CNT, .TP_PORTMAP, .GL_ID, .GL_DEVICE_ID,
   .GL_RESET_CAUSE, .GL_RESET, .GL_STRAPS, .PW_CTRL, .PW_STATUS, .PW_EVENT,
   .PW_EVENT_EN, .PW_RAILALARM, .PW_CLKMON, .PW_TEMP, .PW_SLICECMD, .PW_SLICESTAT,
   .PW_CLERKCMD, .TB_CTRL, .TB_TIME, .TB_ADJ, .TB_STEP, .TB_SET,
   .TB_PPSCAP, .TB_TODRX, .TB_LASTMARK, .TB_EVENT, .TB_EVENT_EN, .TB_TXTS_HEAD,
   .TB_TXTS_TIME, .TB_CNT, .GL_GPIO_DIR, .GL_GPIO_OUT, .GL_GPIO_IN, .GL_I2CT]

def mapNames6 : List RegName :=
  [.PW_VRCTRL, .PW_VR, .PW_VRDATA, .FC_CTRL, .FC_STATUS, .FC_LOG_HEAD,
   .FC_LOG_TIME, .FC_TENANT_CMD, .FC_PORT_CMD, .FC_SLICE_CMD, .FC_HOLD, .FC_INJECT,
   .FC_SELFTEST, .FC_SELFTEST_STATUS, .FC_STRIP, .FC_PIPE, .FC_POLICY, .FC_TFROZEN,
   .FC_PFROZEN]

def mapNames : List RegName :=
  mapNames0 ++ mapNames1 ++ mapNames2 ++ mapNames3 ++ mapNames4 ++ mapNames5 ++ mapNames6

/-- The map row of a register. An on-die array has no map row and reads as its own default. -/
def regRow : RegName → RegRow
  | .CS_CTRL => ⟨.slice, 0x3800000, [], 0xFFFF0001, 0x0, 0x0, 0xFFFF0001, false, false, 0x3E80001⟩
  | .CS_REFUSE_CNT => ⟨.slice, 0x3800010, [], 0x0, 0x0, 0x0, 0xFFFFFFFFFFFF, false, false, 0x0⟩
  | .CS_NOOWNER_CNT => ⟨.slice, 0x3800018, [], 0x0, 0x0, 0x0, 0xFFFFFFFFFFFF, false, false, 0x0⟩
  | .CS_TAGFAIL_CNT => ⟨.slice, 0x3800020, [], 0x0, 0x0, 0x0, 0xFFFFFFFFFFFF, false, false, 0x0⟩
  | .CS_COCHECK_CNT => ⟨.slice, 0x3800028, [], 0x0, 0x0, 0x0, 0xFFFFFFFFFFFF, false, false, 0x0⟩
  | .CS_CO_INDEX => ⟨.slice, 0x3800040, [], 0x3FFFF, 0x0, 0x0, 0x3FFFF, false, false, 0x0⟩
  | .CS_CO_W0 => ⟨.slice, 0x3800048, [], 0xFFFFFFFFFFFFFFFF, 0x0, 0x0, 0xFFFFFFFFFFFFFFFF, false, false, 0x0⟩
  | .CS_CO_W1 => ⟨.slice, 0x3800050, [], 0xFFFFFFFFFFFF0000, 0x0, 0x0, 0xFFFFFFFFFFFFFFFF, false, false, 0x0⟩
  | .CS_CO_CMD => ⟨.slice, 0x3800058, [], 0x0, 0x0, 0x3, 0x8000000000000000, false, false, 0x0⟩
  | .CS_SHADOW_BASE => ⟨.slice, 0x3800060, [], 0xFFFFFFFFFF, 0x0, 0x0, 0xFFFFFFFFFF, false, false, 0x0⟩
  | .CS_PORTCFG => ⟨.slice, 0x3801000, [(96, 0x8)], 0x7, 0x0, 0x0, 0x7, false, false, 0x0⟩
  | .CS_PERMIT => ⟨.slice, 0x3820000, [(64, 0x2000), (1024, 0x8)], 0xFFFFFFFFFFFFFFFF, 0x0, 0x0, 0xFFFFFFFFFFFFFFFF, false, false, 0x0⟩
  | .PT_GMODE => ⟨.slice, 0x0, [(12, 0x8)], 0xFFFFFFFF, 0x0, 0x0, 0xFFFFFFFF, false, false, 0x0⟩
  | .PT_GSTATUS => ⟨.slice, 0x80, [(12, 0x8)], 0x0, 0x8000000000000000, 0x0, 0x8000000000000007, false, false, 0x0⟩
  | .PT_NOPORT_CNT => ⟨.slice, 0x100, [], 0x0, 0x0, 0x0, 0xFFFFFFFFFFFFFFFF, false, false, 0x0⟩
  | .PT_CFG => ⟨.slice, 0x1000, [(96, 0x8)], 0xFC00FFFFFFFFFFFF, 0x0, 0x0, 0xFC00FFFFFFFFFFFF, false, false, 0x2A710⟩
  | .PT_STATUS => ⟨.slice, 0x2000, [(96, 0x8)], 0x0, 0x0, 0x0, 0xFFFFFF0000000000, false, false, 0x0⟩
  | .PT_EVENT => ⟨.slice, 0x3000, [(96, 0x8)], 0x0, 0xFFF, 0x0, 0xFFF, false, false, 0x0⟩
  | .PT_EVENT_EN => ⟨.slice, 0x3800, [(96, 0x8)], 0xFFF, 0x0, 0x0, 0xFFF, false, false, 0x0⟩
  | .PT_FECTHR => ⟨.slice, 0x4000, [(96, 0x8)], 0xFFFFFFFFFFFFFFFF, 0x0, 0x0, 0xFFFFFFFFFFFFFFFF, false, false, 0x186A00000C350⟩
  | .PT_AN_ADV => ⟨.slice, 0x5000, [(96, 0x8)], 0x1FFE, 0x0, 0x0, 0x1FFE, false, false, 0x0⟩
  | .PT_AN_LP => ⟨.slice, 0x5800, [(96, 0x8)], 0x0, 0x0, 0x0, 0x1FFE, false, false, 0x0⟩
  | .PT_LINKVEC => ⟨.slice, 0x6000, [(12, 0x8)], 0x0, 0x0, 0x0, 0xFFFFFFFFFFFFFFFF, false, false, 0x0⟩
  | .PT_CNT => ⟨.slice, 0x10000, [(96, 0x100), (32, 0x8)], 0x0, 0x0, 0x0, 0xFFFFFFFFFFFFFFFF, false, false, 0x0⟩
  | .SD_LANECFG => ⟨.slice, 0x100000, [(96, 0x8)], 0xFF80FFFFFFFF0000, 0x0, 0x0, 0xFF80FFFFFFFF0000, false, false, 0x40000000⟩
  | .SD_LANESTAT => ⟨.slice, 0x101000, [(96, 0x8)], 0x0, 0x0, 0x0, 0xFFC00000FFFFFFFF, false, false, 0x0⟩
  | .SD_PRBS => ⟨.slice, 0x102000, [(96, 0x8)], 0xFC0000000000000, 0x0, 0xC000000000000000, 0x3FC0000000000000, false, false, 0x0⟩
  | .SD_PRBS_ERR => ⟨.slice, 0x103000, [(96, 0x8)], 0x0, 0x0, 0x0, 0xFFFFFFFFFFFFFFFF, false, false, 0x0⟩
  | .SD_REFSTAT => ⟨.slice, 0x104000, [], 0x0, 0x700, 0x0, 0x707, false, false, 0x0⟩
  | .PA_CTRL => ⟨.slice, 0x200000, [], 0xFFFF0001, 0x0, 0x0, 0xFFFF0001, false, false, 0x3E80000⟩
  | .PA_STATUS => ⟨.slice, 0x200008, [], 0x0, 0x6000000000000000, 0x0, 0xE00000000000FFFF, false, false, 0x0⟩
  | .PA_BANKCOPY => ⟨.slice, 0x200010, [], 0x0, 0x0, 0x8000000000000000, 0x4000000000000000, false, false, 0x0⟩
  | .PA_POLICY => ⟨.slice, 0x200018, [], 0xF03F3F00000000FF, 0x0, 0x0, 0xF03F3F00000000FF, true, false, 0xFE⟩
  | .PA_CNT => ⟨.slice, 0x200100, [(8, 0x8)], 0x0, 0x0, 0x0, 0xFFFFFFFFFFFF, false, false, 0x0⟩
  | .PA_PORTCFG => ⟨.slice, 0x201000, [(96, 0x8)], 0xFFFF0000000FFFFF, 0x0, 0x0, 0xFFFF0000000FFFFF, true, false, 0xFEFE000000000000⟩
  | .PA_TKMAP => ⟨.slice, 0x201800, [(16, 0x8)], 0xFFFFF7FF1F100000, 0x0, 0x0, 0xFFFFF7FF1F100000, true, false, 0x0⟩
  | .PA_STATE0 => ⟨.slice, 0x202000, [(254, 0x20)], 0xFFFFFFFFFFFFFFF0, 0x0, 0x0, 0xFFFFFFFFFFFFFFF0, true, false, 0xFF0⟩
  | .PA_STATE1 => ⟨.slice, 0x202008, [(254, 0x20)], 0xFFFFFFFFFFFFFE00, 0x0, 0x0, 0xFFFFFFFFFFFFFE00, true, false, 0x0⟩
  | .PA_STATE2 => ⟨.slice, 0x202010, [(254, 0x20)], 0xFFFFFFFFFF000000, 0x0, 0x0, 0xFFFFFFFFFF000000, true, false, 0x0⟩
  | .PA_STATE3 => ⟨.slice, 0x202018, [(254, 0x20)], 0xFFFF800000000000, 0x0, 0x0, 0xFFFF800000000000, true, false, 0x0⟩
  | .PA_TRANS0 => ⟨.slice, 0x204000, [(1024, 0x10)], 0xFFFFFFFFFFFFFFFF, 0x0, 0x0, 0xFFFFFFFFFFFFFFFF, true, false, 0x0⟩
  | .PA_TRANS1 => ⟨.slice, 0x204008, [(1024, 0x10)], 0x800000000000FFFF, 0x0, 0x0, 0x800000000000FFFF, true, false, 0x0⟩
  | .SE_KEYPROF => ⟨.slice, 0x340000, [(16, 0x800), (64, 0x20), (3, 0x8)], 0xFFFFFFFFFFFFFFF, 0x0, 0x0, 0xFFFFFFFFFFFFFFF, true, false, 0x0⟩
  | .SE_PCNT_INDEX => ⟨.slice, 0x350000, [], 0x1FFFF, 0x0, 0x0, 0x1FFFF, false, false, 0x0⟩
  | .SE_PCNT_CMD => ⟨.slice, 0x350008, [], 0x0, 0x0, 0x3, 0x8000000000000000, false, false, 0x0⟩
  | .SE_PCNT_PKTS => ⟨.slice, 0x350010, [], 0x0, 0x0, 0x0, 0xFFFFFFFFFFFF, false, false, 0x0⟩
  | .SE_PCNT_BYTES => ⟨.slice, 0x350018, [], 0x0, 0x0, 0x0, 0xFFFFFFFFFFFFFFFF, false, false, 0x0⟩
  | .SE_ISA_CNT => ⟨.slice, 0x350100, [(8, 0x8)], 0x0, 0x0, 0x0, 0xFFFFFFFFFFFF, false, false, 0x0⟩
  | .SE_CTRL => ⟨.slice, 0x300000, [], 0xFF0700FFFF0001, 0x0, 0x0, 0xFF0700FFFF0001, false, false, 0x10020003E80000⟩
  | .SE_STATUS => ⟨.slice, 0x300008, [], 0x0, 0x6000000000000000, 0x0, 0xE0FF800000FFFFFF, false, false, 0x0⟩
  | .SE_BANKCOPY => ⟨.slice, 0x300010, [], 0x0, 0x0, 0x8000000000000000, 0x4000000000000000, false, false, 0x0⟩
  | .SE_ENTRY => ⟨.slice, 0x300100, [(16, 0x8)], 0x7FF, 0x0, 0x0, 0x7FF, true, false, 0x0⟩
  | .SE_BUDGET => ⟨.slice, 0x300200, [(16, 0x8)], 0x0, 0x0, 0x8000000000000000, 0xFFFFFFFFFFFFFF, false, false, 0x0⟩
  | .SE_ABORT_CNT => ⟨.slice, 0x300300, [(8, 0x8)], 0x0, 0x0, 0x0, 0xFFFFFFFFFFFF, false, false, 0x0⟩
  | .SE_REFBASE => ⟨.slice, 0x300400, [], 0xFF0000FFFFFFFFFF, 0x0, 0x0, 0xFF0000FFFFFFFFFF, true, false, 0x0⟩
  | .NS_UW => ⟨.slice, 0x400000, [(16, 0x4000), (2048, 0x8)], 0xFFFFFFFFFFFFFFFF, 0x0, 0x0, 0xFFFFFFFFFFFFFFFF, true, false, 0x1000000⟩
  | .NS_NW => ⟨.slice, 0x500000, [(16, 0x10000), (1024, 0x40), (8, 0x8)], 0xFFFFFFFFFFFFFFFF, 0x0, 0x0, 0xFFFFFFFFFFFFFFFF, true, false, 0x0⟩
  | .CL_CTRL => ⟨.slice, 0x800000, [], 0xFFFF0001, 0x0, 0x0, 0xFFFF0001, false, false, 0x640000⟩
  | .CL_STATUS => ⟨.slice, 0x800008, [], 0x0, 0x6000000000000000, 0x0, 0xE0F0000000000000, false, false, 0x0⟩
  | .CL_INDEX => ⟨.slice, 0x800010, [], 0x7FFF7FFF, 0x0, 0x0, 0x7FFF7FFF, false, false, 0x0⟩
  | .CL_CMD => ⟨.slice, 0x800018, [], 0x0, 0x0, 0x307, 0x8000000000000000, false, false, 0x0⟩
  | .CL_SHADOW_BASE => ⟨.slice, 0x800020, [], 0xFFFFFFFFFF, 0x0, 0x0, 0xFFFFFFFFFF, false, false, 0x0⟩
  | .CL_VALUE => ⟨.slice, 0x800100, [(10, 0x8)], 0xFFFFFFFFFFFFFFFF, 0x0, 0x0, 0xFFFFFFFFFFFFFFFF, false, false, 0x0⟩
  | .CL_MASK => ⟨.slice, 0x800180, [(10, 0x8)], 0xFFFFFFFFFFFFFFFF, 0x0, 0x0, 0xFFFFFFFFFFFFFFFF, false, false, 0x0⟩
  | .CL_A0 => ⟨.slice, 0x800200, [], 0xEFFFFFFFFFFFFFFF, 0x0, 0x0, 0xFFFFFFFFFFFFFFFF, false, false, 0x0⟩
  | .CL_A1 => ⟨.slice, 0x800208, [], 0xFFFFFFFFFFFF0000, 0x0, 0x0, 0xFFFFFFFFFFFFFFFF, false, false, 0x0⟩
  | .CL_CNT => ⟨.slice, 0x800300, [(8, 0x8)], 0x0, 0x0, 0x0, 0xFFFFFFFFFFFF, false, false, 0x0⟩
  | .CL_LIST => ⟨.slice, 0x801000, [(64, 0x8)], 0x7F3F, 0x0, 0x0, 0x7F3F, true, false, 0x0⟩
  | .GC_CTRL => ⟨.slice, 0x1000000, [], 0xFFFF0001, 0x0, 0x0, 0xFFFF0001, false, false, 0x640000⟩
  | .GC_STATUS => ⟨.slice, 0x1000008, [], 0x0, 0x6000000000000000, 0x0, 0xE0F0000000000000, false, false, 0x0⟩
  | .GC_INDEX => ⟨.slice, 0x1000010, [], 0xFFFFFFFF, 0x0, 0x0, 0xFFFFFFFF, false, false, 0x0⟩
  | .GC_CMD => ⟨.slice, 0x1000018, [], 0x0, 0x0, 0x3377, 0x8000000000000000, false, false, 0x0⟩
  | .GC_A_WORD => ⟨.slice, 0x1000020, [], 0xFFFFFFFFFFFFFFFF, 0x0, 0x0, 0xFFFFFFFFFFFFFFFF, false, false, 0x0⟩
  | .GC_A_ATTR => ⟨.slice, 0x1000028, [], 0xFFFFFFFFFFFF0000, 0x0, 0x0, 0xFFFFFFFFFFFFFFFF, false, false, 0x0⟩
  | .GC_B_WORD => ⟨.slice, 0x1000030, [], 0xFFFFFFFFFFFFFFFF, 0x0, 0x0, 0xFFFFFFFFFFFFFFFF, false, false, 0x0⟩
  | .GC_B_ATTR => ⟨.slice, 0x1000038, [], 0xFFFFFFFFFFFF0000, 0x0, 0x0, 0xFFFFFFFFFFFFFFFF, false, false, 0x0⟩
  | .GC_SHADOW_BASE => ⟨.slice, 0x1000040, [], 0xFFFFFFFFFF, 0x0, 0x0, 0xFFFFFFFFFF, false, false, 0x0⟩
  | .GC_CNT => ⟨.slice, 0x1000100, [(8, 0x8)], 0x0, 0x0, 0x0, 0xFFFFFFFFFFFF, false, false, 0x0⟩
  | .GC_PROBE_MASK => ⟨.slice, 0x1001000, [(16, 0x8)], 0xFFFFFFFFFFFFFFFF, 0x0, 0x0, 0xFFFFFFFFFFFFFFFF, true, false, 0x0⟩
  | .GC_PROBE_CFG => ⟨.slice, 0x1001080, [(16, 0x8)], 0x3, 0x0, 0x0, 0x3, true, false, 0x0⟩
  | .FT_CTRL => ⟨.slice, 0x1200000, [], 0xFFFF0001, 0x0, 0x0, 0xFFFF0001, false, false, 0x3E80000⟩
  | .FT_STATUS => ⟨.slice, 0x1200008, [], 0x0, 0x6800000000000000, 0x0, 0xF8F0000000000000, false, false, 0x0⟩
  | .FT_SHADOW_BASE => ⟨.slice, 0x1200010, [], 0xFFFFFFFFFF, 0x0, 0x0, 0xFFFFFFFFFF, false, false, 0x0⟩
  | .FT_TARGET => ⟨.slice, 0x1200018, [], 0xF0000000003FFFFF, 0x0, 0x0, 0xF0000000003FFFFF, false, false, 0x0⟩
  | .FT_DATA_HI => ⟨.slice, 0x1200020, [], 0xFFFFFFFFFFFFFFFF, 0x0, 0x0, 0xFFFFFFFFFFFFFFFF, false, false, 0x0⟩
  | .FT_DATA_LO => ⟨.slice, 0x1200028, [], 0xFFFFFFFFFFFFFFFF, 0x0, 0x0, 0xFFFFFFFFFFFFFFFF, false, false, 0x0⟩
  | .FT_CMD => ⟨.slice, 0x1200030, [], 0x0, 0x0, 0xFF03, 0x8000000000000000, false, false, 0x0⟩
  | .FT_SYNC => ⟨.slice, 0x1200038, [], 0x7, 0x0, 0x8000000000000000, 0x4000000000000007, false, false, 0x0⟩
  | .FT_LP_FENCE => ⟨.slice, 0x1200040, [], 0x0, 0x0, 0x800000000000FF00, 0x4000000000000000, false, false, 0x0⟩
  | .FT_LP_BANKMAP => ⟨.slice, 0x1200100, [(64, 0x8)], 0xF, 0x0, 0x0, 0xF, false, true, 0x0⟩
  | .FT_LP_PROFILE => ⟨.slice, 0x1200300, [(2, 0x8)], 0xFFFFFFFFFFF, 0x0, 0x0, 0xFFFFFFFFFFF, true, true, 0x0⟩
  | .FT_HX_DESC => ⟨.slice, 0x1200400, [(8, 0x8)], 0x9F0000FFFFFFFFFF, 0x0, 0x0, 0x9F0000FFFFFFFFFF, true, true, 0xA00000000000000⟩
  | .FT_HX_TARGET => ⟨.slice, 0x1200500, [], 0x7FFFFFF, 0x0, 0x0, 0x7FFFFFF, false, false, 0x0⟩
  | .FT_HX_ENTRY => ⟨.slice, 0x1200508, [(4, 0x8)], 0xFFFFFFFFFFFFFFFF, 0x0, 0x0, 0xFFFFFFFFFFFFFFFF, false, false, 0x0⟩
  | .FT_HX_CMD => ⟨.slice, 0x1200528, [], 0x0, 0x0, 0x3, 0x8000000000000000, false, false, 0x0⟩
  | .FT_CNT => ⟨.slice, 0x1200600, [(16, 0x8)], 0x0, 0x0, 0x0, 0xFFFFFFFFFFFF, false, false, 0x0⟩
  | .FT_CH_CTRL => ⟨.slice, 0x1201000, [], 0xFFFFFFFFFFFFC300, 0x0, 0x0, 0xFFFFFFFFFFFFC300, false, true, 0x7D012C03E8C300⟩
  | .FT_CH_STATUS => ⟨.slice, 0x1201008, [], 0x0, 0xC000000000000000, 0x0, 0xC0F01FFF001FFFFF, false, true, 0x0⟩
  | .FT_CH_KEY => ⟨.slice, 0x1201010, [], 0xFFFFFFFFFFFFFFFF, 0x0, 0x0, 0xFFFFFFFFFFFFFFFF, false, true, 0x0⟩
  | .FT_CH_DATA => ⟨.slice, 0x1201018, [], 0xE0000000FFFFFFFF, 0x0, 0x0, 0xE0000000FFFFFFFF, false, true, 0x6000000000000000⟩
  | .FT_CH_CMD => ⟨.slice, 0x1201020, [], 0x0, 0x0, 0x3F00000000000007, 0x8000000000000000, false, true, 0x0⟩
  | .FT_CH_RESULT => ⟨.slice, 0x1201028, [], 0x0, 0x0, 0x0, 0x80000000000FFFFF, false, true, 0x0⟩
  | .FT_CH_WORD1 => ⟨.slice, 0x1201030, [], 0x0, 0x0, 0x0, 0xFFFFFFFFFFFFFFFF, false, true, 0x0⟩
  | .FT_CH_STAMP => ⟨.slice, 0x1201038, [], 0x0, 0x0, 0x0, 0xFFFFFFFF83FF0000, false, true, 0x0⟩
  | .FT_CH_SEED => ⟨.slice, 0x1201040, [(4, 0x8)], 0xFFFFFFFF, 0x0, 0x0, 0xFFFFFFFF, false, true, 0x0⟩
  | .FT_CH_RING => ⟨.slice, 0x1201060, [], 0xF00000FFFFFFFFFF, 0x0, 0x0, 0xF00000FFFFFFFFFF, false, true, 0xA000000000000000⟩
  | .FT_CH_RING_PROD => ⟨.slice, 0x1201068, [], 0x0, 0x0, 0x0, 0xFFFFFFFF, false, true, 0x0⟩
  | .FT_CH_RING_CONS => ⟨.slice, 0x1201070, [], 0xFFFFFFFF, 0x0, 0x0, 0xFFFFFFFF, false, true, 0x0⟩
  | .FT_CH_CNT => ⟨.slice, 0x1201100, [(16, 0x8)], 0x0, 0x0, 0x0, 0xFFFFFFFFFFFF, false, true, 0x0⟩
  | .ED_CTRL => ⟨.slice, 0x3200000, [], 0xFFFFFFFF00000001, 0x0, 0x0, 0xFFFFFFFF00000001, false, true, 0x3E803E800000001⟩
  | .ED_STATUS => ⟨.slice, 0x3200008, [], 0x0, 0x1000000000000000, 0x0, 0xF8F00000000003FF, false, true, 0x800000000000000⟩
  | .ED_CMD => ⟨.slice, 0x3200010, [], 0x0, 0x0, 0x7, 0x8000000000000000, false, true, 0x0⟩
  | .ED_MISSING => ⟨.slice, 0x3200018, [], 0x0, 0x0, 0x0, 0x8000070F07FF03FF, false, true, 0x0⟩
  | .ED_DRAIN => ⟨.slice, 0x3200020, [(2, 0x8)], 0x0, 0x0, 0x0, 0xFFFFFFFFFF, false, true, 0x0⟩
  | .ED_FLIPTIME => ⟨.slice, 0x3200030, [], 0x0, 0x0, 0x0, 0xFFFFFFFFFFFFFFFF, false, true, 0x0⟩
  | .ED_FLIPS => ⟨.slice, 0x3200038, [], 0x0, 0x0, 0x0, 0xFFFFFFFF, false, true, 0x0⟩
  | .ED_EVENT => ⟨.slice, 0x3200040, [], 0x0, 0x3F, 0x0, 0x3F, false, true, 0x0⟩
  | .ED_EVENT_EN => ⟨.slice, 0x3200048, [], 0x3F, 0x0, 0x0, 0x3F, false, true, 0x0⟩
  | .ED_CNT => ⟨.slice, 0x3200100, [(8, 0x8)], 0x0, 0x0, 0x0, 0xFFFFFFFFFFFF, false, true, 0x0⟩
  | .XB_CTRL => ⟨.dev, 0xA00000, [], 0xFFFFFFFFFF000000, 0x0, 0x0, 0xFFFFFFFFFF000000, false, true, 0x7D001F410000000⟩
  | .XB_STATUS => ⟨.dev, 0xA00008, [], 0x0, 0xFF0000000000000, 0x0, 0xFFF0000000000000, false, true, 0xF000000000000000⟩
  | .XB_RESTORE => ⟨.dev, 0xA00010, [], 0x0, 0x0, 0xF, 0x0, false, true, 0x0⟩
  | .XB_CNT => ⟨.dev, 0xA00100, [(16, 0x8)], 0x0, 0x0, 0x0, 0xFFFFFFFFFFFF, false, true, 0x0⟩
  | .XB_GROUP => ⟨.dev, 0xA10000, [(4096, 0x8)], 0xC0000000000000FF, 0x0, 0x0, 0xC0000000000000FF, false, true, 0x0⟩
  | .XB_MIRROR => ⟨.dev, 0xA20000, [(32, 0x8)], 0x83FFFFFFF0003FFF, 0x0, 0x0, 0x83FFFFFFF0003FFF, false, true, 0x0⟩
  | .BP_CARVE => ⟨.slice, 0x3300000, [], 0xFFFFFFFFFFFFFFFF, 0x0, 0x0, 0xFFFFFFFFFFFFFFFF, false, false, 0x8000200008000330⟩
  | .BP_STATUS => ⟨.slice, 0x3300008, [], 0x0, 0xE000000000000000, 0x0, 0xE00000000000FFFF, false, false, 0x0⟩
  | .BP_FREE => ⟨.slice, 0x3300010, [], 0x0, 0x0, 0x0, 0xFFFFFFFFFFFFFFFF, false, false, 0x8000200008000330⟩
  | .BP_FREEFAULT => ⟨.slice, 0x3300018, [], 0x0, 0x0, 0x0, 0xDFFFFFFFFFFFF000, false, false, 0x0⟩
  | .BP_ALLOW => ⟨.slice, 0x3300100, [(104, 0x8)], 0x3FFFF00000000, 0x0, 0x0, 0x3FFFF0003FFFF, false, false, 0x0⟩
  | .BP_CNT => ⟨.slice, 0x3301000, [(16, 0x8)], 0x0, 0x0, 0x0, 0xFFFFFFFFFFFF, false, false, 0x0⟩
  | .BP_GROUP => ⟨.slice, 0x3310000, [(4096, 0x10), (2, 0x8)], 0xFFFFFFFFFFFFFFFF, 0x0, 0x0, 0xFFFFFFFFFFFFFFFF, false, false, 0x0⟩
  | .TM_STATUS => ⟨.slice, 0x3400000, [], 0x0, 0x4000000000000000, 0x0, 0x40F0000000FFFFFF, false, false, 0x0⟩
  | .TM_PORTCFG => ⟨.slice, 0x3401000, [(96, 0x8)], 0xFF00FFFF00000000, 0x0, 0x0, 0xFF00FFFF00000000, false, false, 0x1400010000000000⟩
  | .TM_PORTSTAT => ⟨.slice, 0x3401800, [(96, 0x8)], 0x0, 0x0, 0x0, 0x8000000000000007, false, false, 0x8000000000000000⟩
  | .TM_GCLBASE => ⟨.slice, 0x3402000, [(96, 0x10)], 0xFFFFFFFFFFFFFFFF, 0x0, 0x0, 0xFFFFFFFFFFFFFFFF, false, false, 0x0⟩
  | .TM_GCLCMD => ⟨.slice, 0x3402008, [(96, 0x10)], 0x7FF00000000, 0x0, 0x8000000000000000, 0x600007FFFFFFFFFF, false, false, 0x1000003E8⟩
  | .TM_WRED => ⟨.slice, 0x3406000, [(16, 0x20), (3, 0x8)], 0x80FFFFFFFFFFFFFF, 0x0, 0x0, 0x80FFFFFFFFFFFFFF, false, false, 0x0⟩
  | .TM_WREDCTL => ⟨.slice, 0x3406018, [(16, 0x20)], 0x830F000000000000, 0x0, 0x0, 0x830F000000000000, false, false, 0x0⟩
  | .TM_RCQ => ⟨.slice, 0x3406200, [], 0xF00FFFFFF, 0x0, 0x0, 0xF00FFFFFF, false, false, 0x400⟩
  | .TM_CNT => ⟨.slice, 0x3406300, [(8, 0x8)], 0x0, 0x0, 0x0, 0xFFFFFFFFFFFF, false, false, 0x0⟩
  | .TM_POL_INDEX => ⟨.slice, 0x3406400, [], 0x1FFFF, 0x0, 0x0, 0x1FFFF, false, true, 0x0⟩
  | .TM_POL_CFG0 => ⟨.slice, 0x3406408, [], 0xF0000000FFFFFFFF, 0x0, 0x0, 0xF0000000FFFFFFFF, false, true, 0x0⟩
  | .TM_POL_CFG1 => ⟨.slice, 0x3406410, [], 0xFFFFFFFF, 0x0, 0x0, 0xFFFFFFFF, false, true, 0x0⟩
  | .TM_POL_CFG2 => ⟨.slice, 0x3406418, [], 0xFFFFFFFFFFFFFFFF, 0x0, 0x0, 0xFFFFFFFFFFFFFFFF, false, true, 0x0⟩
  | .TM_POL_CMD => ⟨.slice, 0x3406420, [], 0x0, 0x0, 0x3, 0x8000000000000000, false, true, 0x0⟩
  | .TM_POL_STATE0 => ⟨.slice, 0x3406428, [], 0x0, 0x0, 0x0, 0xFFFFFFFFFF, false, true, 0x0⟩
  | .TM_POL_STATE1 => ⟨.slice, 0x3406430, [], 0x0, 0x0, 0x0, 0xFFFFFFFFFF, false, true, 0x0⟩
  | .TM_POL_CNT => ⟨.slice, 0x3406480, [(8, 0x8)], 0x0, 0x0, 0x0, 0xFFFFFFFFFFFF, false, true, 0x0⟩
  | .TM_QCFG => ⟨.slice, 0x3410000, [(1536, 0x10)], 0xFFFF3F0F00FFFFFF, 0x0, 0x0, 0xFFFF3F0F00FFFFFF, false, false, 0x1000000000400⟩
  | .TM_QCFG2 => ⟨.slice, 0x3410008, [(1536, 0x10)], 0xFFFFFF00FFFFFFFF, 0x0, 0x0, 0xFFFFFF00FFFFFFFF, false, false, 0x2000000000000⟩
  | .TM_QSTAT => ⟨.slice, 0x3420000, [(1536, 0x10)], 0x0, 0x0, 0x0, 0xFFFFFFFFFFFFFFFF, false, false, 0x0⟩
  | .TM_QSTAT2 => ⟨.slice, 0x3420008, [(1536, 0x10)], 0x0, 0x0, 0x0, 0xFFFFFF00FFFFFFFF, false, false, 0x0⟩
  | .TM_QCNT => ⟨.slice, 0x3440000, [(1536, 0x40), (8, 0x8)], 0x0, 0x0, 0x0, 0xFFFFFFFFFFFF, false, false, 0x0⟩
  | .TM_GCL => ⟨.slice, 0x3600000, [(96, 0x4000), (2, 0x2000), (1024, 0x8)], 0xFFFFFFFFF0000000, 0x0, 0x0, 0xFFFFFFFFF000FFFF, false, false, 0xFFFF003E80000000⟩
  | .TM_CAL => ⟨.slice, 0x3780000, [(1536, 0xC0), (23, 0x8)], 0xFFFFFFFFFFFFFFFF, 0x0, 0x0, 0xFFFFFFFFFFFFFFFF, false, false, 0x0⟩
  | .LG_CTRL => ⟨.dev, 0x700000, [], 0xE000FFFFFF0FFFFF, 0x0, 0x0, 0xE000FFFFFF0FFFFF, false, true, 0x7D0140003E8⟩
  | .LG_STATUS => ⟨.dev, 0x700008, [], 0x0, 0xF00000000000000, 0x0, 0xFF00000000000000, false, true, 0x0⟩
  | .LG_SEQ => ⟨.dev, 0x700010, [], 0x0, 0x0, 0x0, 0xFFFFFFFFFFFFFFFF, false, true, 0x0⟩
  | .LG_LAST_MINUTE => ⟨.dev, 0x700018, [], 0x0, 0x0, 0x0, 0xFFFFFFFFFFFFFFFF, false, true, 0x0⟩
  | .LG_BOOK_BASE => ⟨.dev, 0x700020, [], 0xFFFFFFFFFF, 0x0, 0x0, 0xFFFFFFFFFF, false, true, 0x0⟩
  | .LG_RING => ⟨.dev, 0x700028, [], 0xF00000FFFFFFFFFF, 0x0, 0x0, 0xF00000FFFFFFFFFF, false, true, 0x2000000000000000⟩
  | .LG_RING_PROD => ⟨.dev, 0x700030, [], 0x0, 0x0, 0x0, 0xFFFFFFFF, false, true, 0x0⟩
  | .LG_RING_CONS => ⟨.dev, 0x700038, [], 0xFFFFFFFF, 0x0, 0x0, 0xFFFFFFFF, false, true, 0x0⟩
  | .LG_HELD => ⟨.dev, 0x700040, [], 0x0, 0x0, 0x0, 0xFFFFFFFFFFFF, false, true, 0x0⟩
  | .LG_LAST_SEAL => ⟨.dev, 0x700048, [(2, 0x8)], 0x0, 0x0, 0x0, 0xFFFFFFFFFFFFFFFF, false, true, 0x0⟩
  | .LG_EVENT => ⟨.dev, 0x700060, [], 0x0, 0xFF, 0x0, 0xFF, false, true, 0x0⟩
  | .LG_EVENT_EN => ⟨.dev, 0x700068, [], 0xFF, 0x0, 0x0, 0xFF, false, true, 0x0⟩
  | .LG_LGPORT => ⟨.dev, 0x700100, [(4, 0x10)], 0xC3FF7FFFFFFFFFFF, 0x0, 0x0, 0xC3FF7FFFFFFFFFFF, false, true, 0x0⟩
  | .LG_CNT => ⟨.dev, 0x700200, [(8, 0x8)], 0x0, 0x0, 0x0, 0xFFFFFFFFFFFF, false, true, 0x0⟩
  | .CX_CTRL => ⟨.dev, 0x600000, [], 0xFFFF0001, 0x0, 0x0, 0xFFFF0001, false, true, 0x640000⟩
  | .CX_STATUS => ⟨.dev, 0x600008, [], 0x0, 0x5000000000000000, 0x0, 0xF0F0000000003FFF, false, true, 0x2000000000000000⟩
  | .CX_ALARM_EN => ⟨.dev, 0x600010, [], 0xFF, 0x0, 0x0, 0xFF, false, true, 0x3F⟩
  | .CX_ALARM => ⟨.dev, 0x600018, [], 0x0, 0xFF, 0x0, 0xFF, false, true, 0x0⟩
  | .CX_ZEROIZE => ⟨.dev, 0x600020, [], 0x0, 0x0, 0x1, 0x0, false, true, 0x0⟩
  | .CX_ERASE => ⟨.dev, 0x600028, [], 0x0, 0x0, 0x7000000000001FFF, 0x8000000000000000, false, true, 0x0⟩
  | .CX_IMPORT_CMD => ⟨.dev, 0x600030, [], 0x0, 0x0, 0xBE0F1FFF00000000, 0x4000000000000000, false, true, 0x0⟩
  | .CX_IMPORT_STATUS => ⟨.dev, 0x600038, [], 0x0, 0x0, 0x0, 0xF000FFFF00000000, false, true, 0x0⟩
  | .CX_IMPORT_PN => ⟨.dev, 0x600040, [], 0xFFFFFFFFFFFFFFFF, 0x0, 0x0, 0xFFFFFFFFFFFFFFFF, false, true, 0x0⟩
  | .CX_IMPORT_BUF => ⟨.dev, 0x600048, [(17, 0x8)], 0x0, 0x0, 0xFFFFFFFFFFFFFFFF, 0x0, false, true, 0x0⟩
  | .CX_DEVPUB => ⟨.dev, 0x600100, [(12, 0x8)], 0x0, 0x0, 0x0, 0xFFFFFFFFFFFFFFFF, false, true, 0x0⟩
  | .CX_PNWARN => ⟨.dev, 0x600200, [(2, 0x8)], 0xFFFFFFFFFFFFFFFF, 0x0, 0x0, 0xFFFFFFFFFFFFFFFF, false, true, 0x0⟩
  | .CX_PNSTOP => ⟨.dev, 0x600210, [(2, 0x8)], 0xFFFFFFFFFFFFFFFF, 0x0, 0x0, 0xFFFFFFFFFFFFFFFF, false, true, 0x0⟩
  | .CX_CNT => ⟨.dev, 0x600300, [(16, 0x8)], 0x0, 0x0, 0x0, 0xFFFFFFFFFFFF, false, true, 0x0⟩
  | .CX_EVENT => ⟨.dev, 0x600400, [], 0x0, 0xF, 0x0, 0xF, false, true, 0x0⟩
  | .CX_EVENT_EN => ⟨.dev, 0x600408, [], 0xF, 0x0, 0x0, 0xF, false, true, 0x0⟩
  | .CX_PNWARN_VEC => ⟨.dev, 0x601000, [(128, 0x8)], 0x0, 0xFFFFFFFFFFFFFFFF, 0x0, 0xFFFFFFFFFFFFFFFF, false, true, 0x0⟩
  | .CX_SEALSLOT => ⟨.dev, 0x602000, [(16, 0x8)], 0x0, 0x0, 0x0, 0xE00000000000FFFF, false, true, 0x0⟩
  | .CX_KEKSLOT => ⟨.dev, 0x602080, [(16, 0x8)], 0x0, 0x0, 0x0, 0xC00000000000FFFF, false, true, 0x0⟩
  | .CX_SECY => ⟨.dev, 0x604000, [(768, 0x40)], 0xFE300000FFFFFFFF, 0x0, 0x0, 0xFE300000FFFFFFFF, false, true, 0x3200000000000000⟩
  | .CX_TXSCI => ⟨.dev, 0x604008, [(768, 0x40)], 0xFFFFFFFFFFFFFFFF, 0x0, 0x0, 0xFFFFFFFFFFFFFFFF, false, true, 0x0⟩
  | .CX_RXSCI => ⟨.dev, 0x604010, [(768, 0x40)], 0xFFFFFFFFFFFFFFFF, 0x0, 0x0, 0xFFFFFFFFFFFFFFFF, false, true, 0x0⟩
  | .CX_TXMAP => ⟨.dev, 0x604018, [(768, 0x40)], 0xFFFFFFFFFFFFFFFF, 0x0, 0x0, 0xFFFFFFFFFFFFFFFF, false, true, 0x0⟩
  | .CX_RXMAP => ⟨.dev, 0x604020, [(768, 0x40)], 0xFFFFFFFFFFFFFFFF, 0x0, 0x0, 0xFFFFFFFFFFFFFFFF, false, true, 0x0⟩
  | .CX_SA => ⟨.dev, 0x610000, [(8192, 0x20)], 0x0, 0x0, 0x0, 0xFE0003FF0000FFFF, false, true, 0x0⟩
  | .CX_PN => ⟨.dev, 0x610008, [(8192, 0x20)], 0xFFFFFFFFFFFFFFFF, 0x0, 0x0, 0xFFFFFFFFFFFFFFFF, false, true, 0x0⟩
  | .CX_SALT_HI => ⟨.dev, 0x610010, [(8192, 0x20)], 0xFFFFFFFFFFFFFFFF, 0x0, 0x0, 0xFFFFFFFFFFFFFFFF, false, true, 0x0⟩
  | .CX_SALT_LO => ⟨.dev, 0x610018, [(8192, 0x20)], 0xFFFFFFFFFFFFFFFF, 0x0, 0x0, 0xFFFFFFFFFFFFFFFF, false, true, 0x0⟩
  | .CK_STATUS => ⟨.dev, 0x500000, [], 0x0, 0x0, 0x0, 0xFFFFFFFF, false, true, 0x0⟩
  | .CK_UCTRL => ⟨.dev, 0x500100, [(16, 0x40)], 0x3E000000000000, 0x0, 0xC000000000000000, 0xF3E000000000000, false, true, 0xF00000000000000⟩
  | .CK_UINIT => ⟨.dev, 0x500108, [(16, 0x40)], 0xFFFFFFFFFFFFFFFF, 0x0, 0x0, 0xFFFFFFFFFFFFFFFF, false, true, 0x0⟩
  | .CK_UFOLD => ⟨.dev, 0x500110, [(16, 0x40)], 0xFFFFFFFFFFFFFFFF, 0x0, 0x0, 0xFFFFFFFFFFFFFFFF, false, true, 0x0⟩
  | .CK_UTAIL => ⟨.dev, 0x500118, [(16, 0x40)], 0xFFFFFFFFFFFFFFFF, 0x0, 0x0, 0xFFFFFFFFFFFFFFFF, false, true, 0x0⟩
  | .CK_UCMD => ⟨.dev, 0x500120, [(16, 0x40)], 0x0, 0x0, 0xFF0707, 0x0, false, true, 0x0⟩
  | .CK_UEXPECT => ⟨.dev, 0x500128, [(16, 0x40)], 0xFFFFFFFFFFFFFFFF, 0x0, 0x0, 0xFFFFFFFFFFFFFFFF, false, true, 0x0⟩
  | .CK_URESULT => ⟨.dev, 0x500130, [(16, 0x40)], 0x0, 0x0, 0x0, 0xFFFFFFFFFFFFFFFF, false, true, 0x0⟩
  | .CK_USTATUS => ⟨.dev, 0x500138, [(16, 0x40)], 0x0, 0xF800000000000000, 0x0, 0xF800FFFFFFFFFFFF, false, true, 0x0⟩
  | .CK_CNT => ⟨.dev, 0x500800, [(4, 0x8)], 0x0, 0x0, 0x0, 0xFFFFFFFFFFFF, false, true, 0x0⟩
  | .CK_UWIN => ⟨.dev, 0x510000, [(16, 0x1000)], 0x0, 0x0, 0xFFFFFFFFFFFFFFFF, 0x0, false, true, 0x0⟩
  | .HM_CTRL => ⟨.dev, 0xD00000, [], 0xFF0FFFFF0000, 0x0, 0x0, 0xFF0FFFFF0000, false, true, 0x180800140000⟩
  | .HM_STATUS => ⟨.dev, 0xD00008, [], 0x0, 0x0, 0x0, 0xFF00000000000000, false, true, 0x0⟩
  | .HM_EVENT => ⟨.dev, 0xD00010, [], 0x0, 0x3F, 0x0, 0x3F, false, true, 0x0⟩
  | .HM_EVENT_EN => ⟨.dev, 0xD00018, [], 0x3F, 0x0, 0x0, 0x3F, false, true, 0x0⟩
  | .HM_WEIGHT => ⟨.dev, 0xD00020, [], 0xFFFFFFFFFF, 0x0, 0x0, 0xFFFFFFFFFF, false, true, 0x402080810⟩
  | .HM_ERRLOG => ⟨.dev, 0xD00028, [], 0x0, 0x0, 0x4000000000000000, 0xB70000FFFFFFFFFF, false, true, 0x0⟩
  | .HM_CNT => ⟨.dev, 0xD00100, [(8, 0x8)], 0x0, 0x0, 0x0, 0xFFFFFFFFFFFF, false, true, 0x0⟩
  | .HM_DB => ⟨.dev, 0xD00200, [(8, 0x10)], 0x9FFFFFFFFFFFFFFF, 0x0, 0x0, 0x9FFFFFFFFFFFFFFF, false, true, 0x0⟩
  | .HM_DB_STAT => ⟨.dev, 0xD00208, [(8, 0x10)], 0x0, 0x4000000000000000, 0x0, 0xDFFFFF1FFFFFFFFF, false, true, 0x0⟩
  | .HM_STACKCMD => ⟨.dev, 0xD01000, [(4, 0x100)], 0x30000000000000, 0x0, 0xB300000000000000, 0x4037000000000000, false, true, 0x0⟩
  | .HM_STACKSTAT => ⟨.dev, 0xD01008, [(4, 0x100)], 0x0, 0x0, 0x0, 0xE0FFFF00FFFFFFFF, false, true, 0x0⟩
  | .HM_SHARE => ⟨.dev, 0xD01010, [(4, 0x100)], 0xFFFFFFFF0000FF00, 0x0, 0x0, 0xFFFFFFFF0000FF00, false, true, 0x28001E00002000⟩
  | .HM_SCNT => ⟨.dev, 0xD01080, [(4, 0x100), (16, 0x8)], 0x0, 0x0, 0x0, 0xFFFFFFFFFFFF, false, true, 0x0⟩
  | .MC_CTRL => ⟨.dev, 0xC00000, [], 0xC000000000000000, 0x0, 0x0, 0xC000000000000000, false, true, 0x4000000000000000⟩
  | .MC_STATUS => ⟨.dev, 0xC00008, [], 0x0, 0x8800000000000000, 0x0, 0xF80000000000FFFF, false, true, 0x0⟩
  | .MC_BOOT => ⟨.dev, 0xC00010, [], 0x0, 0x0, 0x0, 0xCFFF303FFFFFFFFF, false, true, 0x0⟩
  | .MC_FUSE => ⟨.dev, 0xC00018, [], 0x0, 0x0, 0x0, 0xFF0000000000003F, false, true, 0x0⟩
  | .MC_FUSECMD => ⟨.dev, 0xC00020, [], 0x0, 0x2000000000000000, 0x830000000000003F, 0x6000000000000000, false, true, 0x0⟩
  | .MC_CMD => ⟨.dev, 0xC00100, [(8, 0x80)], 0x0, 0x0, 0x3, 0x8000000000000000, false, true, 0x0⟩
  | .MC_ENTRY => ⟨.dev, 0xC00108, [(8, 0x80)], 0x7FF, 0x0, 0x0, 0x7FF, false, true, 0x0⟩
  | .MC_PRIV => ⟨.dev, 0xC00110, [(8, 0x80)], 0xE000000000000000, 0x0, 0x0, 0xE000000000000000, false, true, 0x0⟩
  | .MC_HBMWIN => ⟨.dev, 0xC00118, [(8, 0x80)], 0x3FFF00003FFF, 0x0, 0x0, 0x3FFF00003FFF, false, true, 0x0⟩
  | .MC_EXC => ⟨.dev, 0xC00120, [(8, 0x80)], 0x0, 0x8000000000000000, 0x0, 0xFFFF00FFFFFFFFFF, false, true, 0x0⟩
  | .MC_WAKE => ⟨.dev, 0xC00128, [(8, 0x80)], 0x700, 0x4, 0x0, 0x707, false, true, 0x0⟩
  | .MC_KICK => ⟨.dev, 0xC00130, [(8, 0x80)], 0x0, 0x0, 0x1, 0x0, false, true, 0x0⟩
  | .MC_WDOG => ⟨.dev, 0xC00138, [(8, 0x80)], 0xFFFFFFFF, 0x4000000000000000, 0x8000000000000000, 0x40000000FFFFFFFF, false, true, 0x0⟩
  | .MC_RXRING => ⟨.dev, 0xC00140, [(8, 0x80)], 0xF3FFFFFFFFFFFFFF, 0x0, 0x0, 0xF3FFFFFFFFFFFFFF, false, true, 0x2000000000000000⟩
  | .MC_RXPROD => ⟨.dev, 0xC00148, [(8, 0x80)], 0x0, 0x0, 0x0, 0xFFFFFFFF, false, true, 0x0⟩
  | .MC_RXCONS => ⟨.dev, 0xC00150, [(8, 0x80)], 0xFFFFFFFF, 0x0, 0x0, 0xFFFFFFFF, false, true, 0x0⟩
  | .MC_TXRING => ⟨.dev, 0xC00158, [(8, 0x80)], 0xF00000FFFFFFFFFF, 0x0, 0x0, 0xF00000FFFFFFFFFF, false, true, 0x2000000000000000⟩
  | .MC_TXPROD => ⟨.dev, 0xC00160, [(8, 0x80)], 0xFFFFFFFF, 0x0, 0x0, 0xFFFFFFFF, false, true, 0x0⟩
  | .MC_TXCONS => ⟨.dev, 0xC00168, [(8, 0x80)], 0x0, 0x0, 0x0, 0xFFFFFFFF, false, true, 0x0⟩
  | .MC_TXSTAT => ⟨.dev, 0xC00170, [(8, 0x80)], 0x0, 0x8000000000000000, 0x0, 0x80000000FFFFFFFF, false, true, 0x0⟩
  | .MC_CNT => ⟨.dev, 0xC00800, [(8, 0x8)], 0x0, 0x0, 0x0, 0xFFFFFFFFFFFF, false, true, 0x0⟩
  | .MC_CLASS => ⟨.dev, 0xC02000, [(64, 0x10)], 0xFF003FFFFFFFFFFF, 0x0, 0x0, 0xFF003FFFFFFFFFFF, false, true, 0x0⟩
  | .MC_CLASSB => ⟨.dev, 0xC02008, [(64, 0x10)], 0xFFFF, 0x0, 0x0, 0xFFFF, false, true, 0x1⟩
  | .MC_CLASSCNT => ⟨.dev, 0xC03000, [(64, 0x20), (4, 0x8)], 0x0, 0x0, 0x0, 0xFFFFFFFFFFFF, false, true, 0x0⟩
  | .MC_UW => ⟨.dev, 0xC10000, [(8, 0x4000), (2048, 0x8)], 0xFFFFFFFFFFFFFFFF, 0x0, 0x0, 0xFFFFFFFFFFFFFFFF, false, true, 0x1000000⟩
  | .MC_NW => ⟨.dev, 0xC80000, [(8, 0x10000), (1024, 0x40), (8, 0x8)], 0xFFFFFFFFFFFFFFFF, 0x0, 0x0, 0xFFFFFFFFFFFFFFFF, false, true, 0x0⟩
  | .TW_HCTRL => ⟨.bar0, 0x0, [], 0x0, 0x0, 0x8000000000000000, 0x0, false, true, 0x0⟩
  | .TW_HSTATUS => ⟨.bar0, 0x8, [], 0x0, 0xE00000000000000, 0x0, 0xFE00FFFFFFFFFFFF, false, true, 0x0⟩
  | .TW_RXPOP => ⟨.bar0, 0x10, [], 0x0, 0x0, 0x3FFF, 0x0, false, true, 0x0⟩
  | .TW_TXFREE => ⟨.bar0, 0x18, [], 0x0, 0x0, 0x0, 0x3FFF, false, true, 0x2000⟩
  | .TW_RXLEVEL => ⟨.bar0, 0x20, [], 0x0, 0x0, 0x0, 0xFFFF3FFF, false, true, 0x0⟩
  | .TW_RSEQ => ⟨.bar0, 0x28, [], 0x0, 0x0, 0x0, 0xFFFFFFFF, false, true, 0x0⟩
  | .TW_HCNT => ⟨.bar0, 0x100, [(8, 0x8)], 0x0, 0x0, 0x0, 0xFFFFFFFFFFFF, false, true, 0x0⟩
  | .TW_TXWIN => ⟨.bar0, 0x10000, [], 0x0, 0x0, 0xFFFFFFFFFFFFFFFF, 0x0, false, true, 0x0⟩
  | .TW_RXAPT => ⟨.bar0, 0x20000, [(512, 0x8)], 0x0, 0x0, 0x0, 0xFFFFFFFFFFFFFFFF, false, true, 0x0⟩
  | .TW_CTRL => ⟨.dev, 0xB00000, [], 0xFFFFFFFF00000007, 0x0, 0x0, 0xFFFFFFFF00000007, false, true, 0x3E803E800000000⟩
  | .TW_HOSTPRIV => ⟨.dev, 0xB00008, [], 0x8000000000000000, 0x0, 0x0, 0x8000000000000000, false, true, 0x0⟩
  | .TW_HBMWIN => ⟨.dev, 0xB00010, [], 0x3FFF00003FFF, 0x0, 0x0, 0x3FFF00003FFF, false, true, 0x0⟩
  | .TW_IMGBASE => ⟨.dev, 0xB00018, [], 0xFFFFFFFFFF, 0x0, 0x0, 0xFFFFFFFFFF, false, true, 0x0⟩
  | .TW_STATUS => ⟨.dev, 0xB00020, [], 0x0, 0x0, 0x0, 0xFFFFFFFFFFFFFFFF, false, true, 0x0⟩
  | .TW_EVENT => ⟨.dev, 0xB00028, [], 0x0, 0xF, 0x0, 0xF, false, true, 0x0⟩
  | .TW_EVENT_EN => ⟨.dev, 0xB00030, [], 0xF, 0x0, 0x0, 0xF, false, true, 0x0⟩
  | .TW_REQRING => ⟨.dev, 0xB00100, [(8, 0x20)], 0xF00000FFFFFFFFFF, 0x0, 0x0, 0xF00000FFFFFFFFFF, false, true, 0x2000000000000000⟩
  | .TW_REQPROD => ⟨.dev, 0xB00108, [(8, 0x20)], 0x0, 0x0, 0x0, 0xFFFFFFFF, false, true, 0x0⟩
  | .TW_REQCONS => ⟨.dev, 0xB00110, [(8, 0x20)], 0xFFFFFFFF, 0x0, 0x0, 0xFFFFFFFF, false, true, 0x0⟩
  | .TW_CRCMD => ⟨.dev, 0xB00200, [(8, 0x8)], 0x0, 0x0, 0x80FF000000000FFF, 0x4000000000000000, false, true, 0x0⟩
  | .TW_CRCPT => ⟨.dev, 0xB10000, [(8, 0x8000), (4094, 0x8)], 0x0, 0x0, 0xFFFFFFFFFFFFFFFF, 0x0, false, true, 0x0⟩
  | .EV_CTRL => ⟨.dev, 0x300000, [], 0xFFFF00000000, 0x0, 0x0, 0xFFFF00000000, false, true, 0x6400000000⟩
  | .EV_HOSTCFG => ⟨.dev, 0x300008, [], 0x1, 0x0, 0x0, 0x1, false, true, 0x0⟩
  | .EV_CLAIM => ⟨.dev, 0x300100, [], 0x0, 0x0, 0x0, 0x80000000000F1FFF, false, true, 0x0⟩
  | .EV_DONE => ⟨.dev, 0x300108, [], 0x0, 0x0, 0x1FFF, 0x0, false, true, 0x0⟩
  | .EV_SOFT_SET => ⟨.dev, 0x300110, [(16, 0x8)], 0x0, 0x0, 0xFFFFFFFFFFFFFFFF, 0x0, false, true, 0x0⟩
  | .EV_SOFT => ⟨.dev, 0x303000, [(16, 0x8)], 0x0, 0xFFFFFFFFFFFFFFFF, 0x0, 0xFFFFFFFFFFFFFFFF, false, true, 0x0⟩
  | .EV_CFG => ⟨.dev, 0x300200, [(8, 0x40)], 0x800000000000000F, 0x0, 0x0, 0x800000000000000F, false, true, 0x0⟩
  | .EV_STACK => ⟨.dev, 0x300208, [(8, 0x40)], 0x0, 0x0, 0x0, 0xFF00000000001FFF, false, true, 0x0⟩
  | .EV_CUR => ⟨.dev, 0x300210, [(8, 0x40)], 0x0, 0x0, 0x0, 0x1FFF, false, true, 0x0⟩
  | .EV_CSTAT => ⟨.dev, 0x300218, [(8, 0x40)], 0x0, 0xC000000000000000, 0x0, 0xC000000000000000, false, true, 0x0⟩
  | .EV_PSOFT_SET => ⟨.dev, 0x300220, [(8, 0x40)], 0x0, 0x0, 0xFFFFFFFFFFFF0000, 0x0, false, true, 0x0⟩
  | .EV_PSOFT => ⟨.dev, 0x300228, [(8, 0x40)], 0x0, 0xFFFFFFFFFFFF0000, 0x0, 0xFFFFFFFFFFFF0000, false, true, 0x0⟩
  | .EV_TIMER => ⟨.dev, 0x300230, [(8, 0x40)], 0xFFFFFFFF, 0x0, 0x0, 0xFFFFFFFF, false, true, 0x0⟩
  | .EV_HANDLER => ⟨.dev, 0x300400, [(8, 0x80), (16, 0x8)], 0x7FF, 0x0, 0x0, 0x7FF, false, true, 0x0⟩
  | .EV_PRIV => ⟨.dev, 0x301000, [(8, 0x200), (64, 0x8)], 0xF, 0x0, 0x0, 0xF, false, true, 0x0⟩
  | .EV_CNT => ⟨.dev, 0x302000, [(9, 0x20), (4, 0x8)], 0x0, 0x0, 0x0, 0xFFFFFFFFFFFF, false, true, 0x0⟩
  | .EV_SRC => ⟨.dev, 0x310000, [(2048, 0x8)], 0x3F0F0F, 0x0, 0x0, 0xF0000000003F0F0F, false, true, 0x800⟩
  | .EV_STRANDED => ⟨.dev, 0x320000, [(32, 0x8)], 0x0, 0x0, 0x0, 0xFFFFFFFFFFFFFFFF, false, true, 0x0⟩
  | .EV_HPEND => ⟨.dev, 0x320100, [(32, 0x8)], 0x0, 0x0, 0x0, 0xFFFFFFFFFFFFFFFF, false, true, 0x0⟩
  | .PM_CTRL => ⟨.slice, 0x3C00000, [], 0x8000000000000001, 0x0, 0x4000000000000000, 0x8000000000000001, false, false, 0x0⟩
  | .PM_STATUS => ⟨.slice, 0x3C00008, [], 0x0, 0xFF, 0x0, 0xFFFF000000FF, false, false, 0x0⟩
  | .PM_CYCLES => ⟨.slice, 0x3C00010, [], 0x0, 0x0, 0x0, 0xFFFFFFFFFFFFFFFF, false, false, 0x0⟩
  | .PM_SEL => ⟨.slice, 0x3C00100, [(8, 0x8)], 0xF1FFFFFF0000FFFF, 0x0, 0x0, 0xF1FFFFFF0000FFFF, false, false, 0x1FF000000000000⟩
  | .PM_CTR => ⟨.slice, 0x3C00200, [(8, 0x8)], 0xFFFFFFFFFFFF, 0x0, 0x0, 0xFFFFFFFFFFFF, false, false, 0x0⟩
  | .PM_SAMPLE => ⟨.slice, 0x3C00300, [], 0x0, 0x8000000000000000, 0x0, 0xFF83FF000000FFFF, false, false, 0x0⟩
  | .PM_SAMPLE_TIME => ⟨.slice, 0x3C00308, [], 0x0, 0x0, 0x0, 0xFFFFFFFFFFFFFFFF, false, false, 0x0⟩
  | .MC_PMCTRL => ⟨.dev, 0xC40000, [(8, 0x400)], 0x8000000000000001, 0x0, 0x4000000000000000, 0x8000000000000001, false, true, 0x0⟩
  | .MC_PMSTATUS => ⟨.dev, 0xC40008, [(8, 0x400)], 0x0, 0xFF, 0x0, 0xFFFF000000FF, false, true, 0x0⟩
  | .MC_PMCYCLES => ⟨.dev, 0xC40010, [(8, 0x400)], 0x0, 0x0, 0x0, 0xFFFFFFFFFFFFFFFF, false, true, 0x0⟩
  | .MC_PMSEL => ⟨.dev, 0xC40100, [(8, 0x400), (8, 0x8)], 0xE0000000000000FF, 0x0, 0x0, 0xE0000000000000FF, false, true, 0x0⟩
  | .MC_PMCTR => ⟨.dev, 0xC40200, [(8, 0x400), (8, 0x8)], 0xFFFFFFFFFFFF, 0x0, 0x0, 0xFFFFFFFFFFFF, false, true, 0x0⟩
  | .MC_PMSAMPLE => ⟨.dev, 0xC40300, [(8, 0x400)], 0x0, 0x8000000000000000, 0x0, 0xFF000000000007FF, false, true, 0x0⟩
  | .SF_CTRL => ⟨.dev, 0x800000, [], 0xFFFFFFFF3F3F0000, 0x0, 0x0, 0xFFFFFFFF3F3F0000, false, true, 0x64012C08000000⟩
  | .SF_MEMBER => ⟨.dev, 0x800008, [], 0x8000000000000FFF, 0x0, 0x0, 0x8000000000000FFF, false, true, 0x0⟩
  | .SF_STATUS => ⟨.dev, 0x800010, [], 0x0, 0xC000000000000000, 0x0, 0xC0000000000003FF, false, true, 0x0⟩
  | .SF_BASEMAC => ⟨.dev, 0x800018, [], 0xFFFFFFFFFFFF, 0x0, 0x0, 0xFFFFFFFFFFFF, false, true, 0x0⟩
  | .SF_HELLO_DA => ⟨.dev, 0x800020, [], 0xFFFFFFFFFFFF, 0x0, 0x0, 0xFFFFFFFFFFFF, false, true, 0x300000088B5⟩
  | .SF_EVENT => ⟨.dev, 0x800028, [], 0x0, 0xF, 0x0, 0xF, false, true, 0x0⟩
  | .SF_EVENT_EN => ⟨.dev, 0x800030, [], 0xF, 0x0, 0x0, 0xF, false, true, 0x0⟩
  | .SF_LINKLIVE => ⟨.dev, 0x800100, [(12, 0x8)], 0x0, 0x0, 0x0, 0xFFFFFFFFFFFFFFFF, false, true, 0x0⟩
  | .SF_LINKCHG => ⟨.dev, 0x800180, [(12, 0x8)], 0x0, 0xFFFFFFFFFFFFFFFF, 0x0, 0xFFFFFFFFFFFFFFFF, false, true, 0x0⟩
  | .SF_REACH_INDEX => ⟨.dev, 0x800200, [], 0xFFF, 0x0, 0x0, 0xFFF, false, true, 0x0⟩
  | .SF_REACH_CMD => ⟨.dev, 0x800208, [], 0x0, 0x0, 0x3, 0x8000000000000000, false, true, 0x0⟩
  | .SF_REACH_W => ⟨.dev, 0x800210, [(4, 0x8)], 0xFFFFFFFFFFFFFFFF, 0x0, 0x0, 0xFFFFFFFFFFFFFFFF, false, true, 0x0⟩
  | .SF_MIRDEST => ⟨.dev, 0x800300, [(32, 0x8)], 0x8000000000000FFF, 0x0, 0x0, 0x8000000000000FFF, false, true, 0x0⟩
  | .SF_CNT => ⟨.dev, 0x800400, [(16, 0x8)], 0x0, 0x0, 0x0, 0xFFFFFFFFFFFF, false, true, 0x0⟩
  | .SF_LINK => ⟨.dev, 0x810000, [(768, 0x10)], 0x0, 0x0, 0x0, 0xF3FF0FFFFFFFFFFF, false, true, 0x0⟩
  | .SF_NBRID => ⟨.dev, 0x810008, [(768, 0x10)], 0x0, 0x0, 0x0, 0xFFFFFFFFFFFFFFFF, false, true, 0x0⟩
  | .TP_CTRL => ⟨.dev, 0x900000, [], 0xEFFFFFFF3F00FFFF, 0x0, 0x0, 0xEFFFFFFF3F00FFFF, false, true, 0x6400000000⟩
  | .TP_STATUS => ⟨.dev, 0x900008, [], 0x0, 0x6000000000000000, 0x0, 0xE00000000000000F, false, true, 0x0⟩
  | .TP_EVENT => ⟨.dev, 0x900010, [], 0x0, 0xF, 0x0, 0xF, false, true, 0x0⟩
  | .TP_EVENT_EN => ⟨.dev, 0x900018, [], 0xF, 0x0, 0x0, 0xF, false, true, 0x0⟩
  | .TP_HOSTWORD => ⟨.dev, 0x900020, [], 0xFFFFFFFFFFFFFFFF, 0x0, 0x0, 0xFFFFFFFFFFFFFFFF, false, true, 0x0⟩
  | .TP_PEERWORD => ⟨.dev, 0x900028, [], 0x0, 0x0, 0x0, 0xFFFFFFFFFFFFFFFF, false, true, 0x0⟩
  | .TP_PEERSTAT => ⟨.dev, 0x900030, [], 0x0, 0x0, 0x0, 0x7FFFFFFFF, false, true, 0x0⟩
  | .TP_TXSEQ => ⟨.dev, 0x900038, [], 0x0, 0x0, 0x0, 0xFFFFFFFF, false, true, 0x0⟩
  | .TP_PAIR => ⟨.dev, 0x900100, [(8, 0x8)], 0x80000000000003FF, 0x0, 0x0, 0x80000000000003FF, false, true, 0x0⟩
  | .TP_CNT => ⟨.dev, 0x900200, [(8, 0x8)], 0x0, 0x0, 0x0, 0xFFFFFFFFFFFF, false, true, 0x0⟩
  | .TP_PORTMAP => ⟨.dev, 0x901000, [(384, 0x8)], 0xFFFFFFFFFFFFFFFF, 0x0, 0x0, 0xFFFFFFFFFFFFFFFF, false, true, 0x0⟩
  | .GL_ID => ⟨.dev, 0x0, [], 0x0, 0x0, 0x0, 0xFFFFFFFF00000000, false, true, 0x961600B000000000⟩
  | .GL_DEVICE_ID => ⟨.dev, 0x8, [], 0x0, 0x0, 0x0, 0xFFFFFFFFFFFFFFFF, false, true, 0x0⟩
  | .GL_RESET_CAUSE => ⟨.dev, 0x10, [], 0x0, 0x0, 0x0, 0xFF0F, false, true, 0x0⟩
  | .GL_RESET => ⟨.dev, 0x18, [], 0x0, 0x0, 0xC000000000000000, 0x0, false, true, 0x0⟩
  | .GL_STRAPS => ⟨.dev, 0x20, [], 0x0, 0x0, 0x0, 0x3, false, true, 0x0⟩
  | .PW_CTRL => ⟨.dev, 0x100000, [], 0xFFFF000000FF, 0x0, 0x0, 0xFFFF000000FF, false, true, 0x3E800000064⟩
  | .PW_STATUS => ⟨.dev, 0x100008, [], 0x0, 0x0, 0x0, 0xE00000000000FFFF, false, true, 0xFFFF⟩
  | .PW_EVENT => ⟨.dev, 0x100010, [], 0x0, 0xFF, 0x0, 0xFF, false, true, 0x0⟩
  | .PW_EVENT_EN => ⟨.dev, 0x100018, [], 0xFF, 0x0, 0x0, 0xFF, false, true, 0x0⟩
  | .PW_RAILALARM => ⟨.dev, 0x100020, [], 0x0, 0xFF, 0x0, 0xF00FF, false, true, 0x0⟩
  | .PW_CLKMON => ⟨.dev, 0x100028, [], 0x0, 0x73F, 0x0, 0x73F, false, true, 0x0⟩
  | .PW_TEMP => ⟨.dev, 0x100100, [(11, 0x8)], 0x0, 0x0, 0x8000000000000000, 0xFFFFFFFF, false, true, 0x0⟩
  | .PW_SLICECMD => ⟨.dev, 0x100200, [(8, 0x10)], 0x30000000000000, 0x0, 0x8300000000000000, 0x4037000000000000, false, true, 0x0⟩
  | .PW_SLICESTAT => ⟨.dev, 0x100208, [(8, 0x10)], 0x0, 0x0, 0x0, 0xE000000000000000, false, true, 0x0⟩
  | .PW_CLERKCMD => ⟨.dev, 0x100300, [(8, 0x8)], 0x0, 0x0, 0x8300000000000000, 0x4007000000000000, false, true, 0x0⟩
  | .TB_CTRL => ⟨.dev, 0x200000, [], 0xFC00FFFF00000000, 0x0, 0x0, 0xFC00FFFF00000000, false, true, 0x6400000000⟩
  | .TB_TIME => ⟨.dev, 0x200008, [], 0x0, 0x0, 0x0, 0xFFFFFFFFFFFFFFFF, false, true, 0x0⟩
  | .TB_ADJ => ⟨.dev, 0x200010, [], 0xFFFFFFFFFFFF, 0x0, 0x0, 0xFFFFFFFFFFFF, false, true, 0x0⟩
  | .TB_STEP => ⟨.dev, 0x200018, [], 0x0, 0x0, 0xFFFFFFFFFFFFFFFF, 0x0, false, true, 0x0⟩
  | .TB_SET => ⟨.dev, 0x200020, [], 0x0, 0x0, 0xFFFFFFFFFFFFFFFF, 0x0, false, true, 0x0⟩
  | .TB_PPSCAP => ⟨.dev, 0x200028, [], 0x0, 0x0, 0x0, 0xFFFFFFFFFFFFFFFF, false, true, 0x0⟩
  | .TB_TODRX => ⟨.dev, 0x200030, [], 0x0, 0x0, 0x0, 0x8000FFFFFFFFFFFF, false, true, 0x0⟩
  | .TB_LASTMARK => ⟨.dev, 0x200038, [], 0x0, 0x0, 0x0, 0xFFFFFFFFFFFFFFFF, false, true, 0x0⟩
  | .TB_EVENT => ⟨.dev, 0x200040, [], 0x0, 0x3F, 0x0, 0x3F, false, true, 0x0⟩
  | .TB_EVENT_EN => ⟨.dev, 0x200048, [], 0x3F, 0x0, 0x0, 0x3F, false, true, 0x0⟩
  | .TB_TXTS_HEAD => ⟨.dev, 0x200100, [], 0x0, 0x0, 0x0, 0x83FF00000000FFFF, false, true, 0x0⟩
  | .TB_TXTS_TIME => ⟨.dev, 0x200108, [], 0x0, 0x0, 0x0, 0xFFFFFFFFFFFFFFFF, false, true, 0x0⟩
  | .TB_CNT => ⟨.dev, 0x200200, [(8, 0x8)], 0x0, 0x0, 0x0, 0xFFFFFFFFFFFF, false, true, 0x0⟩
  | .GL_GPIO_DIR => ⟨.dev, 0x100, [], 0xFFFF, 0x0, 0x0, 0xFFFF, false, true, 0x0⟩
  | .GL_GPIO_OUT => ⟨.dev, 0x108, [], 0xFFFF, 0x0, 0x0, 0xFFFF, false, true, 0x0⟩
  | .GL_GPIO_IN => ⟨.dev, 0x110, [], 0x0, 0x0, 0x0, 0xFFFF, false, true, 0x0⟩
  | .GL_I2CT => ⟨.dev, 0x118, [], 0x0, 0x0, 0x0, 0xFFFFFFFF007F, false, true, 0x0⟩
  | .PW_VRCTRL => ⟨.dev, 0x100400, [], 0x8000FFFF00000003, 0x0, 0x0, 0x8000FFFF00000003, false, true, 0xA00000001⟩
  | .PW_VR => ⟨.dev, 0x100410, [(16, 0x8)], 0xE0000000007FFF07, 0x0, 0x0, 0xE0000000007FFF07, false, true, 0x4000000000000000⟩
  | .PW_VRDATA => ⟨.dev, 0x100500, [(16, 0x8)], 0x0, 0x0, 0x0, 0xC000FFFFFFFF00FF, false, true, 0x0⟩
  | .FC_CTRL => ⟨.dev, 0x400000, [], 0xFFFFFFFF0003, 0x0, 0x0, 0xFFFFFFFF0003, false, true, 0x3E808040001⟩
  | .FC_STATUS => ⟨.dev, 0x400008, [], 0x0, 0x6000000000000000, 0x0, 0xE0FFFF00FFFF01FF, false, true, 0x0⟩
  | .FC_LOG_HEAD => ⟨.dev, 0x400010, [], 0x0, 0x0, 0x0, 0xFFFFFFFFFFFFF000, false, true, 0x0⟩
  | .FC_LOG_TIME => ⟨.dev, 0x400018, [], 0x0, 0x0, 0x0, 0xFFFFFFFFFFFFFFFF, false, true, 0x0⟩
  | .FC_TENANT_CMD => ⟨.dev, 0x400020, [], 0x0, 0x0, 0xC00000000000FFFF, 0x0, false, true, 0x0⟩
  | .FC_PORT_CMD => ⟨.dev, 0x400028, [], 0x0, 0x0, 0xC00000000000FFFF, 0x0, false, true, 0x0⟩
  | .FC_SLICE_CMD => ⟨.dev, 0x400030, [], 0x0, 0x0, 0xC00000000000FFFF, 0x0, false, true, 0x0⟩
  | .FC_HOLD => ⟨.dev, 0x400038, [], 0x0, 0x0, 0x1, 0x0, false, true, 0x0⟩
  | .FC_INJECT => ⟨.dev, 0x400040, [], 0x0, 0x0, 0x87FFFFFFFFFFF000, 0x0, false, true, 0x0⟩
  | .FC_SELFTEST => ⟨.dev, 0x400048, [], 0x0, 0x0, 0xFF00000000000000, 0x0, false, true, 0x0⟩
  | .FC_SELFTEST_STATUS => ⟨.dev, 0x400050, [], 0x0, 0x0, 0x0, 0xE00000000000FFFF, false, true, 0x0⟩
  | .FC_STRIP => ⟨.dev, 0x400100, [(8, 0x10)], 0x8FFFF0000, 0x0, 0x0, 0xFFF88FFFFFFFF, false, true, 0x80000000A0000⟩
  | .FC_PIPE => ⟨.dev, 0x400108, [(8, 0x10)], 0x0, 0x0, 0x0, 0x7FFFFFFFFFFFFFFF, false, true, 0x0⟩
  | .FC_POLICY => ⟨.dev, 0x408000, [(4096, 0x8)], 0x8770, 0x0, 0x0, 0xF770, false, true, 0x0⟩
  | .FC_TFROZEN => ⟨.dev, 0x410000, [(1024, 0x8)], 0x0, 0x0, 0x0, 0xFFFFFFFFFFFFFFFF, false, true, 0x0⟩
  | .FC_PFROZEN => ⟨.dev, 0x412000, [(12, 0x8)], 0x0, 0x0, 0x0, 0xFFFFFFFFFFFFFFFF, false, true, 0x0⟩
  | .A_TC | .A_EX | .A_STAMP | .A_ROOT | .A_SLOT | .A_LEAF | .A_CO | .A_CLV | .A_CLM | .A_CLA0 | .A_CLA1 | .A_GCW
  | .A_GCA | .A_PCP | .A_PCB | .A_POL0 | .A_POL1 | .A_POL2 | .A_POLC | .A_POLE | .A_POLT | .A_REACH | .A_SEAL | .A_KEK | .A_SAK | .A_FREEZE | .A_MSIX_ADDR | .A_MSIX_DATA | .A_MSIX_CTL | .A_MSIX_PBA
    => ⟨.array, 0, [], 0, 0, 0, 0xFFFFFFFFFFFFFFFF, false, false, 0⟩

end Sys2Proof.Machine
end

