-- ==== Sys2Proof/Syntax.lean ====
section
/-! DEFINITION. The commands of the block, one constructor per row of spec/opcode_table.json, with their operands.
An operand is what the outside world or a part of the device outside the model's state decides: bytes that arrive,
register values written, and hardware faults that a check finds. -/

namespace Sys2Proof

/-- What the PCS, the FEC and the MAC saw of a received frame besides its bytes (R73 to R75): nothing wrong, an
uncorrectable codeword, or a control or error block before the frame's end; two cipher cores that differ (R325);
or, for the rest of an early-released frame, a receive FIFO word that fails its check at the parser input (R77). -/
inductive RxErr
  | good | fec | code | cores | fifo
  deriving DecidableEq, Repr

/-- The comparison of the two cipher cores over a transmitted frame (R325): they agree, they differ before the first bit has
left, or they differ later. -/
inductive CoreCmp
  | agree | first | later
  deriving DecidableEq, Repr

/-- What is found when a frame's transmission begins (R80 to R85): the MAC that received the frame from the
countersign lane, whether the cipher cores agreed and the plaintext kept its check (R325), whether every lane word passed its check (R85), and, for a
cut-through frame, whether the MAC needed a byte that had not arrived (R81). -/
structure TxCond where
  mac : Port
  cores : CoreCmp
  plainOk : Bool
  lanesOk : Bool
  underrun : Bool
  deriving DecidableEq, Repr

/-- Where an admitted frame comes from (R89): the receive FIFO of a port of the slice, or the recirculation path. -/
inductive AdmitSrc
  | port (i : Fin 96)
  | recirc
  deriving DecidableEq, Repr

/-- A hardware fault that the parser input finds on a frame: none, a receive FIFO word that fails its check (R77), or
two tenant extractors that disagree (R100). -/
inductive AdmitFault
  | none | fifoWord | extractors
  deriving DecidableEq, Repr

/-- Who writes a register: a clerk, the host through a slip, the boot ROM (R370, R400), or the host in BAR0, where the
address is an offset in BAR0 (R391). -/
inductive Originator
  | clerk (c : Clerk)
  | host
  | rom
  | bar0
  deriving DecidableEq, Repr

/-- What a hardware fault changes in a checked structure, each as a difference (exclusive or): its data words, its check, and the
location that its check folds, where the access reaches another word than the one addressed (R335). -/
structure Flip where
  words : List (BitVec 64)
  check : BitVec 32
  loc : BitVec 64
  deriving DecidableEq, Repr

/-- A hardware fault in stored bits, found where the structure is next checked: a word of a register, array or store in one of its
copies (R29, R56, R107, R159, R207, R281, R326, R369, R416); a copy of a partial drain count (R218); a word of a bitmap, leaf words
0 to 63 or the summary word 64, or an owner record (R250, R252); the descriptor of a queued copy or the link to it (R253, R281);
the stored occupancy and copy count of a queue (R281); a copy of a tally (R296). -/
inductive Upset
  | word (name : Machine.RegName) (sl : Slice) (bank : Fin 4) (ix : Nat) (f : Flip)
  | drain (n : Slice) (bit copy : Fin 2) (f : BitVec 40)
  | bitmap (n : Slice) (d : Fin 4) (bank : Fin 8) (word : Fin 65) (f : Flip)
  | owner (n : Slice) (buffer : BitVec 17) (f : Flip)
  | desc (n : Slice) (q copy : Nat) (f : Flip)
  | link (n : Slice) (q copy : Nat) (f : Flip)
  | account (n : Slice) (q : Nat) (occ cnt : BitVec 32)
  | tally (parity copy : Fin 2) (i : Fin 36) (f : BitVec 64)
  deriving DecidableEq, Repr

/-- A fault record of an origin on its way to the collector (R45), with the hardware faults that have struck stored bits of the device
in the meantime (log entry 15). -/
structure FaultEvent where
  origin : Fin 9
  upsets : List Upset
  deriving DecidableEq, Repr

/-- A write of PT_CFG that disables a port, with what has arrived of a frame in reception there (R72, R75). -/
structure PortStop where
  word : Word
  arrived : Option (List Byte)
  deriving DecidableEq, Repr

/-- A port at which a fault begins (R69), with what has arrived of a frame in reception there (R75). -/
structure PortFault where
  port : Port
  arrived : Option (List Byte)
  deriving DecidableEq, Repr

/-- The parser lane that takes a clerk's frame (R381), and whether its tenant extractors disagree on the frame (R100). -/
structure InjectLane where
  pipe : Fin 9
  disagree : Bool
  deriving DecidableEq, Repr

/-- A clerk at a boundary where a source is delivered (R418), and whether that source has gone by the entry claim (R419; log entry 72). -/
structure Entry where
  clerk : Clerk
  gone : Bool
  deriving DecidableEq, Repr

/-- What a bus write carries: 64 bits, or, of the host in BAR0, their low half alone in an access of 32 bits (R392). -/
structure BusData where
  word : Word
  half : Bool
  deriving DecidableEq, Repr

/-- A pseudo-channel that issues a command (R347), and whether its first transfer meets a command and address parity error (R343). -/
structure IssueSlot where
  pc : Fin 32
  parity : Bool
  deriving DecidableEq, Repr

/-- A request to the HBM controller (R345, R346): its class (0 RT to 5 CLERK), its address and, for a write, its
bytes; for a read, the number of bytes. -/
structure HbmOp where
  cls : Fin 6
  addr : BitVec 40
  write : Option (List Byte)
  len : Nat
  deriving DecidableEq, Repr

/-- A JTAG instruction (R500): a public one, or a private one that opens scan access to the I/O die, or another private one. -/
inductive JtagIr
  | bypass | idcode | sample | extest | extestPulse | extestTrain | highz | clamp | scanAccess | privateOther
  deriving DecidableEq, Repr

/-- What a regulator answers to a poll (R498): its VOUT_MODE, READ_VOUT and READ_IOUT. -/
structure VrReading where
  mode : Byte
  vout : BitVec 16
  iout : BitVec 16
  deriving DecidableEq, Repr

/-- A set of performance counters (R429): a slice's or a clerk's. -/
inductive PmSet
  | slice (n : Slice)
  | clerk (c : Clerk)
  deriving DecidableEq, Repr

/-- Which doorbell register is written (R413): EV_SOFT_SET[w] or EV_PSOFT_SET[c]. -/
inductive SoftTarget
  | shared (w : Fin 16)
  | priv (c : Clerk)
  deriving DecidableEq, Repr


/-- A command of the device: one constructor per row of spec/opcode_table.json, in the table's order. -/
inductive Instr
  /-- RX_FRAME (R73). A frame arrives on a port and passes PCS decode, FEC correction, MAC checks and MACsec where configured, and is then passed to the parser or dropped before parsing. -/
  | rxFrame (p : Port) (start : Bool) (bytes : List Byte) (err : RxErr) (full : Bool)
  /-- EARLY_RELEASE (R78). Once the first 512 bytes of a longer frame have arrived on a cut-through port, its head is released to the parser before its tail status is known. -/
  | earlyRelease (p : Port) (head : List Byte) (full : Bool)
  /-- TAIL_STATUS (R78). The tail status of an early-released frame arrives, and held learn requests, egress holds, stomps and deferred charges are resolved. -/
  | tailStatus (p : Port) (rest : List Byte) (err : RxErr)
  /-- RX_WATCHDOG (R75). When the PCS delivers no block for rx_wd_us, the partial frame is ended with 0x06. -/
  | rxWatchdog (p : Port) (arrived : List Byte)
  /-- GMODE_WRITE (R60). A write to PT_GMODE replaces the lane map of a port group, or is refused with a cause. -/
  | gmodeWrite (n : Slice) (g : Fin 12) (v : Word) (copiesAgree : Bool)
  /-- PORT_ENABLE (R62). Writing enable 1 to PT_CFG starts link acquisition on the port, or leaves the port REFUSED with a cause. -/
  | portEnable (p : Port) (v : Word)
  /-- PORT_DISABLE (R72). Writing enable 0 to PT_CFG stops the port and discards its queued frames with 0x09. -/
  | portDisable (p : Port) (v : PortStop)
  /-- PARTNER_PRESENT (R70). Signal detect is gained on every lane of a port, or the first Clause 73 page is received. -/
  | partnerPresent (p : Port)
  /-- PARTNER_LOST (R70). Signal detect has been absent on every lane of a port for down_hold_us. -/
  | partnerLost (p : Port)
  /-- SIGNAL_LOSS (R69). A lane of a port loses signal, CDR lock or alignment, so the port stops transmitting new frames and leaves UP. -/
  | signalLoss (p : Port) (alignLost : Bool) (arrived : Option (List Byte))
  /-- AN_COMPLETE (R65). Clause 73 auto-negotiation resolves; a mismatch with the configured mode raises an_mismatch and restarts negotiation. -/
  | anComplete (p : Port) (code : Fin 16) (lp : Word)
  /-- TRAIN_DONE (R69). Link training completes and the port proceeds to alignment. -/
  | trainDone (p : Port)
  /-- TRAIN_FAIL (R69). Training does not complete within its allowed time, so train_fail is raised and acquisition restarts. -/
  | trainFail (p : Port)
  /-- ALIGN_LOCK (R68). CDR lock and FEC/PCS alignment are achieved on every lane of the port. -/
  | alignLock (p : Port)
  /-- LINK_UP (R69). A port that has stayed aligned without fault for up_hold_ms enters UP, and its link vector bit sets. -/
  | linkUp (p : Port)
  /-- LINK_DOWN (R69). A port that has been out of UP for down_hold_us raises link_down and restarts acquisition. -/
  | linkDown (p : Port)
  /-- LOCAL_FAULT (R69). A local fault is detected on a port, which then sends remote fault ordered sets. -/
  | localFault (p : PortFault)
  /-- REMOTE_FAULT (R69). A remote fault is received on a port, which then sends idles. -/
  | remoteFault (p : PortFault)
  /-- FEC_WINDOW (R70). At the end of each 1 ms window the count of corrected symbols is compared with the thresholds, which can raise fec_degrade or fec_recover. -/
  | fecWindow (p : Port) (codewords symbols : Nat)
  /-- PRBS_GO (R67). Writing go to SD_PRBS starts the lane's PRBS generator and checker, or completes BUSY. -/
  | prbsGo (l : Lane) (v : Word)
  /-- PRBS_STOP (R67). Writing stop to SD_PRBS stops the lane's PRBS generator and checker. -/
  | prbsStop (l : Lane) (v : Word)
  /-- TX_FRAME_START (R80). Once a picked frame's head is in the buffer and its countersign has passed, its transmission through MACsec, the MAC, FEC and PCS begins. -/
  | txFrameStart (p : Port) (cond : TxCond)
  /-- TX_FRAME_END (R82). A frame's transmission ends, with a good or an inverted FCS, and its delivery charges are applied or replaced. -/
  | txFrameEnd (p : Port)
  /-- SECY_FRAME_END (R324). The SecY engine reports a transmitted frame's good end, drop or stomp, and the delivery update is applied or replaced by an error charge. -/
  | secyFrameEnd (p : Port)
  /-- PARSER_ADMIT (R89). A parser lane admits one frame, walks the parse graph, builds HV and MD, stamps the edition and hands the frame to I0. -/
  | parserAdmit (n : Slice) (pipe : Fin 9) (src : AdmitSrc) (flt : AdmitFault)
  /-- PA_BANKED_WRITE (R106). A write to a banked PA register goes to the next bank, or is refused. -/
  | paBankedWrite (n : Slice) (off : BitVec 20) (v : Word)
  /-- PA_BANKCOPY (R106). Writing PA_BANKCOPY.go starts copying the current parser bank to the next bank, or is refused. -/
  | paBankcopy (n : Slice)
  /-- PA_BANKCOPY_DONE (R106). The parser bank copy completes and sets copy_done. -/
  | paBankcopyDone (n : Slice)
  /-- PA_SCRUB (R107). Once per scrub period, the parser scrubber compares the two copies of every graph entry and repairs or fails them. -/
  | paScrub (n : Slice)
  /-- STAGE_ROUTINE_START (R124). A stage way starts a frame's micro-routine at SE_ENTRY once all results addressed to that stage have landed. -/
  | stageRoutineStart (n : Slice) (c : Nat)
  /-- STAGE_NANO_WORD (R140). A stage microword executes its nano-word: operations, lookup launches and ST entries, then next-address formation. -/
  | stageNanoWord (n : Slice) (c : Nat)
  /-- BEAT_LIMIT (R145). A stage routine reaches beat_limit without END, so it is aborted with 0x37. -/
  | beatLimit (n : Slice) (c : Nat)
  /-- TC_LOOKUP (R188). A TC lookup reads its entry and lands a hit, miss or error in the result slot. -/
  | tcLookup (n : Slice) (c : Nat)
  /-- GC_LOOKUP (R168). A Guard CAM search makes its probes and lands the result of highest priority. -/
  | gcLookup (n : Slice) (c : Nat)
  /-- CL_LOOKUP (R163). A rule TCAM search lands the first match in its list. -/
  | clLookup (n : Slice) (c : Nat)
  /-- LP_LOOKUP (R193). An LPM trie walk lands the longest matching prefix, a miss or an error. -/
  | lpLookup (n : Slice) (c : Nat)
  /-- EX_LOOKUP (R198). An exact-table search reads four candidates and lands a hit, miss or error. -/
  | exLookup (n : Slice) (c : Nat)
  /-- HX_LOOKUP (R201). An HX lookup reads two HBM buckets and lands a hit, miss or error. -/
  | hxLookup (n : Slice) (c : Nat)
  /-- STAGE_FIX (R151). Two clocks after a routine's END, its latent writes are checked and applied together in the fix clock. -/
  | stageFix (n : Slice) (c : Nat) (checkOk : Bool)
  /-- COUNTERSIGN (R40). The countersign lane parses the outgoing copy, looks up its owner and delivers or refuses it, charging the ledger. -/
  | countersign (n : Slice) (c : Nat) (agree : Bool)
  /-- PCNT_READ (R128). SE_PCNT_CMD op READ reads a program counter into the result registers. -/
  | pcntRead (n : Slice)
  /-- PCNT_READ_CLEAR (R128). SE_PCNT_CMD op read-and-clear reads a program counter and zeroes it in one array cycle. -/
  | pcntReadClear (n : Slice)
  /-- PCNT_CLEAR (R128). SE_PCNT_CMD op clear zeroes a program counter. -/
  | pcntClear (n : Slice)
  /-- NANO_WORD_STAGE (R157). A write of words 0 to 6 of an NS nano-word goes into the engine's staging register. -/
  | nanoWordStage (n : Slice) (e : Fin 16) (x : Fin 1024) (w : Fin 7) (v : Word)
  /-- NANO_WORD_COMMIT (R157). A write of word 7 validates the staged nano-word and commits it to the next bank, or refuses it. -/
  | nanoWordCommit (n : Slice) (e : Fin 16) (x : Fin 1024) (v : Word)
  /-- MICROWORD_WRITE (R157). A microword write is validated and committed to the next bank, or refused. -/
  | microwordWrite (n : Slice) (e : Fin 16) (a : Fin 2048) (v : Word)
  /-- SE_BANKED_WRITE (R157). A write to a banked SE register (key profile, entry, reference base) is validated into the next bank, or refused. -/
  | seBankedWrite (n : Slice) (off : BitVec 20) (v : Word)
  /-- SE_BANKCOPY (R158). Writing SE_BANKCOPY.go starts copying the current stage bank to the next bank, or is refused. -/
  | seBankcopy (n : Slice)
  /-- SE_BANKCOPY_DONE (R158). The stage bank copy completes and sets copy_done. -/
  | seBankcopyDone (n : Slice)
  /-- SE_SCRUB (R159). Once per scrub period, the store scrubber reads both copies of every word and repairs or fails it. -/
  | seScrub (n : Slice)
  /-- RECIRC_PICK (R146). The recirculation scheduler picks a frame from the recirculation queue and sends it through E0 to E3 to the recirculation path. -/
  | recircPick (n : Slice) (pipe : Fin 9)
  /-- CL_READ (R174). CL_CMD op READ reads a rule TCAM entry into the staging registers. -/
  | clRead (n : Slice)
  /-- CL_WRITE (R174). CL_CMD op WRITE writes a staged entry, shadow first and valid last, or is refused. -/
  | clWrite (n : Slice)
  /-- CL_INVALIDATE (R174). CL_CMD op INVALIDATE clears an entry's valid bit and then its shadow. -/
  | clInvalidate (n : Slice)
  /-- CL_EDBITS (R174). CL_CMD op EDBITS sets a valid entry's edition bits in one word. -/
  | clEdbits (n : Slice) (ed : Fin 4)
  /-- CL_MOVE (R175). CL_CMD op MOVE copies an entry into an adjacent free index and invalidates the original, or is refused. -/
  | clMove (n : Slice)
  /-- CL_CMD_DONE (R175). A rule TCAM command completes its steps and clears busy. -/
  | clCmdDone (n : Slice)
  /-- GC_READ (R176). GC_CMD half-A op READ reads a Guard CAM entry. -/
  | gcRead (n : Slice) (v : Word)
  /-- GC_WRITE (R176). GC_CMD op WRITE on a half stages a new entry, made valid in the paired array cycle. -/
  | gcWrite (n : Slice) (halfB : Bool) (v : Word)
  /-- GC_INVALIDATE (R176). GC_CMD op INVALIDATE on a half invalidates an entry in the paired array cycle. -/
  | gcInvalidate (n : Slice) (halfB : Bool) (v : Word)
  /-- GC_EDBITS (R176). GC_CMD op EDBITS on a half sets an entry's edition bits in the paired array cycle. -/
  | gcEdbits (n : Slice) (halfB : Bool) (v : Word)
  /-- GC_CMD_DONE (R176). A Guard CAM command completes its steps and clears busy. -/
  | gcCmdDone (n : Slice)
  /-- CL_SCRUB (R179). Once per scrub period, the rule TCAM scrubber compares every entry with its shadow and acts. -/
  | clScrub (n : Slice)
  /-- GC_SCRUB (R179). Once per scrub period, the Guard CAM scrubber compares every entry with its shadow and acts. -/
  | gcScrub (n : Slice)
  /-- CL_GC_BANKED_WRITE (R180). A write to CL_LIST, GC_PROBE_MASK or GC_PROBE_CFG goes to the next bank, or is refused. -/
  | clGcBankedWrite (n : Slice) (gc : Bool) (off : BitVec 20) (v : Word)
  /-- FT_READ (R184). FT_CMD op READ reads a TC, LP or EX word of this slice's replica. -/
  | ftRead (n : Slice)
  /-- FT_WRITE (R184). FT_CMD op WRITE writes a word to the shadow and then to the named replicas that are not stale. -/
  | ftWrite (n : Slice) (replicas : BitVec 8)
  /-- FT_CMD_DONE (R184). An FT command completes and clears busy. -/
  | ftCmdDone (n : Slice)
  /-- FT_SYNC (R185). Writing FT_SYNC.go starts copying a source replica into this slice's replica, or is refused. -/
  | ftSync (n : Slice) (v : Word)
  /-- FT_SYNC_DONE (R185). The replica sync completes, rewrites the shadow and clears stale. -/
  | ftSyncDone (n : Slice)
  /-- LP_FENCE (R195). Writing FT_LP_FENCE.go sets busy for the named replicas. -/
  | lpFence (n : Slice) (replicas : BitVec 8)
  /-- LP_FENCE_DONE (R195). Busy clears once every LP walk launched before the go has landed. -/
  | lpFenceDone (n : Slice)
  /-- FT_SCRUB (R186). Once per scrub period, each replica's scrubber compares every word with its shadow and acts. -/
  | ftScrub (n : Slice)
  /-- FT_BANKED_WRITE (R190). A write to FT_LP_PROFILE or FT_HX_DESC goes device-wide to the next bank, or is refused. -/
  | ftBankedWrite (n : Slice) (off : BitVec 20) (v : Word)
  /-- HX_READ (R202). FT_HX_CMD op READ reads one HX entry from HBM. -/
  | hxRead (n : Slice)
  /-- HX_WRITE (R202). FT_HX_CMD op WRITE writes one 32-byte HX entry as one HBM access. -/
  | hxWrite (n : Slice)
  /-- LEARN_REQUEST (R203). A learn request reaches the clearing house queue and is queued, merged, shed or discarded. -/
  | learnRequest
  /-- CH_REQUEST_PROCESS (R205). The clearing house takes its next queued request and applies it to EX in every replica. -/
  | chRequestProcess
  /-- CH_LOOKUP (R209). FT_CH_CMD op LOOKUP returns an EX entry, its index and its stamp record. -/
  | chLookup (sub : Fin 64)
  /-- CH_INSERT (R209). FT_CH_CMD op INSERT inserts or replaces an EX entry through the clearing house. -/
  | chInsert (sub : Fin 64)
  /-- CH_DELETE (R209). FT_CH_CMD op DELETE invalidates an EX entry in every replica. -/
  | chDelete (sub : Fin 64)
  /-- CH_CLEAR_CONTESTED (R209). FT_CH_CMD op CLEAR_CONTESTED clears contested and sets settled. -/
  | chClearContested (sub : Fin 64)
  /-- CH_SET_ED (R209). FT_CH_CMD op SET_ED sets an EX entry's edition bits. -/
  | chSetEd (sub : Fin 64)
  /-- AGING_SCAN (R208). The aging scanner visits EX indexes, sets settled and submits AGE requests. -/
  | agingScan (i : Fin 1048576)
  /-- CH_RING_WRITE (R210). A write to FT_CH_RING sets the notification ring after alignment and range checks. -/
  | chRingWrite (v : Word)
  /-- ED_FLIP (R220). ED_CMD op FLIP makes the next edition current at the flip clock, or is refused. -/
  | edFlip
  /-- ED_CLOSE (R222). ED_CMD op CLOSE permits the draining bit to close. -/
  | edClose
  /-- ED_FORCE_CLOSE (R225). ED_CMD op FORCE_CLOSE purges queued frames of the old bit and permits closing. -/
  | edForceClose
  /-- FORCE_CLOSE_ZERO_COUNTS (R225). Once the contexts held at FORCE_CLOSE are released, every partial count of the old bit is set to zero. -/
  | forceCloseZeroCounts
  /-- EDITION_CLOSE (R222). A DRAINING bit whose drain counter is zero, and whose closing is permitted, becomes CLOSED and sends drain markers. -/
  | editionClose
  /-- DRAIN_MARKER_RX (R222). A drain marker received on an awaited fabric port decrements ED_MARKWAIT. -/
  | drainMarkerRx (p : Port) (b : Fin 2)
  /-- MARKER_WAIT_TIMEOUT (R223). marker_wait_us after closing, the bit retires and marker_timeout is set. -/
  | markerWaitTimeout
  /-- DRAIN_SLOW (R225). The old bit has been DRAINING for drain_limit_ms, so drain_slow is set. -/
  | drainSlow
  /-- PLACES_GRANT (R234). The destination grants places for a frame's cells, and the cell former sprays them over the planes. -/
  | placesGrant (f : Nat)
  /-- XB_HOLD (R234). A frame still waiting for places src_hold_ns after its ingress fix is dropped with 0x62. -/
  | xbHold (f : Nat)
  /-- FILLER_CELL (R236). After 500 ns without a data cell of a frame in progress, the stream sends a filler cell. -/
  | fillerCell (src : Slice) (pipe : Fin 9) (dst : Slice)
  /-- CELL_ARRIVAL (R237). A cell reaches the resequencer and is checked, released, held or discarded. -/
  | cellArrival (src : Slice) (pipe : Fin 9) (dst : Slice) (seq : Fin 65536) (checkOk : Bool)
  /-- RESEQ_TIMEOUT (R238). reseq_timeout_ns passes, so the expected cell is declared lost and a loss notice is sent. -/
  | reseqTimeout (src : Slice) (pipe : Fin 9) (dst : Slice)
  /-- LOSS_NOTICE (R241). A loss notice reaches the source slice, which counts the lost frame out of its drain count. -/
  | lossNotice (src : Slice)
  /-- RELEASE_ACK (R241). The destination's acknowledgement reaches the source, which counts the frame out of its partial drain count. -/
  | releaseAck (src : Slice)
  /-- PLANE_RESTORE (R235). Writing a bit of XB_RESTORE starts a 100 µs test of a removed plane. -/
  | planeRestore (v : Word)
  /-- PLANE_RESTORE_DONE (R235). The plane test ends, and the plane returns to service or restore_failed is set. -/
  | planeRestoreDone (plane : Fin 4) (pass : Bool)
  /-- ALLOC_REQUEST (R249). The allocator serves the write ports' requests in rotating priority, grants buffers, upsizes requests or drops with 0x60. -/
  | allocRequest (n : Slice) (t : Fin 8)
  /-- BUFFER_FREE (R250). A free request for a buffer is checked against its owner record and applied or refused. -/
  | bufferFree (n : Slice)
  /-- BP_CARVE_WRITE (R245). A write to BP_CARVE is accepted only while the slice is not ACTIVE and no buffer is allocated. -/
  | bpCarveWrite (n : Slice) (v : Word)
  /-- POOL_ACCOUNT_CHECK (R254). Once per millisecond, the bitmaps, owner records and allowances of the pool are compared. -/
  | poolAccountCheck (n : Slice)
  /-- COPY_VISIBLE (R262). A copy becomes visible to its scheduler when its last cell is written with a good tail, or early for cut-through. -/
  | copyVisible (n : Slice) (c : Nat)
  /-- SCHEDULER_PICK (R266). A port scheduler picks the next eligible head copy by strict priority and DWRR, or by WFQ, subject to gates. -/
  | schedulerPick (p : Port) (pipe : Fin 9)
  /-- SPILL_WRITE (R362). A whole spilled copy is written into its queue's open HBM block, its buffer is freed and DEEP_BUFFER is charged. -/
  | spillWrite (n : Slice) (c : Nat)
  /-- DRAIN_BLOCK_READ (R363). When a queue's on-die part falls low, the drain engine issues an RT read of its next HBM block. -/
  | drainBlockRead (n : Slice) (q : Fin 1536)
  /-- DRAIN_BLOCK_ARRIVED (R363). A drained block has fully arrived, is checked and freed, and its copies are moved into buffers in order. -/
  | drainBlockArrived (n : Slice) (q : Fin 1536)
  /-- GCL_GO (R273). Writing go to TM_GCLCMD schedules the other gate-list bank to become operative. -/
  | gclGo (p : Port) (v : Word)
  /-- GCL_SWITCH (R273). At the start instant the new gate list becomes operative at entry 0. -/
  | gclSwitch (p : Port)
  /-- GATE_ENTRY_ADVANCE (R275). A gate list entry's interval ends and the next entry's gate mask takes effect. -/
  | gateEntryAdvance (p : Port)
  /-- QUEUE_AGE_SCAN (R279). At least once per millisecond, head copies older than age_ms are dropped with 0x6C. -/
  | queueAgeScan (n : Slice)
  /-- QUEUE_ACCOUNT_CHECK (R281). Once per millisecond, queue occupancies and copy counts are compared with their descriptors. -/
  | queueAccountCheck (n : Slice)
  /-- POL_READ (R268). TM_POL_CMD op READ reads a policer's configuration and buckets. -/
  | polRead (n : Slice)
  /-- POL_WRITE (R268). TM_POL_CMD op WRITE writes a policer's configuration and keeps its buckets, or is refused. -/
  | polWrite (n : Slice)
  /-- POL_RESET (R268). TM_POL_CMD op RESET writes a policer's configuration and fills its buckets, or is refused. -/
  | polReset (n : Slice)
  /-- MINUTE_MARK (R478). TB_TIME reaches a multiple of 60 s, which flips the open ledger book and samples the minute calendars. -/
  | minuteMark
  /-- SETTLE_END (R289). settle_us after the mark, settling ends and the accumulators flush the old parity. -/
  | settleEnd
  /-- BOOK_CLOSE (R289). The flush completes, the book closes and the walk begins. -/
  | bookClose
  /-- FOLIO_PLACE (R304). The walk completes, the folio is reconciled, sealed and placed in the ring or overrun, and the book is zeroed. -/
  | folioPlace
  /-- LEDGER_UPDATE (R294). A ledger update reaches an accumulator and tally, is checked, and is added to the book of its stamp. -/
  | ledgerUpdate (checkOk : Bool)
  /-- LG_ENABLE (R291). Writing LG_CTRL.enable 1 starts a chain at the next minute mark, or is refused. -/
  | lgEnable (v : Word)
  /-- LG_DISABLE (R291). Writing LG_CTRL.enable 0 ends the chain at the next minute mark. -/
  | lgDisable (v : Word)
  /-- LG_ARM (R308). Writing lg_arm 1 arms last-gasp, or sets arm_refused. -/
  | lgArm (v : Word)
  /-- LG_SETTLE_END (R309). lg_settle_us after the cut, settling ends and the pending books are flushed, walked and sealed. -/
  | lgSettleEnd
  /-- LAST_GASP_SEND (R310). The LAST_GASP folio and unreleased folios are sent in segments on each designated port. -/
  | lastGaspSend (k : Fin 4)
  /-- WITNESS_WAIT_TIMEOUT (R307). No digest record arrives within witness_wait_ms after the device places its folio. -/
  | witnessWaitTimeout
  /-- SA_BIND (R315). A transmit frame entering the SecY engine binds an SA and takes its PN, or is dropped. -/
  | saBind (p : Port)
  /-- SA_MAP_WRITE (R314). A write to CX_TXMAP or CX_RXMAP binds SA slots, or is refused with SLOT_IN_USE. -/
  | saMapWrite (p : Port) (rx : Bool) (v : Word)
  /-- PN_WRITE (R316). A write to CX_PN is accepted only when it raises the PN. -/
  | pnWrite (s : Fin 8192) (v : Word)
  /-- KEY_IMPORT (R320). Writing CX_IMPORT_CMD.go starts unwrapping a key into a slot. -/
  | keyImport (v : Word)
  /-- KEY_IMPORT_DONE (R321). The import ends with a result, loading a new generation or leaving the slot unchanged. -/
  | keyImportDone
  /-- SHADOW_RELEASE (R322). When the in-flight count of a shadow reaches zero, the shadow is zeroized. -/
  | shadowRelease (s : Fin 8192)
  /-- KEY_ERASE (R323). Writing CX_ERASE erases one slot at once, dropping or stomping the frames bound to it. -/
  | keyErase (v : Word)
  /-- ERASE_VERIFIED (R323). The overwrite of an erased slot is verified, the slot reads EMPTY and busy clears. -/
  | eraseVerified
  /-- ZEROIZE (R329). An enabled alarm source zeroizes the whole key store. -/
  | zeroize (src : Fin 8)
  /-- ZEROIZE_VERIFY (R329). The readback of the zeroized cells completes, or repeats the overwrite and raises F-0xA06. -/
  | zeroizeVerify (ok : Bool)
  /-- KEY_SCRUB (R326). Once per scrub period, every LOADED master key and shadow is checked. -/
  | keyScrub
  /-- RNG_HEALTH_FAIL (R328). The entropy source fails a health test, so rng_ok clears and imports are refused. -/
  | rngHealthFail
  /-- CK_CLAIM (R338). A claim write makes a clerk the owner of a free check unit. -/
  | ckClaim (c : Clerk) (u : Fin 16) (v : Word)
  /-- CK_RELEASE (R338). The owner releases a check unit after its accepted writes have been processed. -/
  | ckRelease (c : Clerk) (u : Fin 16) (v : Word)
  /-- CK_WINDOW_WRITE (R339). A word written to CK_UWIN feeds 8 bytes to the unit's CRC in the configured order. -/
  | ckWindowWrite (c : Clerk) (u : Fin 16) (v : Word)
  /-- CK_START (R339). CK_UCMD op START presets the unit's register and clears its results. -/
  | ckStart (c : Clerk) (u : Fin 16)
  /-- CK_TAIL (R339). CK_UCMD op TAIL feeds 1 to 7 bytes of CK_UTAIL. -/
  | ckTail (c : Clerk) (u : Fin 16) (count : Fin 8)
  /-- CK_FOLD (R339). CK_UCMD op FOLD feeds the structure code and the folded value. -/
  | ckFold (c : Clerk) (u : Fin 16) (code : Byte)
  /-- CK_COMPARE (R341). CK_UCMD op COMPARE compares the result with the expected value and sets match, mismatch or unit_fault. -/
  | ckCompare (c : Clerk) (u : Fin 16) (agree : Bool)
  /-- STACK_SET_STATE (R356). HM_STACKCMD op SET_STATE moves a stack toward a target state, or is refused. -/
  | stackSetState (h : Stack) (v : Word)
  /-- STACK_RETRAIN (R358). HM_STACKCMD op RETRAIN runs a full retraining of an IDLE stack, or completes BUSY. -/
  | stackRetrain (h : Stack) (v : Word)
  /-- STACK_CMD_DONE (R356). A stack transition or training completes with its result. -/
  | stackCmdDone (h : Stack) (trained : Bool)
  /-- HBM_REQUEST (R346). A source's access enters a bank queue once a tracker is free; a write is acknowledged on acceptance. -/
  | hbmRequest (r : HbmOp)
  /-- HBM_BURST_ISSUE (R347). A pseudo-channel picks a bank and issues a refresh, an RT burst or a class burst, and checks the sectors read. -/
  | hbmBurstIssue (h : Stack) (pc : IssueSlot) (corr uncorr : List Nat)
  /-- REFRESH_INTERVAL (R351). Each refresh interval adds one to every bank's refresh debt, which forces a refresh at exhaustion. -/
  | refreshInterval (h : Stack)
  /-- STARVE_PICK (R349). A request that has waited starve_us becomes the next pick of its bank. -/
  | starvePick (h : Stack) (pc : Fin 32)
  /-- PATROL (R355). The patrol reads every sector of every ACTIVE stack once per patrol_h. -/
  | patrol (h : Stack) (corr uncorr : List Nat)
  /-- MARGIN_LOW (R358). The tracked read margin of an ACTIVE stack falls below margin_thr. -/
  | marginLow (h : Stack) (margin : Byte)
  /-- HM_DB_WRITE (R359). A write to HM_DB sets a slice's deep-buffer region, or is refused. -/
  | hmDbWrite (n : Slice) (v : Word)
  /-- PURGE_WALK (R364). A purge walk reads a queue's HBM blocks and discards their copies, or rewrites the survivors. -/
  | purgeWalk (n : Slice) (q : Fin 1536)
  /-- DB_ACCOUNT_CHECK (R365). Once per millisecond, a slice's blocks in use are compared with its queues' block counts. -/
  | dbAccountCheck (n : Slice)
  /-- HM_ERRLOG_CLEAR (R354). Writing clear to HM_ERRLOG clears the captured poisoned address. -/
  | hmErrlogClear (v : Word)
  /-- CLERK_NANO_WORD (R141). A clerk microword executes its nano-word's operations and memory slots and forms the next address. -/
  | clerkNanoWord (c : Clerk)
  /-- CLERK_LOAD_RETURN (R135). The data of a clerk load return and are written into Xd. -/
  | clerkLoadReturn (c : Clerk)
  /-- BLOCK_WORD (R136). One word of a BMOVE or BFILL is moved or filled and the registers advance. -/
  | blockWord (c : Clerk)
  /-- CLERK_HALT (R371). MC_CMD op HALT halts a clerk. -/
  | clerkHalt (c : Clerk)
  /-- CLERK_START (R371). MC_CMD op START resumes or starts a clerk at its faulting microword. -/
  | clerkStart (c : Clerk)
  /-- CLERK_RESET (R371). MC_CMD op RESET clears a clerk's registers and stacks and starts it at MC_ENTRY. -/
  | clerkReset (c : Clerk)
  /-- CLERK_TASK_WAKE (R372). A clerk in WAIT starts a new task when an enabled wake bit reads 1. -/
  | clerkTaskWake (c : Clerk)
  /-- CLERK_KICK (R372). A write to MC_KICK sets the clerk's kick wake bit. -/
  | clerkKick (c : Clerk)
  /-- CLERK_WATCHDOG (R373). A clerk does not pet its watchdog within timeout_us, so fired sets. -/
  | clerkWatchdog (c : Clerk)
  /-- CLERK_STORE_WRITE (R374). A write to MC_UW or MC_NW loads a halted clerk's store, or is refused. -/
  | clerkStoreWrite (off : BitVec 20) (v : Word)
  /-- RX_RING_CONFIG (R376). A write to MC_RXRING or MC_TXRING sets a clerk ring, or is refused. -/
  | rxRingConfig (c : Clerk) (tx : Bool) (v : Word)
  /-- PUNT_ARRIVAL (R375). A punt copy or clerk-bound frame reaches the punt gate, is policed and admitted to a receive ring, or is dropped. -/
  | puntArrival
  /-- CLERK_INJECT (R381). The clerk path takes an INJECT transmit slot and admits its frame to a parser lane. -/
  | clerkInject (c : Clerk) (n : Slice) (pipe : InjectLane)
  /-- CLERK_DIRECT (R381). The clerk path takes a DIRECT transmit slot and enqueues its frame on an egress queue. -/
  | clerkDirect (c : Clerk)
  /-- BOOT_START (R386). The boot ROM starts, samples the straps and tries the first boot source. -/
  | bootStart (straps : Fin 4)
  /-- BOOT_SOURCE_DONE (R385). An image from a source is verified and loaded and the clerks start, or the next source is tried. -/
  | bootSourceDone (image : Option (List Byte))
  /-- FUSE_REVOKE (R387). MC_FUSECMD op REVOKE blows a key's revoke fuse. -/
  | fuseRevoke (o : Originator) (v : Word)
  /-- FUSE_RAISE (R387). MC_FUSECMD op RAISE raises the fused minimum security version. -/
  | fuseRaise (o : Originator) (v : Word)
  /-- TXWIN_PUSH (R393). A word written to TW_TXWIN is pushed onto the transmit FIFO, or overflows. -/
  | txwinPush (v : Word)
  /-- SLIP_COMPLETE (R396). A slip's n-th word arrives and the slip is judged on length, check and sequence. -/
  | slipComplete
  /-- ECHO (R399). An ECHO slip returns its payload in a DATA receipt. -/
  | echo
  /-- WRITE_WORDS (R401). A WRITE_WORDS slip writes its words in ascending order until one fails. -/
  | writeWords
  /-- READ_WORDS (R401). A READ_WORDS slip reads its words in ascending order and returns them. -/
  | readWords
  /-- RUN_PROGRAM (R402). A RUN_PROGRAM slip is deposited in a clerk's request ring and kicks the clerk. -/
  | runProgram
  /-- LOAD_IMAGE (R403). A LOAD_IMAGE slip stages image words, and on its last slip boots them or passes them to a clerk. -/
  | loadImage
  /-- IMPORT_KEY (R404). An IMPORT_KEY slip loads the import registers, runs the import and returns its status. -/
  | importKey
  /-- CLERK_BUSY (R402). A RUN_PROGRAM finds no free request slot within req_wait_us and returns CLERK_BUSY. -/
  | clerkBusy
  /-- SLIP_IDLE_TIMEOUT (R397). A slip in assembly waits idle_us for its next word, so it is discarded and the window enters DISCARD. -/
  | slipIdleTimeout
  /-- RESYNC (R397). Writing TW_HCTRL.resync empties the transmit FIFO and returns the window to READY. -/
  | resync
  /-- RXPOP (R394). A write to TW_RXPOP consumes receipt words, or is discarded and sets bad_pop. -/
  | rxpop (v : Word)
  /-- RECEIPT_PLACE (R394). A produced receipt is written whole into the receive FIFO once it has room. -/
  | receiptPlace
  /-- CLERK_RECEIPT (R407). A clerk writes TW_CRCMD go and the device completes and places its receipt. -/
  | clerkReceipt (c : Clerk) (v : Word)
  /-- ENDPOINT_RESET (R408). A PCIe reset, link-down or FLR resets the teller window. -/
  | endpointReset
  /-- INTERRUPT_ENTRY (R418). A clerk takes a deliverable source at a boundary, pushes an entry, claims it and starts its handler. -/
  | interruptEntry (c : Entry)
  /-- POLLED_CLAIM (R419). A firmware read of EV_CLAIM claims the highest deliverable source and pushes an entry. -/
  | polledClaim (c : Clerk)
  /-- EV_DONE (R421). A store to EV_DONE completes the top source of the stack, or is ignored and sets done_order. -/
  | evDone (c : Clerk) (v : Word)
  /-- STRAND_TIMEOUT (R424). A source pending at an unavailable target for strand_us becomes stranded. -/
  | strandTimeout (n : Fin 2048)
  /-- EV_SRC_WRITE (R425). A write to EV_SRC changes a source's target or level, withdrawing and re-delivering it. -/
  | evSrcWrite (n : Fin 2048) (v : Word)
  /-- MSIX_SEND (R426). A host vector becomes pending while unmasked, and its MSI-X message is sent. -/
  | msixSend (k : Fin 64)
  /-- VECTOR_UNMASK (R426). A pending vector is unmasked and its message is sent. -/
  | vectorUnmask (k : Fin 64)
  /-- EV_TIMER_EXPIRY (R413). A clerk's EV_TIMER count reaches zero and sets its TIMER source. -/
  | evTimerExpiry (c : Clerk)
  /-- SOFT_SET (R413). A write to EV_SOFT_SET or EV_PSOFT_SET sets doorbell source bits. -/
  | softSet (tgt : SoftTarget) (v : Word)
  /-- PM_RUN (R433). A write of PM_CTRL.run starts or stops all eight counters of a set in one clock. -/
  | pmRun (s : PmSet) (v : Word)
  /-- CYC_CLEAR (R429). Writing cyc_clear zeroes the set's cycle counter. -/
  | cycClear (s : PmSet)
  /-- COUNTER_OVERFLOW (R434). A counter wraps, setting ovf and triggering sampling, freezing and the event source as configured. -/
  | counterOverflow (s : PmSet) (k : Fin 8)
  /-- SAMPLE_CAPTURE (R435). The first qualifying frame or microword within the skid after an overflow is captured as the sample. -/
  | sampleCapture (s : PmSet)
  /-- SF_MEMBER_WRITE (R437). A write to SF_MEMBER sets the member number, or is refused while fabric ports are enabled. -/
  | sfMemberWrite (v : Word)
  /-- HELLO_SEND (R441). Every hello_us the fabric sender advances the transmit counter and inserts a hello. -/
  | helloSend (p : Port)
  /-- HELLO_RX (R442). A received hello is checked and adopted, and may bring the link to LIVE or flag a conflict. -/
  | helloRx (p : Port) (bytes : List Byte)
  /-- LINK_DEAD (R442). No hello has been accepted for dead_us, so the link is declared DEAD and returns to SYNCING. -/
  | linkDead (p : Port)
  /-- REACH_READ (R447). SF_REACH_CMD op READ reads a reach entry into the staging words. -/
  | reachRead
  /-- REACH_WRITE (R447). SF_REACH_CMD op WRITE writes a reach entry to all replicas, or is refused. -/
  | reachWrite
  /-- TWIN_RECORD_SEND (R453). Queued twin records are sent in a TWIN_SYNC frame on the sync link, at most 10 µs after the first. -/
  | twinRecordSend
  /-- TWIN_HEARTBEAT (R453). Every hb_us a HEARTBEAT record is queued. -/
  | twinHeartbeat
  /-- TWIN_RECORD_RX (R453). A received twin record is processed in sequence order: learn, age, heartbeat or digest. -/
  | twinRecordRx (p : Port) (rec : List Byte)
  /-- TWIN_PARTNER_LOST (R455). No twin record has arrived for 3 × hb_us, so partner_up clears. -/
  | twinPartnerLost
  /-- SLICE_POWER_CMD (R463). PW_SLICECMD go moves a slice toward a target power state step by step, or is refused. -/
  | slicePowerCmd (n : Slice) (v : Word)
  /-- SLICE_TRANSITION_DONE (R463). A slice power transition, with its start-up test where due, completes. -/
  | sliceTransitionDone (n : Slice) (failed : BitVec 9)
  /-- QUIESCE_TIMEOUT (R464). quiesce_us passes without the slice draining, so the remaining copies are discarded with 0x11. -/
  | quiesceTimeout (n : Slice)
  /-- LANE_POWER (R466). A write of SD_LANECFG.pwr moves a lane toward a power state. -/
  | lanePower (l : Lane) (v : Word)
  /-- LANE_TRANSITION_DONE (R466). A lane power transition completes and pwr_state changes. -/
  | laneTransitionDone (l : Lane)
  /-- CLERK_POWER_CMD (R468). PW_CLERKCMD go moves a clerk between ACTIVE, RETENTION and OFF, or is refused. -/
  | clerkPowerCmd (c : Clerk) (v : Word)
  /-- CLERK_POWER_DONE (R468). A clerk power transition takes effect at its boundary. -/
  | clerkPowerDone (c : Clerk)
  /-- SUPPLY_ALARM (R469). A droop or glitch on a rail forces DEVICE_HOLD, a slice freeze or state changes. -/
  | supplyAlarm (rail : Fin 7) (die : Fin 15) (glitch : Bool)
  /-- PWR_FAIL_N (R470). PWR_FAIL_N has been low for 200 ns and is registered. -/
  | pwrFailN
  /-- THERMAL_WARN (R471). A die reaches warn_c. -/
  | thermalWarn (d : Fin 15) (temp : BitVec 16)
  /-- THERMAL_CRITICAL (R471). A die reaches 115 °C, so ports, slices and lanes are forced OFF. -/
  | thermalCritical (d : Fin 15) (temp : BitVec 16)
  /-- RESET_N (R474). RESET_N low for 1 µs or more begins a device reset. -/
  | resetN
  /-- GL_RESET_ARM (R474). A write of GL_RESET.arm opens a 1 ms window for go. -/
  | glResetArm (o : Originator) (v : Word)
  /-- GL_RESET_GO (R474). A write of GL_RESET.go within the armed window causes a software device reset. -/
  | glResetGo (o : Originator) (v : Word)
  /-- PERST_N (R475). PERST_N resets the PCIe endpoint and the teller window. -/
  | perstN
  /-- CLOCK_MONITOR_FAULT (R460). A derived clock is off nominal or CORE_REFCLK is absent, so transmit enable is removed. -/
  | clockMonitorFault (bit : Fin 9)
  /-- SD_REFCLK_LOSS (R460). An SD_REFCLK is absent for 1 µs and the lanes it serves lose lock. -/
  | sdRefclkLoss (k : Fin 24)
  /-- PCIE_REFCLK_LOSS (R460). PCIE_REFCLK is absent for 1 µs and the PCIe link goes down. -/
  | pcieRefclkLoss
  /-- TS_CLK_LOSS (R460). TS_CLK_IN is absent while it is the timebase source, so the timebase enters holdover. -/
  | tsClkLoss
  /-- TB_STEP (R478). A write of TB_STEP adds a signed offset to TB_TIME. -/
  | tbStep (v : Word)
  /-- TB_SET (R478). A write of TB_SET loads an absolute time into TB_TIME. -/
  | tbSet (v : Word)
  /-- PPS_IN (R479). A rising edge of PPS_IN latches TB_TIME and may apply an armed TOD set. -/
  | ppsIn
  /-- TOD_IN_MESSAGE (R479). An 11-byte TOD_IN message is received and checked. -/
  | todInMessage (bytes : List Byte)
  /-- PPS_OUT (R479). At each whole TAI second, PPS_OUT rises for pps_width_us. -/
  | ppsOut
  /-- TOD_OUT (R479). 10 ms after each PPS_OUT edge, a TOD message is sent. -/
  | todOut
  /-- TXTS_POP (R480). A read of TB_TXTS_HEAD pops the oldest two-step entry and latches its time. -/
  | txtsPop
  /-- I2C_BLOCK_READ (R496). An SMBus block read returns a consistent snapshot of ID, status, temperatures or rails. -/
  | i2cBlockRead (cmd : Byte)
  /-- I2C_ZEROIZE (R497). The emergency ZEROIZE command zeroizes the key store. -/
  | i2cZeroize (arg : Byte)
  /-- I2C_HOLD (R497). The emergency HOLD command enters DEVICE_HOLD. -/
  | i2cHold (arg : Byte)
  /-- I2C_RESET (R497). The emergency RESET command causes a device reset with cause BMC. -/
  | i2cReset (arg : Byte)
  /-- VR_POLL (R498). Every poll_ms the I2C controller reads each regulator's voltage and current. -/
  | vrPoll (k : Fin 16) (reading : Option VrReading)
  /-- JTAG_INSTRUCTION (R500). A JTAG instruction is loaded; pin-control and debug instructions force DEVICE_HOLD first. -/
  | jtagInstruction (ir : JtagIr)
  /-- FAULT_RECORD (R45). A fault record reaches the collector, which applies its reaction, logs it and counts it. -/
  | faultRecord (origin : FaultEvent)
  /-- ESC_WINDOW_END (R46). At each escalation window boundary, all escalation and attribution counts clear. -/
  | escWindowEnd
  /-- COLLECTOR_WATCHDOG (R33). A collector copy misses its 1 µs heartbeat, so the watchdog forces DEVICE_HOLD. -/
  | collectorWatchdog
  /-- TENANT_FREEZE (R49). FC_TENANT_CMD op freeze freezes a tenant. -/
  | tenantFreeze (t : BitVec 16)
  /-- TENANT_RELEASE (R49). FC_TENANT_CMD op release releases a frozen tenant. -/
  | tenantRelease (t : BitVec 16)
  /-- PORT_FREEZE (R49). FC_PORT_CMD op freeze freezes a port. -/
  | portFreeze (p : Port)
  /-- PORT_RELEASE (R49). FC_PORT_CMD op release releases a frozen port. -/
  | portRelease (p : Port)
  /-- SLICE_FREEZE (R49). FC_SLICE_CMD op freeze freezes a slice. -/
  | sliceFreeze (n : Slice)
  /-- SLICE_RELEASE (R49). FC_SLICE_CMD op release releases a slice in RETENTION, or is refused. -/
  | sliceRelease (n : Slice)
  /-- HOLD (R44). Writing FC_HOLD enters DEVICE_HOLD. -/
  | hold
  /-- FC_INJECT (R511). An FC_INJECT go is handled as a detection with injected set, or is ignored. -/
  | fcInject (v : Word)
  /-- LOG_POP (R48). A read of FC_LOG_HEAD pops the oldest fault record and latches its time. -/
  | logPop
  /-- SELFTEST (R54). FC_SELFTEST go starts a self-test target on the strip or a slice in RETENTION, or completes BUSY. -/
  | selftest (v : Word)
  /-- SELFTEST_DONE (R54). A requested self-test completes with pass or a first failing item. -/
  | selftestDone (n : Slice) (firstFail : Option (BitVec 16))
  /-- STRIP_ROTATE (R50). Every rotate_s the strip moves to the next pipeline that is not retired. -/
  | stripRotate (n : Slice)
  /-- STRIP_STALL (R50). The next pipeline still holds frames 100 µs after it stopped accepting, so it returns to service. -/
  | stripStall (n : Slice)
  /-- STRIP_TEST_DONE (R51). A strip pipeline's test, reference frames included, completes or retires the pipeline. -/
  | stripTestDone (n : Slice) (fault : Option (BitVec 16))
  /-- CO_READ (R38). CS_CO_CMD op READ reads a CO entry into W0 and W1. -/
  | coRead (n : Slice)
  /-- CO_WRITE (R38). CS_CO_CMD op WRITE writes the shadow, then word 0, then word 1 of a CO entry. -/
  | coWrite (n : Slice)
  /-- CO_INVALIDATE (R57). CS_CO_CMD op invalidate invalidates a CO entry with its shadow. -/
  | coInvalidate (n : Slice)
  /-- CO_SCRUB (R39). Once per scrub_ms, every CO entry is compared with its shadow and repaired or invalidated. -/
  | coScrub (n : Slice)
  /-- REGISTER_WRITE (R516). A write to a register with no row of its own stores its fields, or is ignored whole under the range rules. -/
  | registerWrite (o : Originator) (addr : BitVec 40) (v : BusData)
  /-- CS_PERMIT_READ (R40). A register read of CS_PERMIT returns the AND of the two permit copies and raises F-0x809 when they differ. -/
  | csPermitRead (n : Slice) (s : Fin 64) (w : Fin 1024)
  /-- HOST_BAD_ACCESS (R392). A narrower or unaligned host access to BAR0 is discarded, or returns zero if it is a read, and sets TW_HSTATUS.bad_access. -/
  | hostBadAccess
  /-- RNG_HEALTH_PASS (R328). The entropy source passes its health tests again, so rng_ok sets and imports are no longer refused with RANGE. -/
  | rngHealthPass
  /-- TS_CLK_RELOCK (R477). TS_CLK_IN returns and the timebase relocks its rate to it, which ends holdover. -/
  | tsClkRelock
  /-- FAULT_CLEAR (R69). A local fault ends, or remote fault ordered sets stop arriving, so the port stops sending remote fault or idles and starts its up_hold time toward UP. -/
  | faultClear (p : Port) (remote : Bool)
  /-- POWER_ON (R474). Power is applied to the device, and a device reset of cause POWER_ON initialises every register, array and count. -/
  | powerOn
  /-- MSIX_FUNCTION_CONTROL (R424). The host changes MSI-X Enable, the Function Mask or Bus Master Enable in configuration space, which makes the host target available or unavailable and restarts stranding timing. -/
  | msixFunctionControl (enable mask busMaster : Bool)
  deriving DecidableEq, Repr

end Sys2Proof
end

