-- ==== Sys2Proof/Decode.lean ====
section
/-! DEFINITION. The commands that the table's words spell. -/

namespace Sys2Proof

/-- The command that a word of spec/opcode_table.json spells. The table gives no row any bits: commands reach the block
as register accesses, frames, pin events and the like, not as words; so no word spells a command. -/
def decodeTableWord (_nbits _w : Nat) : Option Instr := none

end Sys2Proof
end

