-- ==== Sys2Proof/Machine/Crc.lean ====
section
/-! DEFINITION. The four check values of R332 and the folding of R333 to R336. -/

namespace Sys2Proof.Machine

/-- A check-value algorithm (R332): its width, its polynomial (in the bit order in which the register shifts), and
whether bytes enter least significant bit first. -/
structure CrcKind where
  width : Nat
  poly : Nat
  reflected : Bool
  deriving DecidableEq, Repr

/-- CRC-32: 0x04C11DB7, reflected (R332). -/
def crc32 : CrcKind := ⟨32, 0xEDB88320, true⟩
/-- CRC-32C: 0x1EDC6F41, reflected (R332). -/
def crc32c : CrcKind := ⟨32, 0x82F63B78, true⟩
/-- CRC-16/CCITT: 0x1021, not reflected (R332). -/
def crc16 : CrcKind := ⟨16, 0x1021, false⟩
/-- CRC-64/ECMA: 0x42F0E1EBA9EA3693, reflected (R332). -/
def crc64 : CrcKind := ⟨64, 0xC96C5795D7870F42, true⟩

/-- All ones of the width of `k`: the preset mask and final XOR of R332. -/
def CrcKind.ones (k : CrcKind) : Nat := 2 ^ k.width - 1

/-- One bit step of the register `r`. -/
def crcBit (k : CrcKind) (r : Nat) : Nat :=
  if k.reflected then
    if r % 2 = 1 then (r >>> 1) ^^^ k.poly else r >>> 1
  else
    if r >>> (k.width - 1) = 1 then ((r <<< 1) % 2 ^ k.width) ^^^ k.poly else r <<< 1

/-- `n` bit steps. -/
def crcBits (k : CrcKind) : Nat → Nat → Nat
  | 0, r => r
  | n + 1, r => crcBits k n (crcBit k r)

/-- One byte enters the register: least significant bit first when reflected, most significant first otherwise. -/
def crcByte (k : CrcKind) (r : Nat) (b : Byte) : Nat :=
  crcBits k 8 (if k.reflected then r ^^^ b.toNat else r ^^^ (b.toNat <<< (k.width - 8)))

/-- The check value of bytes `d` with initial value `v` (R332, R333). -/
def crc (k : CrcKind) (v : Nat) (d : List Byte) : Nat :=
  d.foldl (crcByte k) (v ^^^ k.ones) ^^^ k.ones

/-- `n` bytes of `v`, most significant first. -/
def beBytes : Nat → Nat → List Byte
  | 0, _ => []
  | n + 1, v => BitVec.ofNat 8 (v >>> (8 * n)) :: beBytes n v

/-- `n` bytes of `v`, least significant first (R4). -/
def leBytes : Nat → Nat → List Byte
  | 0, _ => []
  | n + 1, v => BitVec.ofNat 8 v :: leBytes n (v >>> 8)

/-- The number that bytes name, most significant first. -/
def beNat (d : List Byte) : Nat := d.foldl (fun a b => a * 256 + b.toNat) 0

/-- The number that bytes name, least significant first (R4). -/
def leNat : List Byte → Nat
  | [] => 0
  | b :: r => b.toNat + 256 * leNat r

/-- A folded check (R335): the check of the data followed by the 9-byte fold block of the structure code and the
folded value. -/
def crcFold (k : CrcKind) (code folded : Nat) (d : List Byte) : Nat :=
  crc k 0 (d ++ BitVec.ofNat 8 code :: beBytes 8 folded)

end Sys2Proof.Machine
end

