-- ==== Sys2Proof/Config.lean ====
section
/-! DEFINITION. What the spec leaves open and an implementation fixes: values without a body, so that no proof can
see what they are. A statement that mentions one holds whatever it is. -/

namespace Sys2Proof

/-- The n-th value drawn from a random source of the device: the WRED draw of R259, the random numbers of R352 and the
outputs of the random bit generator of R328. UNVERIFIED free value, log entry 5. -/
opaque Config.draw : Nat → BitVec 64

/-- How many charges a ledger accumulator holds while the stack of the books is not ACTIVE (R293): no rule states it.
UNVERIFIED free value, log entry 8. -/
opaque Config.accumulatorDepth : Nat

/-- What a parser field reads of a byte that lies beyond the frame (R91, R95): no rule states it. The argument is the offset.
UNVERIFIED free value, log entry 9. -/
opaque Config.parserBeyond : Nat → BitVec 8

/-- The private key of the device (R319), per unit and never readable. UNVERIFIED free value, log entry 6. -/
opaque Config.devicePrivateKey : Nat

/-- The SHA-384 hash of boot key k that the fuses hold (R387), per unit and never readable. UNVERIFIED free value, log entry 3. -/
opaque Config.keyHash : Nat → List (BitVec 8)

/-- What PW_VRDATA.vout_mv holds after a reading in a VOUT_MODE that is not LINEAR16 (R498 converts only that): the arguments are
VOUT_MODE and READ_VOUT. UNVERIFIED free value, log entry 7. -/
opaque Config.vrVout : BitVec 8 → BitVec 16 → BitVec 16

/-- The bit errors that the PRBS checker of a lane counts from its start (SD_PRBS_ERR of 03): the line decides them. The arguments
are the lane, 96 for each slice, and the time since reset. UNVERIFIED free value, log entry 11. -/
opaque Config.bitErrors : Nat → Nat → BitVec 64

/-- The horizontal and vertical margin of an adapted lane as SD_LANESTAT reports them (03): the line decides them. The arguments are
the lane, 96 for each slice, and the time since reset. UNVERIFIED free value, log entry 11. -/
opaque Config.eye : Nat → Nat → BitVec 32

/-- What has arrived of a frame in reception on a port when the port leaves UP by a cause that carries it in no operand: a bus write
of PT_CFG, a lane forced down, a reference clock lost (R75). None: no frame is in reception. The arguments are the port and how many
random values have been drawn. UNVERIFIED free value, log entry 11. -/
opaque Config.midFrame : Nat → Nat → Option (List (BitVec 8))

/-- The levels that the board puts on GPIO[15:0] (GL_GPIO_IN of 22). The argument is the time since reset. UNVERIFIED free value, log
entry 3. -/
opaque Config.gpio : Nat → BitVec 16

end Sys2Proof
end

