-- ==== Sys2Proof/Machine/State.lean ====
section
/-! DEFINITION. The state of the device as plain data, and the state after reset.
Every register of the register maps and every on-die array lives in `Hw.words`, keyed by name; what the spec gives the
machine beside its registers (frames, queues, contexts, state machines) has a field of its own. -/

namespace Sys2Proof.Machine

/-- One word of a register or array: its name, its slice (0 for a device-wide register), its edition bank (0 for an
unbanked register) or copy, and its row-major index. -/
structure Reg where
  name : RegName
  sl : Nat
  bank : Nat
  ix : Nat
  deriving DecidableEq, Repr

/-- A fault record on its way to the collector (R45): code, origin (0 to 7 a slice, 8 the I/O die), pipeline (15
none), logical port (0x3FF none), tenant, TAI time of detection, whether FC_INJECT made it, the reaction a command named
(R514), and whether its origin's record queue still had room (R48). -/
structure FaultRec where
  code : Nat
  origin : Nat
  pipe : Nat
  port : Nat
  tenant : Option Nat
  time : Nat
  injected : Bool
  commanded : Option Nat
  queued : Bool
  deriving DecidableEq, Repr

/-- A logged record with the reaction applied (FC_LOG_HEAD). -/
structure LogRec where
  fault : FaultRec
  reaction : Nat
  deriving DecidableEq, Repr

/-- What the test strip of a slice does (R50 to R54): it tests the pipeline FC_STRIP.strip; the given next pipeline has
stopped accepting and completes its frames; it waits for the rotation timer after a retirement; or it rests, its test
done, until the next rotation. -/
inductive StripPhase
  | testing
  | draining (next : Nat)
  | waiting (former : Nat)
  | rest
  | none
  deriving DecidableEq, Repr

/-- Strip state of a slice: its phase, the target of a self-test that runs (R54), the edition bit that was current when the strip's
test started (R227), the pipelines that PIPELINES_ALL has still to test, and the first item that the self-test found to fail. -/
structure StripSt where
  phase : StripPhase
  selftest : Option Nat
  ed : Nat
  left : List Nat
  failed : Option Nat
  deriving DecidableEq, Repr

/-- The fault collector (R43 to R49). -/
structure FcSt where
  queue : List FaultRec
  log : List LogRec
  win : List (Nat × Nat)
  strip : List StripSt
  deriving DecidableEq, Repr

/-- A frame in a receive FIFO (R73, R78): the model's number for it, its ingress timestamp, the bytes that have
arrived (FCS included), whether it was released early, its tail status once known (0 good, else the reason), and its
length as received when MACsec verified it. -/
structure RxFrame where
  fid : Nat
  ts : Nat
  bytes : List Byte
  early : Bool
  tail : Option Nat
  secy : Option Nat
  deriving DecidableEq, Repr

/-- A port beside its registers: its receive FIFO, the early-released frame still in reception with its head, whether arriving bytes
are discarded up to the next start delimiter (R74, R75), whether UP was left and down_hold_us runs (R69), and the reason with
which copies reaching its queues are discarded (R72; 0 none). -/
structure PortSt where
  fifo : List RxFrame
  cur : Option (Nat × List Byte)
  orphan : Bool
  leftUp : Bool
  flush : Nat
  deriving DecidableEq, Repr

/-- A port after reset: nothing received, nothing lost. -/
def PortSt.idle : PortSt := ⟨[], none, false, false, 0⟩

/-- An entry of the latent-write buffer of a routine (R150). -/
inductive Latent
  | cnt (ix bytes : Nat)
  | meter (pol colour len : Nat)
  | ledger (line : Nat)
  | learn (sub : Nat) (key value : Nat)
  deriving DecidableEq, Repr

/-- A lookup launched and not yet landed (R123, R124): table, result slot, landing engine, launch order, key, sub
field, and, once searched, the 128-bit result and the drop reason of an error. -/
structure Launch where
  table : Nat
  slot : Nat
  land : Nat
  ord : Nat
  key : List Byte
  sub : Nat
  done : Option (BitVec 128 × Nat)
  deriving DecidableEq, Repr

/-- The enforced parts of results recorded with a frame (R172) and the police drop of R272: guard deny by an entry or by a miss, rule drop,
forward of the latest launch (order, kind, dest, queue), copies requested. -/
structure Verdicts where
  deny : Bool
  denyMiss : Bool
  drop : Bool
  fwd : Option (Nat × Nat × Nat × Option Nat)
  punts : List Nat
  mirrors : List Nat
  police : Bool
  deriving DecidableEq, Repr

/-- What travels with a frame beside its bytes and MD: the model's number, recirculations so far (R147), whether it is
a mirror copy, a clerk-transmitted frame, a copy of a group (R242), a frame received on a pair link (R246), whether it was
released early (R78), its length as received when MACsec verified it, the next-hop port that R446 chose (0x3FF none), MD
bytes 20 to 31 and 36 to 39 as the parser wrote them (R148), the requester of a mirror copy's original (R246), and the port that
received it (0x3FF none). -/
structure FrInfo where
  fid : Nat
  recirc : Nat
  mirror : Bool
  clerk : Bool
  replica : Bool
  pair : Bool
  early : Bool
  secy : Option Nat
  hop : Nat
  parsed : List Byte
  charged : Option Nat
  rx : Nat
  deriving DecidableEq, Repr

/-- Where a context stands: in the input queue of its stage, running at a microword, ended with its fix to come, or
past E3 before its countersign decision. -/
inductive CtxPh
  | ready
  | run (ua : Nat)
  | ended
  | countersign
  deriving DecidableEq, Repr

/-- What an egress context carries of its copy: the port, its queue and colour, whether it recirculates, its gate flag (R278),
whether it is sent by cut-through, its buffer and owner tag, its buffer header, the timestamp request at the fix of E3 (R480),
and the outgoing bytes formed at that fix, without FCS. `whole` says that the copy's last byte is present; `window` is the
counted length and the window end of a gated pick (R276). -/
structure EgCtx where
  copy : Nat
  port : Nat
  queue : Nat
  colour : Nat
  recircQ : Bool
  gateWin : Bool
  cut : Bool
  buffer : Nat
  tag : Nat
  ext : List Byte
  request : Nat
  out : List Byte
  whole : Bool
  window : Option (Nat × Nat)
  deriving DecidableEq, Repr

/-- A request in the clearing house (R203): a LEARN with its source port, tenant, edition and timestamp (R128), and whether the twin
partner sent it; an AGE of an entry as the scanner saw it; an AGED record of the twin partner with its mapped value; or a
command of FT_CH_CMD with its op and the values it was written with. -/
inductive ChReq
  | learn (sub : Nat) (key value port tenant ed ts : Nat) (twin : Bool)
  | age (ix : Nat) (sub : Nat) (key : Nat) (seen : Nat)
  | twinAged (sub : Nat) (key value : Nat)
  | cmd (op sub key data : Nat)
  deriving DecidableEq, Repr

/-- A packet context of a pipeline (R113, R144): its number, slice, pipeline, engine (0 to 11 I0 to I11, 12 to 15 E0
to E3), registers, header vector, metadata, the parser's metadata (R105), the latent writes of its routine, the LEDGER lines and the
learn requests that it carries to its ingress fix (R152, R203), the frame's bytes and tail status. -/
structure Ctx where
  id : Nat
  sl : Nat
  pipe : Nat
  engine : Nat
  ph : CtxPh
  hv : List Byte
  md : List Byte
  pmd : List Byte
  g : List (BitVec 32)
  p : List Bool
  c : List Bool
  lr : List (BitVec 128)
  rstack : List Nat
  beats : Nat
  latent : List Latent
  carried : List Nat
  learns : List ChReq
  metered : List (Nat × Nat)
  launches : List Launch
  nord : Nat
  verdicts : Verdicts
  bytes : List Byte
  tail : Option Nat
  info : FrInfo
  eg : Option EgCtx
  deriving DecidableEq, Repr

/-- A frame or copy in the cell former (R231 to R234): its number, source slice and pipeline, destination slice,
extension (MD as R233 forms it), bytes so far, tail status, whether places were granted, cells formed so far, and the number of the
ingress context that it still holds (the copies of a group hold one together). -/
structure Former where
  id : Nat
  src : Nat
  pipe : Nat
  dst : Nat
  ext : List Byte
  bytes : List Byte
  tail : Option Nat
  info : FrInfo
  granted : Bool
  cells : Nat
  ctx : Option Nat
  deriving DecidableEq, Repr

/-- A crossbar cell in flight (R232), with the plane that carries it and its check field. -/
structure Cell where
  src : Nat
  pipe : Nat
  dst : Nat
  seq : Nat
  first : Bool
  last : Bool
  filler : Bool
  index : Nat
  tail : Nat
  early : Bool
  ext : List Byte
  data : List Byte
  info : FrInfo
  plane : Nat
  check : Nat
  deriving DecidableEq, Repr

/-- One stream's state (R231, R237): the next sequence number at the source, the expected one at the destination, the
held cells, the frame in reassembly (its landing number and next cell index), whether reassembly discards up to the next
first cell, and whether a cell check failure was recorded at this resequencer since E last advanced (R238). -/
structure Stream where
  next : Nat
  exp : Nat
  held : List Cell
  reasm : Option (Nat × Nat)
  skip : Bool
  checkFail : Bool
  deriving DecidableEq, Repr

/-- A stream after reset. -/
def Stream.idle : Stream := ⟨0, 0, [], none, false, false⟩

/-- A frame that a source slice has sent and not yet counted out (R241): its stream, the sequence number of its first cell,
and its edition bit. -/
structure Unacked where
  key : Nat × Nat × Nat
  seq : Nat
  bit : Nat
  deriving DecidableEq, Repr

/-- A message back to the source slice of a stream (R241): an acknowledgement of the frame whose first cell has a
sequence number, or a loss notice for a range of them. -/
structure Notice where
  key : Nat × Nat × Nat
  loss : Bool
  seq : Nat
  count : Nat
  deriving DecidableEq, Repr

/-- Where a landing frame stands with the allocator (R248, R249): it needs no buffer; it requests a denomination on a
write port, upsized or not; or it has a buffer with an owner tag. -/
inductive AllocSt
  | none
  | want (d wport : Nat) (upsized : Bool)
  | has (buffer tag : Nat)
  deriving DecidableEq, Repr

/-- A frame landing in its destination slice, from its first released cell until its last is written (R248): its stream,
its extension and bound length, the data released and not yet written, all data so far, its tail status once the last cell
is released, the queues and numbers of its copies, its requester and its request. -/
structure Landing where
  id : Nat
  sl : Nat
  key : Nat × Nat × Nat
  ext : List Byte
  info : FrInfo
  bound : Nat
  bytes : List Byte
  got : Nat
  tail : Option Nat
  copies : List (Nat × Nat)
  requester : Nat
  alloc : AllocSt
  deriving DecidableEq, Repr

/-- An allocated buffer with its owner record and content (R250): owner tag, reference count, buffer header, bytes. -/
structure Buf where
  tag : Nat
  refs : Nat
  ext : List Byte
  bytes : List Byte
  info : FrInfo
  deriving DecidableEq, Repr

/-- The descriptor of a queued copy (R253), and whether it passes its check. -/
structure Desc where
  buffer : Nat
  len : Nat
  tag : Nat
  tenant : Nat
  tcheck : Nat
  ed : Nat
  port : Nat
  queue : Nat
  colour : Nat
  early : Bool
  replica : Bool
  good : Bool
  deriving DecidableEq, Repr

/-- A copy in an egress queue (R258 to R262): its number, descriptor, buffer header, bound length, the requester, whether
it recirculates, whether it was granted a buffer, whether its last cell is written, whether its scheduler sees it, whether
it is sent by cut-through, its admission time (TAI), whether the link to it passes its check (R281), and the finish time that it
received at the head of its queue (R267). -/
structure QCopy where
  id : Nat
  desc : Desc
  ext : List Byte
  bound : Nat
  requester : Nat
  written : Bool
  whole : Bool
  visible : Bool
  cut : Bool
  enq : Nat
  linkOk : Bool
  fin : Option Nat
  deriving DecidableEq, Repr

/-- A copy read back from the deep buffer that waits in the drain stage (R360, R363), what travels with it, and whether it has been
refused a buffer. -/
structure StageCopy where
  len : Nat
  requester : Nat
  colour : Nat
  replica : Bool
  admitted : Nat
  ext : List Byte
  bytes : List Byte
  info : FrInfo
  waited : Bool
  deriving DecidableEq, Repr

/-- A block of a queue in the drain stage: its number, bytes, and, once it has arrived, the copies still to be moved. -/
structure StageBlk where
  block : Nat
  used : Nat
  copies : Option (List StageCopy)
  deriving DecidableEq, Repr

/-- A purge walk of a queue (R364): the reason, and whether it takes only the copies of one edition bit. -/
structure Purge where
  reason : Nat
  only : Option Nat
  deriving DecidableEq, Repr

/-- An egress queue (R257 to R267, R359 to R364): its on-die copies in admission order; copies admitted to its HBM part
and not yet in a block; its blocks, oldest first, whether the newest is open, its fill, the copies in it and the sequence of
the next block; blocks in the drain stage; a purge walk; the stored occupancy and copy count; WRED average (8 fraction
bits), deficit and last finish time. -/
structure QueueSt where
  die : List QCopy
  spill : List QCopy
  blocks : List Nat
  isOpen : Bool
  fill : Nat
  packed : Nat
  bseq : Nat
  head : Nat
  stage : List StageBlk
  purge : Option Purge
  occ : Nat
  cnt : Nat
  hbm : Nat
  avg : Nat
  deficit : Int
  flast : Nat
  deriving DecidableEq, Repr

/-- A queue after reset. -/
def QueueSt.empty : QueueSt := ⟨[], [], [], false, 0, 0, 0, 0, [], none, 0, 0, 0, 0, 0, 0⟩

/-- A port scheduler (R265 to R267, R273 to R276): virtual time, DWRR turn and whether its quantum was added; the
operative gate list's length, a start of its cycle, the entry in force and its start, and whether that entry fails its check;
a pending list's length and start instant; the calendar slots in force, and the queues whose calendar word failed its check, one
bit per queue. -/
structure Sched where
  v : Nat
  turn : Nat
  added : Bool
  len : Nat
  base : Nat
  entry : Nat
  start : Nat
  shutEntry : Bool
  newLen : Nat
  newStart : Nat
  slots : Nat
  shut : Nat
  deriving DecidableEq, Repr

/-- A scheduler after reset: the one-entry reset list in force. -/
def Sched.idle : Sched := ⟨0, 0, false, 1, 0, 0, 0, false, 0, 0, 0, 0⟩

/-- What a slice holds of a copy packed into a block: the block, the copy's offset after the block's header, its stored length, its
edition bit, and what travels with it (log entry 57). -/
structure DbCopy where
  block : Nat
  off : Nat
  len : Nat
  ed : Nat
  info : FrInfo
  deriving DecidableEq, Repr

/-- The deep buffer of a slice (R361): the high-water mark, the free block numbers on die, the head of the free list that is linked
through the blocks, and the copies packed into its blocks. -/
structure DbSt where
  high : Nat
  stock : List Nat
  list : Option Nat
  packed : List DbCopy
  deriving DecidableEq, Repr

/-- A deep buffer none of whose blocks has been used. -/
def DbSt.empty : DbSt := ⟨0, [], none, []⟩

/-- What the countersign decided a frame on (R40): carried tenant, key kind, whether the carried tag checked, the tenant of
the Shogen header, the words of the matched entry, and whether the permit bit of its service and the tenant was set. -/
structure Evidence where
  tenant : Nat
  kind : Nat
  tagOk : Bool
  shogen : Option Nat
  entry : Option (Nat × Nat)
  permit : Bool
  deriving DecidableEq, Repr

/-- What the blocks before the transmit path tell it of a copy already handed over: further bytes, its good end, a cause
that makes it bad, each with the stored length once the copy is written; a frame that the device itself makes for a port; a port that
cuts off its frame; a key slot (or every one) whose bound frames end, with the keys (slot, bank, key) that were overwritten; and a
device reset or a fuse operation, which the permanent state takes. -/
inductive Note
  | data (copy : Nat) (bytes : List Byte)
  | whole (copy : Nat) (len : Nat)
  | bad (copy : Nat) (reason : Nat) (len : Option Nat)
  | cutOff (port : Nat)
  | own (port copy : Nat) (ev : Evidence) (bytes : List Byte)
  | keyGone (slot : Option Nat) (reason : Nat) (keys : List (Nat × Nat × List Byte))
  | revoke (key : Nat)
  | raiseVersion (v : Nat)
  | reset (cause : Nat)
  deriving DecidableEq, Repr

/-- A free request for a buffer (R250). -/
structure FreeReq where
  sl : Nat
  buffer : Nat
  tag : Nat
  deriving DecidableEq, Repr

/-- The pool of a slice (R244 to R254): the carve in force, the allocated buffers by number, the numbers whose bitmap bit reads allocated, the
numbers of bitmap words whose check fails (denomination, bank, leaf word, or 64 for the summary word), the buffers whose owner record
fails its check, the owner tag that the record of a buffer last held, the next serial of each requester, and the withheld
buffers. -/
structure PoolSt where
  carve : Nat
  bufs : List (Nat × Buf)
  taken : List Nat
  badWords : List (Nat × Nat × Nat)
  badRecs : List Nat
  tags : List (Nat × Nat)
  serial : List (Nat × Nat)
  withheld : List Nat
  deriving DecidableEq, Repr

/-- A pool after reinitialisation to a carve (R245). -/
def PoolSt.carved (carve : Nat) : PoolSt := ⟨carve, [], [], [], [], [], [], []⟩

/-- The pool of the reset carve (R245). -/
def PoolSt.empty : PoolSt := PoolSt.carved 0x8000200008000330

/-- One charge of a ledger update (R284). -/
structure Charge where
  tenant : Nat
  line : Nat
  err : Bool
  pkts : Nat
  bytes : Nat
  deriving DecidableEq, Repr

/-- A ledger update on its way (R284, R294): the slice it comes from (8 the I/O die), the parity it is stamped with,
its charges, its changes of H, T_new and T_other (R297), and whether its event fell at or after a last-gasp cut (R309). -/
structure LgUpdate where
  origin : Nat
  parity : Nat
  charges : List Charge
  h : Int
  tnew : Nat
  tother : Nat
  postCut : Bool
  deriving DecidableEq, Repr

/-- A recirculated frame on its way back to the parser of its slice (R146): what travels beside it, its MD and bytes. -/
structure RecFrame where
  sl : Nat
  info : FrInfo
  md : List Byte
  bytes : List Byte
  tail : Option Nat
  deriving DecidableEq, Repr

/-- What an arrival at the punt gate is (R375, R378): a punt copy, a frame with dest_kind CLERK, a frame that the parser
sent, or a fabric frame of a kind that goes to a punt class. -/
inductive PuntKind
  | copy | frame | parser | control
  deriving DecidableEq, Repr

/-- An arrival on its way to the punt gate: its class, what it is, source slice, tenant, edition bit, MD, bytes, and the
early-released frame whose tail it still waits for. -/
structure Punt where
  cls : Nat
  kind : PuntKind
  sl : Nat
  tenant : Nat
  ed : Nat
  md : List Byte
  bytes : List Byte
  wait : Option Nat
  deriving DecidableEq, Repr

/-- What the tail of a frame with a deferred length brings (R271, R286): remainders to the lines that its ingress fix charged,
under its stamp, and to the buckets of its colours. -/
structure Deferred where
  fid : Nat
  sl : Nat
  tenant : Nat
  lines : List (Nat × Bool)
  parity : Nat
  postCut : Bool
  pols : List (Nat × Nat)
  deriving DecidableEq, Repr

/-- A book that closes (R289): its parity, whether a chain's charges go to it, whether it still settles, and the minute,
start and end of its folio. -/
structure Closing where
  parity : Nat
  on : Bool
  settling : Bool
  minute : Nat
  start : Nat
  fin : Nat
  deriving DecidableEq, Repr

/-- A digest record of the twin partner (R307), with the partner's member number. -/
structure Digest where
  minute : Nat
  kind : Nat
  tflags : Nat
  seq : Nat
  mac : List Byte
  prev : List Byte
  member : Nat
  deriving DecidableEq, Repr

/-- The ledger beside its registers and books (R288 to R311): whether charges of each parity go to a book; the start of
the open book; the held count at the start of the oldest book not yet walked and its changes by parity; the two copies of
the tallies by parity (packets and bytes of each line, of the error sub-count, T_new and T_other); late packets and charges
lost by parity; whether F-0xB04 was raised for this close; a book that closes; whether the chain has a sealed folio; the
minute of the last folio sealed or placed; updates that accumulators hold while the books' stack is away; folios in the ring
with their place and length; the latest digest record for the next folio, the last one received, a pending mismatch, and
whether a record is awaited; the cut of last-gasp with the packets after it, its folio, and the ports that have sent; and the
addresses of the 32 MiB books that the ledger has zeroed: a record of such a book that memory does not list holds zero counts and
the check that goes with them (R292, log entry 30). -/
structure LgSt where
  bookOn : List Bool
  openStart : Nat
  base : Int
  dh : List Int
  tallyA : List (List Nat)
  tallyB : List (List Nat)
  late : List Nat
  lost : List Bool
  lateRaised : Bool
  closing : Option Closing
  sealedAny : Bool
  lastPlaced : Option Nat
  accum : List (Nat × Nat × Charge)
  ring : List (Nat × Nat × Nat)
  witness : Option Digest
  lastDigest : Option Digest
  mismatch : Bool
  awaiting : Bool
  cut : Nat
  postCut : Nat
  gasp : Option (List Byte)
  gaspDone : List Nat
  degraded : Bool
  blank : List Nat
  deriving DecidableEq, Repr

/-- The tallies of a parity at zero. -/
def tallyZero : List Nat := List.replicate 36 0

/-- The ledger after reset. -/
def LgSt.reset : LgSt :=
  ⟨[false, false], 0, 0, [0, 0], [tallyZero, tallyZero], [tallyZero, tallyZero], [0, 0], [false, false], false, none, false,
    none, [], [], none, none, false, false, 0, 0, none, [], false, []⟩

/-- What the key store holds beside its slots (R326, R328, R329): the key-bus key and the state of the CTR_DRBG, each by the number of
the first of the values drawn for it (four and six of 64 bits, log entry 93); none once it is zeroized. -/
structure CxSt where
  busKey : Option Nat
  drbg : Option Nat
  deriving DecidableEq, Repr

/-- The clearing house beside its registers: requests on their way to the queue with the early-released frame whose tail
status they wait for (R78), the queue, and the age tick (R208) as it stood when age_tick_ms last changed, with that time. -/
structure ChSt where
  coming : List (Option Nat × ChReq)
  queue : List ChReq
  tick0 : Nat
  mark : Nat
  deriving DecidableEq, Repr

/-- The edition controller beside its registers (R215 to R225): the partial drain counts, at (2 slice + bit) 2 + copy,
the fabric ports whose marker is awaited, whether CLOSE or FORCE_CLOSE was written since the last flip, whether drain_slow
has been set since then, and the contexts that a FORCE_CLOSE waits for. -/
structure EdSt where
  parts : List Nat
  await : List Nat
  permit : Bool
  slow : Bool
  forced : Option (List Nat)
  deriving DecidableEq, Repr

/-- A fabric port beside SF_LINK (R440 to R442): its transmit and previous counters, hellos accepted since it entered
SYNCING, whether the last two accepted hellos differ by one, and the neighbour's source address. -/
structure SfLinkSt where
  tx : Nat
  prev : Nat
  heard : Nat
  da : Option Nat
  deriving DecidableEq, Repr

/-- A fabric port that has never synchronised. -/
def SfLinkSt.idle : SfLinkSt := ⟨0, 0, 0, none⟩

/-- The twin block beside its registers (R453): records that wait to be sent. -/
structure TwinSt where
  queue : List (List Byte)
  deriving DecidableEq, Repr

/-- A request that the HBM controller tracks (R346, R347): address, bytes, class, whether it writes, and whether it has waited
starve_us (R349). -/
structure HbmReq where
  addr : Nat
  len : Nat
  cls : Fin 6
  write : Bool
  starved : Bool
  deriving DecidableEq, Repr

/-- The HBM controller beside its registers (R346 to R354): the tracked requests in order of entry; the requests that wait for a
tracker, a write with its data; the refresh debt of every bank of every stack (bank b of pseudo-channel p at 64 p + b); neighbour
refreshes that wait (stack, bank, intervals waited); the row open in each bank (key (stack, bank)); the bank pointer of every
pseudo-channel; of each bank the class whose turn it is and the turns it has had (key (stack, bank)); the tokens in bits of each
stack's deep-buffer and LOOKUP shares with the time they were counted (R348); the corrections of each stack in this escalation
window; and whether the tracked margin of each stack lies below its threshold. -/
structure HbmSt where
  reqs : List HbmReq
  waiting : List (HbmReq × Option (List Byte))
  debt : List (List Nat)
  near : List (Nat × Nat × Nat)
  rows : List ((Nat × Nat) × Nat)
  ptr : List (List Nat)
  turn : List ((Nat × Nat) × Nat × Nat)
  bucket : List (Nat × Nat × Nat)
  corr : List Nat
  low : List Bool
  deriving DecidableEq, Repr

/-- The HBM controller after reset. -/
def HbmSt.reset : HbmSt :=
  ⟨[], [], List.replicate 4 (List.replicate 2048 0), [], [], List.replicate 4 (List.replicate 32 0), [],
    List.replicate 4 (524288, 524288, 0), [0, 0, 0, 0], List.replicate 4 false⟩

/-- Where an interrupted clerk goes on (R418): a microword or WAIT, with C0 to C15 and the return stack's depth. -/
structure Resume where
  ua : Nat
  wait : Bool
  c : List Bool
  depth : Nat
  deriving DecidableEq, Repr

/-- An entry of a priority stack (R417 to R419): its level, the identifier of its source, and its resume point; a polled entry has
none. -/
structure EvEntry where
  level : Nat
  id : Nat
  resume : Option Resume
  deriving DecidableEq, Repr

/-- A clerk beside its registers and memories (R115, R369, R371, R372): X0 to X31, C0 to C15, C16, the return stack (top first), its
eight places (bottom first; a place keeps its entry above the depth, which R422 can restore), the microword that begins next, loads
whose data have not returned (register and data, oldest first), and the priority stack (top first). Its state is
MC_STATUS.state. -/
structure ClerkSt where
  x : List Word
  c : List Bool
  cas : Bool
  rstack : List Nat
  rstore : List Nat
  ua : Nat
  loads : List (Nat × Word)
  stack : List EvEntry
  deriving DecidableEq, Repr

/-- A clerk after reset. -/
def ClerkSt.reset : ClerkSt :=
  ⟨List.replicate 32 0, List.replicate 16 false, false, [], List.replicate 8 0, 0, [], []⟩

/-- Where the slip of the teller window stands (R396 to R404): none or its words still arriving; complete and not yet judged; judged
to execute; its deposit waiting for a free slot of a request ring (R402); its import running; ended, with its receipt still to be
placed. -/
inductive SlipPhase
  | none | complete | execute | waiting | importing | reply
  deriving DecidableEq, Repr

/-- The teller window beside its registers (R393 to R408): words that wait in the transmit FIFO; the words of the slip in assembly
or execution; its phase; whether an endpoint reset, or a resync, fell during its execution (its words then count in the FIFO no more);
receipts produced and not yet placed, each with
the clerk that committed it or none, and whether the slip waits for it; receipts in the receive FIFO with the words not yet
consumed. DISCARD is TW_HSTATUS.state 2. -/
structure TellerSt where
  fifo : List Word
  slip : List Word
  phase : SlipPhase
  orphan : Bool
  emptied : Bool
  out : List (Option Nat × Bool × List Word)
  rx : List (List Word)
  deriving DecidableEq, Repr

/-- The event controller beside its registers (R424, R426): what the host has set in configuration space (MSI-X Enable, the
Function Mask, Bus Master Enable), the vectors that have been pending since their last message, and the sources whose copies
were found to disagree (R416). -/
structure EvSt where
  msixOn : Bool
  masked : Bool
  master : Bool
  announced : List Nat
  split : List Nat
  deriving DecidableEq, Repr

/-- A performance counter set that has overflowed and waits for its sample (R434, R435): a clerk's or a slice's, its number, the
counter, and the frame (tenant, ingress port, pipeline, edition bit, timestamp) or microword (address, stack depth) once there
is one. -/
structure Armed where
  clerk : Bool
  unit : Nat
  ctr : Nat
  found : Option (List Nat)
  deriving DecidableEq, Repr

/-- What the I/O die holds beside its registers: whether the boot ROM has started and the sources it has still to try (R383, R386);
who armed a software reset and when (R474); the second of the last PPS_OUT edge while its TOD message is to come (R479); whether the
timebase is in holdover (R477); the VOUT_MODE of each regulator since polling was enabled (R498);
the state changes that the device forces and that wait for a commanded transition (R472): the slice, or 8 plus the lane, and the
state; and whether a zeroization has completed since reset (R496). -/
structure IoSt where
  rom : Bool
  sources : List Nat
  arm : Option (Originator × Nat)
  pps : Option Nat
  holdover : Bool
  vrMode : List (Option Nat)
  forced : List (Nat × Nat)
  zeroized : Bool
  deriving DecidableEq, Repr

/-- The I/O die after reset. -/
def IoSt.reset : IoSt := ⟨false, [], none, none, false, List.replicate 16 none, [], false⟩

/-- What the reconciliation sublayer of a port sends while no frame leaves it (R69): frames as they come, idles only, or remote
fault ordered sets. -/
inductive RsSends
  | frames | idles | remoteFault
  deriving DecidableEq, Repr

/-- What leaves the device: a frame on a port, with a good or an inverted FCS; what a port sends from now on as its faults have
become; an MSI-X message; a TOD message; an edge of PPS_OUT; an answer on I2C. -/
inductive Out
  | frame (port : Nat) (bytes : List Byte) (good : Bool)
  | signal (port : Nat) (s : RsSends)
  | msix (addr data : Nat)
  | tod (bytes : List Byte)
  | pps
  | i2c (bytes : List Byte)
  deriving DecidableEq, Repr

/-- An entry that a command of the rule TCAM or the Guard CAM is writing (R179): the table, slice and index, and whether the scrubber
skipped it, to read it again afterwards. -/
structure CamWrite where
  guardCam : Bool
  sl : Nat
  ix : Nat
  skipped : Bool
  deriving DecidableEq, Repr

/-- The hardware but for the transmit path and what survives a device reset. Three fields are the model's own: `drawn`, how many
random values have been drawn; `ids`, the next number for a frame, context or copy; `lastDrop`, the reason of the latest drop,
which the test strip compares (R160). `astray` holds what is left of frames that were dropped while lookups of theirs were under
way, which still land (R124). `gate` is the token bucket of a punt class, or of the capacity of the gate (64 packets, 65 bytes): the
tokens that it lacks, in parts of 1.25 ns / 1 s, and the time of its last refill (R375). -/
structure Hw where
  words : List (Reg × Word)
  bad : List Reg
  mem : List Host.Cell
  poison : List Nat
  drawn : Nat
  ids : Nat
  lastDrop : Nat
  time : Nat
  up : Nat
  fc : FcSt
  ports : List (Nat × PortSt)
  recirc : List RecFrame
  punts : List Punt
  deferred : List Deferred
  ctxs : List Ctx
  astray : List Ctx
  formers : List Former
  streams : List ((Nat × Nat × Nat) × Stream)
  flight : List Cell
  notices : List Notice
  unacked : List Unacked
  planeErr : List Nat
  planePtr : List Nat
  restoring : List Nat
  landings : List Landing
  queues : List (Nat × QueueSt)
  scheds : List (Nat × Sched)
  dbs : List (Nat × DbSt)
  notes : List Note
  sent : List Out
  pools : List (Nat × PoolSt)
  frees : List FreeReq
  lgq : List LgUpdate
  lg : LgSt
  ch : ChSt
  ed : EdSt
  moves : List (Nat × Nat)
  cam : List CamWrite
  wraps : List (Bool × Nat × Nat)
  armed : List Armed
  gate : List (Nat × Nat × Nat)
  hbm : HbmSt
  cx : CxSt
  clerks : List ClerkSt
  tw : TellerSt
  ev : EvSt
  io : IoSt
  fences : List (Nat × Nat × Nat)
  links : List (Nat × SfLinkSt)
  twin : TwinSt
  txts : List (Nat × Nat × Nat)
  wrote : List Reg
  deriving DecidableEq, Repr

/-- What the delivery of a frame is charged on (R42, R82, R285, R324): its slice and pipeline, queue, the parity stamped
at the decision and whether it fell after a last-gasp cut, whether the port is in fabric mode, its gate flag, the PROG lines
of its egress programs, whether the update waits for the frame's good end, the counted length and window end of a gated
pick (R276), and the bound length of the copy (R233). -/
structure Delivery where
  sl : Nat
  pipe : Nat
  queue : Nat
  parity : Nat
  postCut : Bool
  fabric : Bool
  gate : Bool
  lines : List Nat
  waits : Bool
  window : Option (Nat × Nat)
  bound : Nat
  deriving DecidableEq, Repr

/-- The timestamp request of a frame (R480), with what it needs of MD. -/
structure TsReq where
  op : Nat
  offset : Nat
  tag : Nat
  timestamp : Nat
  deriving DecidableEq, Repr

/-- The SA that a transmit frame has bound (R315): slot, generation, packet number, AN, SCI and its presence, the IV that the slot's
suite gave it, and, for a frame that had begun when the slot's key was overwritten (R323), the key under which its bytes had left. -/
structure SaBind where
  slot : Nat
  gen : Nat
  pn : Nat
  an : Nat
  sci : Nat
  withSci : Bool
  iv : List Byte
  left : Option (List Byte)
  deriving DecidableEq, Repr

/-- How far a frame of the transmit path has come: its bytes without FCS so far, whether its last byte is present, the
stored length of its copy once that is written (R285), whether it is sent by cut-through, its timestamp request, its time of transmission once begun, its SA, the reason for which it is to be
stomped, whether its lane is squelched (R85), and, on a MACsec port, its end until the SecY engine has reported it (R324). -/
structure TxSt where
  bytes : List Byte
  whole : Bool
  stored : Option Nat
  cut : Bool
  ts : TsReq
  started : Option Nat
  sa : Option SaBind
  stomp : Option Nat
  squelch : Bool
  ended : Option Bool
  deriving DecidableEq, Repr

/-- A frame that has passed its countersign decision (R40, R80): the evidence, the egress port, the number of its copy, the ledger
update its delivery makes, and its progress. -/
structure TxFrame where
  ev : Evidence
  port : Nat
  copy : Nat
  dl : Delivery
  st : TxSt
  deriving DecidableEq, Repr

/-- What a device reset keeps (R387, R474): the fuses and the reset cause and count. -/
structure Perm where
  revoked : BitVec 4
  present : BitVec 4
  minVersion : BitVec 6
  cause : Nat
  count : Nat
  deriving DecidableEq, Repr

/-- The device. -/
structure Dev where
  hw : Hw
  tx : List TxFrame
  perm : Perm
  deriving DecidableEq, Repr

/-- The state of the block: the device and the commands that wait, first in first out. -/
structure State where
  dev : Dev
  pending : List Instr
  deriving DecidableEq, Repr

/-- Why a step stops with a fault. -/
inductive Fault
  /-- Raised by a command whose operands are no event of the device (WellFormed refuses them). Safe: the model stops. -/
  | illFormed
  deriving DecidableEq, Repr

/-- Why a step is refused. -/
inductive Refusal
  /-- Answered by an arm that has no meaning yet. Safe: the model stops. -/
  | notModelled (mnemonic : String)
  deriving DecidableEq, Repr

/-- What a device reset leaves of the strip of a slice: it tests the spare pipeline 8 (R50). -/
def StripSt.reset : StripSt := ⟨.testing, none, 0, [], none⟩

/-- The hardware right after a device reset: every register and array at its reset value, nothing held, nothing in
flight. -/
def Hw.reset : Hw where
  words := []
  bad := []
  mem := []
  poison := []
  drawn := 10
  ids := 0
  lastDrop := 0
  time := 0
  up := 0
  fc := ⟨[], [], [], List.replicate 8 StripSt.reset⟩
  ports := []
  recirc := []
  punts := []
  deferred := []
  ctxs := []
  astray := []
  formers := []
  streams := []
  flight := []
  notices := []
  unacked := []
  planeErr := [0, 0, 0, 0]
  planePtr := List.replicate 8 0
  restoring := []
  landings := []
  queues := []
  scheds := []
  dbs := []
  notes := []
  sent := []
  pools := []
  frees := []
  lgq := []
  lg := LgSt.reset
  ch := ⟨[], [], 0, 0⟩
  ed := ⟨List.replicate 32 0, [], false, false, none⟩
  moves := []
  cam := []
  wraps := []
  armed := []
  gate := []
  hbm := HbmSt.reset
  cx := ⟨some 0, some 4⟩
  clerks := List.replicate 8 ClerkSt.reset
  tw := ⟨[], [], .none, false, false, [], []⟩
  ev := ⟨false, false, false, [], []⟩
  io := IoSt.reset
  fences := []
  links := []
  twin := ⟨[]⟩
  txts := []
  wrote := []

/-- The fuses and reset record of a unit that has never been revoked or raised, after the reset of POWER_ON. -/
def Perm.reset : Perm := ⟨0, 15, 0, 0, 0⟩

/-- The device right after reset, with no command waiting. -/
def State.reset : State := ⟨⟨Hw.reset, [], Perm.reset⟩, []⟩

end Sys2Proof.Machine
end

