-- ==== Sys2Proof/Machine/Ops.lean ====
section
/-! DEFINITION. The named operations over the state that every family of commands shares: bit fields, sparse stores in
canonical form, registers and their reset values, memory, fault records, charges, counters. -/

namespace Sys2Proof.Machine

/-! ### Bit fields -/

/-- Bits [hi:lo] of a number. -/
def bits (v hi lo : Nat) : Nat := (v >>> lo) % 2 ^ (hi + 1 - lo)

/-- `v` with bits [hi:lo] replaced by the low bits of `x`. -/
def setBits (v hi lo x : Nat) : Nat :=
  v - (bits v hi lo <<< lo) + ((x % 2 ^ (hi + 1 - lo)) <<< lo)

/-- Bit `k` of a number. -/
def bit (v k : Nat) : Bool := v.testBit k

/-- 1 for true, 0 for false. -/
def ofBool (b : Bool) : Nat := if b then 1 else 0

/-- The two's complement reading of the low `n` bits of `v`. -/
def signed (n v : Nat) : Int := if v % 2 ^ n < 2 ^ (n - 1) then (v % 2 ^ n : Int) else (v % 2 ^ n : Int) - 2 ^ n

/-- The low `n` bits of the two's complement form of `i`. -/
def unsigned (n : Nat) (i : Int) : Nat := (i % 2 ^ n).toNat

/-- Rounding up to whole units. -/
def ceilDiv (a b : Nat) : Nat := (a + b - 1) / b

/-- Element `i` of a list, or `d` beyond its end. -/
def nth {α : Type} (l : List α) (i : Nat) (d : α) : α := l.getD i d

/-- A list with element `i` replaced. -/
def setNth {α : Type} (l : List α) (i : Nat) (x : α) : List α := l.set i x

/-- The sublist of `n` elements from `i`. -/
def slice {α : Type} (l : List α) (i n : Nat) : List α := (l.drop i).take n

/-- Exactly `n` bytes: the first `n` of the list, zero bytes added at its end. -/
def padTo (n : Nat) (d : List Byte) : List Byte := (d ++ List.replicate (n - d.length) 0#8).take n

/-- A list whose elements from `i` on are overwritten by `x`. -/
def overwrite {α : Type} (l : List α) (i : Nat) (x : List α) : List α := l.take i ++ x ++ l.drop (i + x.length)

/-- The first element that satisfies `p`, replaced by `f` of it. -/
def updFirst {α : Type} (p : α → Bool) (f : α → α) : List α → List α
  | [] => []
  | a :: r => if p a then f a :: r else a :: updFirst p f r

/-- The list without its first element that satisfies `p`. -/
def delFirst {α : Type} (p : α → Bool) : List α → List α
  | [] => []
  | a :: r => if p a then r else a :: delFirst p r

/-! ### Sparse stores in canonical form

A store lists its entries in rising order of a number given to each key, and lists no entry that holds the value an
unlisted key reads as, so that equal stores are equal data. -/

/-- What the store reads at `k`: its entry, or the default of `k`. -/
def FMap.get {K V : Type} [DecidableEq K] (d : K → V) (m : List (K × V)) (k : K) : V :=
  match m with
  | [] => d k
  | (k', v) :: r => if k' = k then v else FMap.get d r k

/-- The store without its entry at `k`. -/
def FMap.del {K V : Type} [DecidableEq K] (m : List (K × V)) (k : K) : List (K × V) :=
  m.filter (fun e => e.1 ≠ k)

/-- An entry put in its place in the order. -/
def FMap.ins {K V : Type} (lt : K → K → Bool) (m : List (K × V)) (k : K) (v : V) : List (K × V) :=
  match m with
  | [] => [(k, v)]
  | (k', v') :: r => if lt k k' then (k, v) :: (k', v') :: r else (k', v') :: FMap.ins lt r k v

/-- The store with `v` at `k`. -/
def FMap.put {K V : Type} [DecidableEq K] [DecidableEq V] (lt : K → K → Bool) (d : K → V) (m : List (K × V)) (k : K)
    (v : V) : List (K × V) :=
  if v = d k then FMap.del m k else FMap.ins lt (FMap.del m k) k v

/-- The canonical form of a store. -/
def FMap.wf {K V : Type} [DecidableEq V] (lt : K → K → Bool) (d : K → V) (m : List (K × V)) : Bool :=
  m.Pairwise (fun a b => lt a.1 b.1 = true) && m.all (fun e => decide (e.2 ≠ d e.1))

/-- The order of the keys that are numbers. -/
def natLt (a b : Nat) : Bool := decide (a < b)

/-- The place of a register name in the order of names. -/
def RegName.num (n : RegName) : Nat := n.ctorIdx

/-- The order of registers: by name, slice, bank, index. -/
def Reg.lt (a b : Reg) : Bool :=
  if a.name.num = b.name.num then
    if a.sl = b.sl then if a.bank = b.bank then decide (a.ix < b.ix) else decide (a.bank < b.bank)
    else decide (a.sl < b.sl)
  else decide (a.name.num < b.name.num)

/-! ### Memory (R19, R22, R476) -/

/-- What a byte that nothing has written reads as. The I/O die's memories are cleared at boot (R476); HBM holds
unspecified contents (R6). DESIGN CHOICE, log entry 4: zero. -/
def Memory.unwritten (_ : Nat) : Byte := 0#8

/-- The byte at an address. -/
def Memory.read (m : List Host.Cell) (a : Nat) : Byte := FMap.get Memory.unwritten m a

/-- The memory with a byte written. -/
def Memory.write (m : List Host.Cell) (a : Nat) (b : Byte) : List Host.Cell := FMap.put natLt Memory.unwritten m a b

/-- The canonical form of memory. -/
def Memory.wf (m : List Host.Cell) : Bool := FMap.wf natLt Memory.unwritten m

/-- `n` bytes from an address up. -/
def Memory.readBytes (m : List Host.Cell) (a : Nat) : Nat → List Byte
  | 0 => []
  | n + 1 => Memory.read m a :: Memory.readBytes m (a + 1) n

/-- Bytes written from an address up. -/
def Memory.writeBytes (m : List Host.Cell) (a : Nat) : List Byte → List Host.Cell
  | [] => m
  | b :: r => Memory.writeBytes (Memory.write m a b) (a + 1) r

/-! ### Registers -/

/-- The default reaction, escalation and floor of a fault code, as FC_POLICY shows them (R56, 23): 0 LOG, 1 tenant, 2
port, 3 slice, 4 hold. A code with no default escalation has esc_enable 0 (R511). -/
def faultDefaults (code : Nat) : Nat × Option Nat × Nat :=
  let hold := [0x001, 0x002, 0x004, 0x009, 0x010, 0x031, 0x606, 0x712, 0x82F, 0xA06]
  let slice := [0x003, 0x808, 0x812, 0x820]
  let escT := [0x801]
  let escP := [0x120, 0x802, 0xA01, 0xA02, 0xA03, 0xA04, 0xC01]
  let escS := [0x121, 0x122, 0x201, 0x202, 0x210, 0x211, 0x212, 0x401, 0x402, 0x403, 0x404, 0x410, 0x411, 0x412,
    0x413, 0x414, 0x501, 0x502, 0x603, 0x604, 0x605, 0x610, 0x611, 0x612, 0x613, 0x614, 0x615, 0x701, 0x704, 0x715,
    0x716, 0x803, 0x804, 0x805, 0x806, 0x807, 0x809, 0xB05, 0xC03]
  let dflt := if hold.contains code then 4 else if slice.contains code then 3
    else if [0x121, 0x122].contains code then 2 else 0
  let esc := if escT.contains code then some 1 else if escP.contains code then some 2
    else if escS.contains code then some 3 else none
  (dflt, esc, dflt)

/-- The fault codes that the device raises (R511). -/
def listedFaults : List Nat :=
  [0x001, 0x002, 0x003, 0x004, 0x005, 0x008, 0x009, 0x010, 0x011, 0x012, 0x013, 0x020, 0x021, 0x030, 0x031, 0x101,
   0x102, 0x110, 0x111, 0x120, 0x121, 0x122, 0x201, 0x202, 0x210, 0x211, 0x212, 0x214, 0x301, 0x302, 0x303, 0x3A1,
   0x3A2, 0x401, 0x402, 0x403, 0x404, 0x405, 0x410, 0x411, 0x412, 0x413, 0x414, 0x415, 0x501, 0x502, 0x601, 0x602,
   0x603, 0x604, 0x605, 0x606, 0x610, 0x611, 0x612, 0x613, 0x614, 0x615, 0x701, 0x702, 0x703, 0x704, 0x710, 0x711,
   0x712, 0x713, 0x715, 0x716, 0x717, 0x801, 0x802, 0x803, 0x804, 0x805, 0x806, 0x807, 0x808, 0x809, 0x80A, 0x810,
   0x811, 0x812, 0x813, 0x820, 0x821, 0x82F, 0x8F0, 0x901, 0x902, 0xA01, 0xA02, 0xA03, 0xA04, 0xA05, 0xA06, 0xA07,
   0xA08, 0xB01, 0xB02, 0xB03, 0xB04, 0xB05, 0xB06, 0xB07, 0xB08, 0xB09, 0xB0A, 0xB0B, 0xC01, 0xC02, 0xC03, 0xC04,
   0xC05, 0xC06, 0xC10, 0xC11, 0xC12, 0xD01, 0xD02, 0xD03, 0xD05, 0xE01, 0xE02]

/-- The FC_POLICY word of a code after reset. -/
def policyReset (code : Nat) : Nat :=
  let (d, e, f) := faultDefaults code
  (if e.isSome then 0x8000 else 0) + f * 0x1000 + e.getD f * 0x100 + d * 0x10

/-- The level of a shared event source after reset, as the table of R412 gives it: 15 for FC_FREEZE, STRANDED, CLERK_EXC,
CLERK_WDOG and PW, else 0. -/
def evLevelReset (n : Nat) : Nat :=
  if n = 97 ∨ n = 110 ∨ (112 ≤ n ∧ n < 128) ∨ n = 152 then 15 else 0

/-- The reset value of a register or array word: that of its map row, but for those whose map gives one per index,
and the arrays of R515, whose reset words carry the check of their index. -/
def resetWord (r : Reg) : Nat :=
  match r.name with
  | .BP_ALLOW => if r.ix = 102 ∨ r.ix = 103 then 0 else 16384 <<< 32
  | .CX_PNWARN => if r.ix = 0 then 0xC0000000 else 0xC000000000000000
  | .CX_PNSTOP => if r.ix = 0 then 0xFFFFFFFF else 0xFFFFFFFFFFFFFFFF
  | .EV_SRC => (8 <<< 8) + evLevelReset r.ix
  | .EV_PRIV => if r.ix % 64 = 0 then 15 else 0
  | .FC_POLICY => policyReset r.ix
  | .FT_CH_SEED => r.ix
  | .FT_LP_PROFILE => if r.ix = 0 then 0x444488 else 0xCCCCCCCCCC8
  | .A_TC => if r.ix % 2 = 1 then crcFold crc16 0x20 (r.ix / 2) (beBytes 14 0) else 0
  | .A_EX => if r.ix % 2 = 1 then crcFold crc16 0x27 (r.ix / 2) (beBytes 14 0) else 0
  | .A_CO => if r.ix % 2 = 1 then crcFold crc16 0x21 (r.ix / 2) (beBytes 14 0) else 0
  | .A_ROOT => crcFold crc16 0x24 r.ix (beBytes 6 0)
  | .A_SLOT => crcFold crc16 0x25 r.ix (beBytes 6 0)
  | .A_LEAF => if r.ix % 2 = 1 then crcFold crc16 0x26 (r.ix / 2) (beBytes 14 0) else 0
  | .A_CLA1 => crcFold crc16 0x22 r.ix (List.replicate 174 0#8)
  | .A_GCA => crcFold crc16 0x23 r.ix (beBytes 14 0)
  | .A_MSIX_CTL => 1
  | .MC_FUSE => 0x0F00000000000000
  | .GL_I2CT => 0x4C
  | n => (regRow n).rst

/-- The reset value as a word. -/
def regReset (r : Reg) : Word := BitVec.ofNat 64 (resetWord r)

/-- A register word. -/
def Hw.reg (h : Hw) (r : Reg) : Word := FMap.get regReset h.words r

/-- The hardware with a register word replaced. -/
def Hw.setReg (h : Hw) (r : Reg) (w : Word) : Hw := { h with words := FMap.put Reg.lt regReset h.words r w }

/-- A register word as a number. -/
def Hw.val (h : Hw) (n : RegName) (ix : Nat := 0) (sl : Nat := 0) (bank : Nat := 0) : Nat :=
  (h.reg ⟨n, sl, bank, ix⟩).toNat

/-- The hardware with a register word set from a number. -/
def Hw.setVal (h : Hw) (n : RegName) (v : Nat) (ix : Nat := 0) (sl : Nat := 0) (bank : Nat := 0) : Hw :=
  h.setReg ⟨n, sl, bank, ix⟩ (BitVec.ofNat 64 v)

/-- A field of a register. -/
def Hw.rd (h : Hw) (f : Fld) (ix : Nat := 0) (sl : Nat := 0) (bank : Nat := 0) : Nat :=
  bits (h.val f.reg ix sl bank) f.hi f.lo

/-- A one-bit field of a register as a truth value. -/
def Hw.on (h : Hw) (f : Fld) (ix : Nat := 0) (sl : Nat := 0) (bank : Nat := 0) : Bool :=
  h.rd f ix sl bank == 1

/-- The hardware with a field of a register set. -/
def Hw.wr (h : Hw) (f : Fld) (v : Nat) (ix : Nat := 0) (sl : Nat := 0) (bank : Nat := 0) : Hw :=
  h.setVal f.reg (setBits (h.val f.reg ix sl bank) f.hi f.lo v) ix sl bank

/-- A bit of a multi-bit field set. -/
def Hw.setBit (h : Hw) (f : Fld) (k : Nat) (ix : Nat := 0) (sl : Nat := 0) : Hw :=
  h.wr f (h.rd f ix sl ||| 2 ^ k) ix sl

/-- A counter advanced by `n`, wrapping at the width of its field. -/
def Hw.count (h : Hw) (f : Fld) (ix : Nat := 0) (sl : Nat := 0) (n : Nat := 1) : Hw :=
  h.wr f (h.rd f ix sl + n) ix sl

/-- A counter advanced by `n`, saturating at the width of its field. -/
def Hw.countSat (h : Hw) (f : Fld) (ix : Nat := 0) (sl : Nat := 0) (n : Nat := 1) : Hw :=
  h.wr f (min (h.rd f ix sl + n) (2 ^ (f.hi + 1 - f.lo) - 1)) ix sl

/-- Whether the stored copy `copy` of a word passes its check: only a hardware fault makes it fail. -/
def Hw.good (h : Hw) (r : Reg) : Bool := !h.bad.contains r

/-- A word's copy marked as failing, or passing again once it is rewritten. -/
def Hw.mark (h : Hw) (r : Reg) (fails : Bool) : Hw :=
  { h with bad := if fails then (if h.bad.contains r then h.bad else r :: h.bad) else h.bad.filter (· ≠ r) }

/-- A change made once for each number below `n`, in rising order. -/
def Hw.each (h : Hw) (n : Nat) (f : Hw → Nat → Hw) : Hw := (List.range n).foldl f h

/-- A change made once for each element of a list, in order. -/
def Hw.over {α : Type} (h : Hw) (l : List α) (f : Hw → α → Hw) : Hw := l.foldl f h

/-! ### Time -/

/-- TAI time in 1.25 ns units, as TB_TIME reads (R477). The state holds 32 more fraction bits. -/
def Hw.now (h : Hw) : Nat := (h.time >>> 32) % 2 ^ 64

/-- Units of 1.25 ns in a second. -/
def unitsPerSecond : Nat := 800000000

/-- The TAI minute number (R288). -/
def Hw.minute (h : Hw) : Nat := h.now / (60 * unitsPerSecond)

/-- What has arrived of a frame in reception on a port, where no operand says it (log entry 11). -/
def Hw.midFrame (h : Hw) (p : Nat) : Option (List Byte) := Config.midFrame p h.drawn

/-- A fresh number for a frame, context or copy. -/
def Hw.fresh (h : Hw) : Nat × Hw := (h.ids, { h with ids := h.ids + 1 })

/-- The next random value (log entry 5). -/
def Hw.random (h : Hw) : Nat × Hw := ((Config.draw h.drawn).toNat, { h with drawn := h.drawn + 1 })

/-- The key-bus key drawn and the DRBG seeded (R326, R328, R329): four and six values of the random source. -/
def Hw.drawKeys (h : Hw) : Hw := { h with cx := ⟨some h.drawn, some (h.drawn + 4)⟩, drawn := h.drawn + 10 }

/-! ### Fault records (R45, R48) -/

/-- A record raised at a detection point. It enters its origin's queue of 16, or, the queue being full, goes on
without a place in it (R48). -/
def Hw.raise (h : Hw) (code origin : Nat) (pipe : Nat := 15) (port : Nat := 0x3FF) (tenant : Option Nat := none)
    (injected : Bool := false) (commanded : Option Nat := none) : Hw :=
  let held := (h.fc.queue.filter (fun q => q.origin = origin ∧ q.queued)).length
  let f : FaultRec := ⟨code, origin, pipe, port, tenant, h.now, injected, commanded, decide (held < 16)⟩
  { h with fc := { h.fc with queue := h.fc.queue ++ [f] } }

/-! ### Ledger updates (R284, R285) -/

/-- A charge of one packet. -/
def charge (tenant line bytes : Nat) : Charge := ⟨tenant, line, false, 1, bytes⟩

/-- A charge of one packet to the error sub-count of line 3. -/
def chargeErr (tenant bytes : Nat) : Charge := ⟨tenant, 3, true, 1, bytes⟩

/-- The parity of the minute in force, which is that of the open book: it changes at a minute mark only (R288, R289). -/
def Hw.openParity (h : Hw) : Nat := h.rd .LG_STATUS_open_parity

/-- A ledger update sent from a charge point, stamped with the parity of the minute in force (R288). -/
def Hw.ledger (h : Hw) (origin : Nat) (cs : List Charge) (dh : Int := 0) (tnew : Nat := 0) (tother : Nat := 0) : Hw :=
  { h with lgq := h.lgq ++ [⟨origin, h.openParity, cs, dh, tnew, tother, h.on .LG_STATUS_lastgasp⟩] }

/-- The error charge of a frame that is not yet held in the ledger's accounting. -/
def Hw.errCharge (h : Hw) (origin tenant bytes : Nat) : Hw := h.ledger origin [chargeErr tenant bytes]

/-- The error charge of a copy held in the ledger's accounting: H falls by one (R297). -/
def Hw.errHeld (h : Hw) (origin tenant bytes : Nat) : Hw := h.ledger origin [chargeErr tenant bytes] (-1) 0 1

/-- The congestion charge of a copy held in the ledger's accounting (R285 line 3, R297). -/
def Hw.congest (h : Hw) (origin tenant bytes : Nat) : Hw := h.ledger origin [charge tenant 3 bytes] (-1)

/-! ### Performance events (R431, R432) -/

/-- Whether a counter's qual field admits an event with qualifier `q` (R432): the events that take 0xFF or 0x00 as any. -/
def qualOk (ev qual : Nat) (q : Option Nat) : Bool :=
  match q with
  | none => true
  | some x => if ev = 0x02 ∨ ev = 0x43 ∨ ev = 0x50 then qual = 0xFF || qual = x
    else if ev = 0x70 then qual = 0 || qual = x else qual = x

/-- The slice events that a tenant filter applies to (R432, column T). -/
def pmTenantEvents : List Nat :=
  [0x03, 0x12, 0x20, 0x21, 0x23, 0x30, 0x31, 0x43, 0x44, 0x50, 0x51, 0x52, 0x53, 0x60, 0x61, 0x70]

/-- One counter of a set advanced by `n`; a wrap is noted for COUNTER_OVERFLOW (R434). -/
def Hw.pmBump (h : Hw) (clerk : Bool) (i k n : Nat) : Hw :=
  let old := if clerk then h.val .MC_PMCTR (8 * i + k) else h.val .PM_CTR k i
  let new := (old + n) % 2 ^ 48
  let h := if clerk then h.setVal .MC_PMCTR new (8 * i + k) else h.setVal .PM_CTR new k i
  if old + n ≥ 2 ^ 48 then { h with wraps := h.wraps ++ [(clerk, i, k)] } else h

/-- An occurrence of a slice event, `n` times, in a pipeline (15 none), of a tenant's frame (R431, R432). -/
def Hw.pm (h : Hw) (sl ev : Nat) (n : Nat := 1) (q : Option Nat := none) (pipe : Nat := 15)
    (tenant : Option Nat := none) : Hw :=
  if h.on .PM_CTRL_run 0 sl && h.rd .PW_SLICESTAT_state sl == 3 && h.rd .FC_STRIP_strip sl != pipe then
    h.each 8 (fun h k =>
      if h.on .PM_SEL_enable k sl && h.rd .PM_SEL_event k sl == ev && qualOk ev (h.rd .PM_SEL_qual k sl) q
          && (pipe == 15 || bit (h.rd .PM_SEL_pipe_mask k sl) pipe)
          && (!(pmTenantEvents.contains ev && h.on .PM_SEL_tenant_en k sl)
              || tenant == some (h.rd .PM_SEL_tenant k sl)) then
        h.pmBump false sl k (if h.on .PM_SEL_mode k sl then 1 else n)
      else h)
  else h

/-- An occurrence of a clerk event, `n` times (R429, R431). -/
def Hw.pmClerk (h : Hw) (c ev : Nat) (n : Nat := 1) : Hw :=
  if h.on .MC_PMCTRL_run c && bits (h.rd .PW_STATUS_clerk_pwr) (2 * c + 1) (2 * c) == 3 then
    h.each 8 (fun h k =>
      if h.on .MC_PMSEL_enable (8 * c + k) && h.rd .MC_PMSEL_event (8 * c + k) == ev then
        h.pmBump true c k (if h.on .MC_PMSEL_mode (8 * c + k) then 1 else n)
      else h)
  else h

/-- A frame or copy dropped in a slice with a reason (event DROPS of R432). -/
def Hw.pmDrop (h : Hw) (sl reason : Nat) (pipe : Nat := 15) (tenant : Option Nat := none) : Hw :=
  ({ h with lastDrop := reason } : Hw).pm sl 0x70 1 (some reason) pipe tenant

/-! ### Edition holdings (R216 to R218) -/

/-- The place of a slice's partial count of a bit, copy `c`. -/
def drainIx (sl b c : Nat) : Nat := (2 * sl + b) * 2 + c

/-- Holdings of a bit counted into a slice. -/
def Hw.edUp (h : Hw) (sl b : Nat) (n : Nat := 1) : Hw :=
  let p := h.ed.parts
  let p := setNth p (drainIx sl b 0) ((nth p (drainIx sl b 0) 0 + n) % 2 ^ 40)
  let p := setNth p (drainIx sl b 1) ((nth p (drainIx sl b 1) 0 + n) % 2 ^ 40)
  { h with ed := { h.ed with parts := p } }

/-- A holding counted out of a slice: a copy of the count at zero stays there and F-0x501 is raised (R218). -/
def Hw.edDown (h : Hw) (sl b : Nat) : Hw :=
  let x := nth h.ed.parts (drainIx sl b 0) 0
  let y := nth h.ed.parts (drainIx sl b 1) 0
  let p := setNth (setNth h.ed.parts (drainIx sl b 0) (x - 1)) (drainIx sl b 1) (y - 1)
  let h := { h with ed := { h.ed with parts := p } }
  if x = 0 ∨ y = 0 then h.raise 0x501 sl else h

/-- Whether the bank of the next edition is still in use (R215): the other bit is DRAINING or CLOSED. -/
def Hw.bankBusy (h : Hw) : Bool := h.rd .ED_STATUS_other_state != 0

/-- The current edition bit, and the bank of the next edition. -/
def Hw.current (h : Hw) : Nat := h.rd .ED_STATUS_current
/-- The edition bit of the next edition. -/
def Hw.next (h : Hw) : Nat := 1 - h.current

/-! ### Freezes (R44) -/

/-- DEVICE_HOLD in force. -/
def Hw.held (h : Hw) : Bool := h.on .FC_STATUS_device_hold
/-- Whether a word of a slice's replica of the freeze masks fails its check (R29, code 0x13 of R337): words 0 to 1,023 hold the
tenants' bits, 1,024 to 1,035 the ports', 1,036 the slices' (DESIGN CHOICE, log entry 74). -/
def Hw.maskFails (h : Hw) (sl w : Nat) : Bool := !h.good ⟨.A_FREEZE, sl, 0, w⟩
/-- The replica word with a tenant's bit. -/
def tenantWord (t : Nat) : Nat := t / 64
/-- The replica word with a port's bit. -/
def portWord (p : Nat) : Nat := 1024 + p / 64
/-- The replica word with the slices' bits. -/
def sliceWord : Nat := 1036
/-- FREEZE_SLICE in force for a slice, as a slice's replica shows it: a word whose check fails reads as frozen (R29). -/
def Hw.sliceFrozenAt (h : Hw) (sl n : Nat) : Bool := bit (h.rd .FC_STATUS_slice_frozen) n || h.maskFails sl sliceWord
/-- FREEZE_SLICE in force for a slice in that slice itself. -/
def Hw.sliceFrozen (h : Hw) (n : Nat) : Bool := h.sliceFrozenAt n n
/-- FREEZE_PORT in force for a port in its slice. -/
def Hw.portFrozen (h : Hw) (p : Nat) : Bool :=
  bit (h.val .FC_PFROZEN (p / 64)) (p % 64) || h.maskFails (p / 96) (portWord p)
/-- FREEZE_TENANT in force for a tenant in a slice. -/
def Hw.tenantFrozen (h : Hw) (sl t : Nat) : Bool :=
  bit (h.val .FC_TFROZEN (t / 64)) (t % 64) || h.maskFails sl (tenantWord t)
/-- A use of replica words in a slice: a word whose check fails raises F-0x820. -/
def Hw.maskUse (h : Hw) (sl : Nat) (ws : List Nat) : Hw := if ws.any (h.maskFails sl) then h.raise 0x820 sl else h
/-- A replica word written anew in every slice, as the collector does when a bit of its master changes: its check passes again. -/
def Hw.maskRewrite (h : Hw) (w : Nat) : Hw := { h with bad := h.bad.filter (fun r => !(r.name == .A_FREEZE && r.ix == w)) }

/-- Whether a port transmits idles only: a freeze covers it (R44), or last-gasp runs and the port is not designated (R309). -/
def Hw.silent (h : Hw) (p : Nat) : Bool :=
  h.held || h.portFrozen p || h.sliceFrozen (p / 96)
    || (h.on .LG_STATUS_lastgasp
        && !(List.range 4).any (fun k => h.on .LG_LGPORT_valid k && h.rd .LG_LGPORT_port k == p))

/-- The power state of a slice: 0 OFF, 1 RETENTION, 2 QUIESCENT, 3 ACTIVE (R462). -/
def Hw.slicePower (h : Hw) (n : Nat) : Nat := h.rd .PW_SLICESTAT_state n

/-- Whether the HBM stack that holds an address is ACTIVE (R19, R357); a stack commanded to leave ACTIVE performs no new access
(R356). -/
def Hw.stackActive (h : Hw) (a : Nat) : Bool :=
  let s := (a - 0x1000000000) / 0x600000000
  decide (0x1000000000 ≤ a) && decide (s < 4) && h.rd .HM_STACKSTAT_state s == 3
    && !(h.on .HM_STACKCMD_busy s && h.rd .HM_STACKCMD_state s != 3)

/-! ### Ports -/

/-- A port's state beside its registers. -/
def Hw.port (h : Hw) (p : Nat) : PortSt := FMap.get (fun _ => PortSt.idle) h.ports p
/-- The hardware with a port's state replaced. -/
def Hw.setPort (h : Hw) (p : Nat) (s : PortSt) : Hw :=
  { h with ports := FMap.put natLt (fun _ => PortSt.idle) h.ports p s }
/-- A stream's state. -/
def Hw.stream (h : Hw) (k : Nat × Nat × Nat) : Stream := FMap.get (fun _ => Stream.idle) h.streams k
/-- The order of stream keys. -/
def streamLt (a b : Nat × Nat × Nat) : Bool :=
  natLt ((a.1 * 16 + a.2.1) * 8 + a.2.2) ((b.1 * 16 + b.2.1) * 8 + b.2.2)
/-- The hardware with a stream's state replaced. -/
def Hw.setStream (h : Hw) (k : Nat × Nat × Nat) (s : Stream) : Hw :=
  { h with streams := FMap.put streamLt (fun _ => Stream.idle) h.streams k s }
/-- A slice's buffer pool. -/
def Hw.pool (h : Hw) (sl : Nat) : PoolSt := FMap.get (fun _ => PoolSt.empty) h.pools sl
/-- The hardware with a slice's pool replaced. -/
def Hw.setPool (h : Hw) (sl : Nat) (s : PoolSt) : Hw :=
  { h with pools := FMap.put natLt (fun _ => PoolSt.empty) h.pools sl s }

/-- The lane map of a port group, and the mode code of its lane l (R58). -/
def Hw.laneMode (h : Hw) (p : Nat) : Nat :=
  bits (h.rd .PT_GMODE_lane_mode (p / 8 % 12) (p / 96)) (4 * (p % 8) + 3) (4 * (p % 8))
/-- A port number that R10 makes a configured port: its lane is the lowest lane of a port. -/
def Hw.configured (h : Hw) (p : Nat) : Bool := decide (p < 768) && h.laneMode p != 0
/-- A port's slice-local index and slice. -/
def portIx (p : Nat) : Nat := p % 96
/-- The slice that owns a port (R9). -/
def portSl (p : Nat) : Nat := p / 96
/-- A port's link state (R68). -/
def Hw.link (h : Hw) (p : Nat) : Nat := h.rd .PT_STATUS_state (portIx p) (portSl p)
/-- A PT_CNT counter of a port advanced. -/
def Hw.ptCount (h : Hw) (p c : Nat) (n : Nat := 1) : Hw := h.count .PT_CNT_count (32 * portIx p + c) (portSl p) n
/-- An event of R70 recorded. -/
def Hw.ptEvent (h : Hw) (p e : Nat) : Hw := h.setBit .PT_EVENT_events e (portIx p) (portSl p)

/-! ### Contexts -/

/-- The context with a number. -/
def Hw.ctx? (h : Hw) (c : Nat) : Option Ctx := h.ctxs.find? (fun x => x.id == c)
/-- The hardware with a context replaced. -/
def Hw.setCtx (h : Hw) (x : Ctx) : Hw := { h with ctxs := updFirst (fun y => y.id == x.id) (fun _ => x) h.ctxs }
/-- The hardware without a context. -/
def Hw.delCtx (h : Hw) (c : Nat) : Hw := { h with ctxs := h.ctxs.filter (fun x => x.id != c) }
/-- The ingress contexts that a pipeline holds (R144), those of frames still in the cell former included: the copies of a group hold
one until the last of them has left. -/
def Hw.ingressHeld (h : Hw) (sl pipe : Nat) : Nat :=
  (h.ctxs.filter (fun x => x.sl == sl && x.pipe == pipe && x.eg.isNone)).length
    + ((h.formers.filter (fun f => f.src == sl && f.pipe == pipe)).filterMap (·.ctx)).eraseDups.length
/-- The egress contexts that a pipeline holds (R144). -/
def Hw.egressHeld (h : Hw) (sl pipe : Nat) : Nat :=
  (h.ctxs.filter (fun x => x.sl == sl && x.pipe == pipe && x.eg.isSome)).length

/-! ### Metadata (R105, R130) -/

/-- A byte of an area. -/
def byteAt (d : List Byte) (i : Nat) : Nat := (nth d i 0#8).toNat
/-- A multi-byte field in network order. -/
def fieldAt (d : List Byte) (i n : Nat) : Nat := beNat (slice d i n)
/-- MD.tenant. -/
def mdTenant (md : List Byte) : Nat := fieldAt md 0 2
/-- MD.tag_check. -/
def mdTag (md : List Byte) : Nat := fieldAt md 2 2
/-- MD.edition. -/
def mdEdition (md : List Byte) : Nat := bits (byteAt md 4) 7 7
/-- MD.flags, a bit of byte 5. -/
def mdFlag (md : List Byte) (b : Nat) : Bool := bit (byteAt md 5) b
/-- MD.in_port. -/
def mdInPort (md : List Byte) : Nat := fieldAt md 6 2 % 1024
/-- MD.timestamp. -/
def mdTime (md : List Byte) : Nat := fieldAt md 8 8
/-- MD.frame_len. -/
def mdLen (md : List Byte) : Nat := fieldAt md 16 2 % 16384
/-- MD.dest_kind. -/
def mdKind (md : List Byte) : Nat := bits (fieldAt md 40 2) 15 12
/-- MD.dest. -/
def mdDest (md : List Byte) : Nat := fieldAt md 40 2 % 4096
/-- MD with bytes from `i` set to the `n`-byte number `v`. -/
def mdSet (md : List Byte) (i n v : Nat) : List Byte := overwrite md i (beBytes n v)

/-- The tenant tag's check value (R27, code 0x01 of R337). -/
def tagCheck (tenant edition inPort ts : Nat) : Nat :=
  crcFold crc16 0x01 ((tenant <<< 48) + ((edition % 2) <<< 47) + ((inPort % 1024) <<< 32) + ts % 2 ^ 32) []

/-! ### Words of memory, shadows, banks -/

/-- The sectors of a stretch of HBM (R343): the 64-byte sectors that its bytes touch, by number. -/
def sectorsOf (a n : Nat) : List Nat := (List.range ((a + n + 63) / 64 - a / 64)).map (a / 64 + ·)

/-- Whether an address lies in the HBM range (R19). -/
def inHbm (a : Nat) : Bool := decide (0x1000000000 ≤ a) && decide (a < 0x2800000000)
/-- The stack that holds an HBM address (R19). -/
def stackOf (a : Nat) : Nat := (a - 0x1000000000) / 0x600000000

/-- The bank of an HBM address among the 2,048 of its stack: 64 times its pseudo-channel plus its bank (R344). -/
def bankOf (a : Nat) : Nat :=
  let o := (a - 0x1000000000) % 0x600000000
  64 * bits o 13 9 + bits o 19 14
/-- The row of an HBM address in its bank (R344): the bits above those of a page of two granules (log entry 49). -/
def rowOf (a : Nat) : Nat := (a - 0x1000000000) % 0x600000000 / 2 ^ 21
/-- The hardware with the HBM controller's state changed. -/
def Hw.setHbm (h : Hw) (f : HbmSt → HbmSt) : Hw := { h with hbm := f h.hbm }

/-- One access to a granule, with the number of values drawn so far: a row that is not open is activated, and each activate draws a
number that schedules a neighbour refresh with probability 2 to the power -pnr_log2 (R352). -/
def HbmSt.activate (pnr : Nat) (x : HbmSt × Nat) (a : Nat) : HbmSt × Nat :=
  let b := x.1
  let k := (stackOf a, bankOf a)
  if (b.rows.find? (fun e => e.1 == k)).map (·.2) = some (rowOf a) then x
  else
    let hit := (Config.draw x.2).toNat % 2 ^ pnr == 0
    ({ b with
      rows := b.rows.filter (fun e => e.1 != k) ++ [(k, rowOf a)]
      near := if hit then b.near ++ [(k.1, k.2, 0)] else b.near }, x.2 + 1)
/-- Granules accessed, by address, in order. -/
def Hw.activate (h : Hw) (as : List Nat) : Hw :=
  let r := as.foldl (HbmSt.activate (h.rd .HM_CTRL_pnr_log2)) (h.hbm, h.drawn)
  { h with hbm := r.1, drawn := r.2 }

/-! ### Trackers (R346) -/

/-- The stack of a request. -/
def HbmReq.stack (r : HbmReq) : Nat := stackOf r.addr
/-- The trackers reserved to a class. -/
def reservedTrackers (cls : Nat) : Nat :=
  match cls with
  | 0 => 512
  | 1 => 256
  | 3 => 64
  | _ => 0

/-- The requests of a class that a stack tracks. -/
def HbmSt.tracked (b : HbmSt) (s cls : Nat) : Nat := (b.reqs.filter (fun r => r.stack == s && r.cls == cls)).length

/-- Whether a class finds a free tracker of a stack: one reserved to it, or one of the 192 shared. -/
def HbmSt.trackerFree (b : HbmSt) (s cls : Nat) : Bool :=
  decide (b.tracked s cls < reservedTrackers cls)
    || decide (((List.range 6).map (fun c => b.tracked s c - reservedTrackers c)).sum < 192)

/-- A stack's share tokens in bits as they stand now, deep buffer and LOOKUP (R348): a share of 0.1 Tb/s yields 125 bits in 1.25 ns,
and a bucket holds 64 KiB. -/
def Hw.tokens (h : Hw) (s : Nat) : Nat × Nat :=
  let (d, l, t) := nth h.hbm.bucket s (524288, 524288, 0)
  (min 524288 (d + 125 * h.rd .HM_SHARE_db_share s * (h.up - t)), min 524288 (l + 125 * h.rd .HM_SHARE_lk_share s * (h.up - t)))
/-- Whether a stack's shares admit sectors of a class (R348): RT and SPILL need deep-buffer tokens, LOOKUP its own. -/
def Hw.shareAllows (h : Hw) (s cls sectors : Nat) : Bool :=
  let (d, l) := h.tokens s
  decide (512 * sectors ≤ (match cls with | 0 => d | 2 => d | 1 => l | _ => 512 * sectors))
/-- Sectors of a class taken from a stack's shares. -/
def Hw.shareSpend (h : Hw) (s cls sectors : Nat) : Hw :=
  if 2 < cls then h
  else
    let (d, l) := h.tokens s
    let n := 512 * sectors
    h.setHbm (fun b => { b with bucket := setNth b.bucket s (if cls = 1 then (d, l - n, h.up) else (d - n, l, h.up)) })

/-- Whether a source of a class finds a tracker of a stack and tokens for its sectors; otherwise it waits (R346, R348). -/
def Hw.mayAccess (h : Hw) (s cls sectors : Nat) : Bool := h.hbm.trackerFree s cls && h.shareAllows s cls sectors

/-- The granule requests of an access counted under its class (R345, R346, HM_SCNT). -/
def Hw.requests (h : Hw) (cls a n : Nat) : Hw :=
  if inHbm a then h.count .HM_SCNT_count (16 * stackOf a + cls) 0 ((a + n + 511) / 512 - a / 512) else h
/-- An access that its command performs whole: its granule requests counted, its sectors taken from their share, its rows opened. -/
def Hw.granules (h : Hw) (cls a n : Nat) : Hw :=
  if inHbm a then
    ((h.requests cls a n).shareSpend (stackOf a) cls ((a + n + 63) / 64 - a / 64)).activate
      ((List.range ((a + n + 511) / 512 - a / 512)).map (fun i => 512 * (a / 512 + i)))
  else h

/-- Bytes written to memory. A sector that a write covers whole carries a good code again (R354). -/
def Hw.store (h : Hw) (a : Nat) (d : List Byte) : Hw :=
  { h with mem := Memory.writeBytes h.mem a d,
           poison := h.poison.filter (fun s => !(decide (a ≤ 64 * s) && decide (64 * s + 64 ≤ a + d.length))) }
/-- Bytes read from memory. -/
def Hw.load (h : Hw) (a n : Nat) : List Byte := Memory.readBytes h.mem a n

/-- Bytes of a book (R292): 2^20 records of 32 bytes. -/
def bookSize : Nat := 0x2000000
/-- The check of a book record over its bytes 2 to 31 (R292, code 0x40 of R337). -/
def bookCheck (addr : Nat) (d : List Byte) : Nat := crcFold crc16 0x40 addr (d.drop 2)
/-- A byte of HBM as an access finds it: in a book that the ledger has zeroed, a record that memory does not list holds zero counts
and their check (log entry 30). -/
def Hw.held8 (h : Hw) (x : Nat) : Byte :=
  let raw := Memory.read h.mem x
  match h.lg.blank.find? (fun b => decide (b ≤ x) && decide (x < b + bookSize)) with
  | none => raw
  | some b =>
    let r := b + (x - b) / 32 * 32
    let zero := List.replicate 32 0#8
    if x < r + 2 ∧ h.load r 32 = zero then nth (leBytes 2 (bookCheck r zero)) (x - r) 0#8 else raw
/-- Bytes of HBM as an access finds them. -/
def Hw.view8 (h : Hw) (a n : Nat) : List Byte :=
  if h.lg.blank.isEmpty then h.load a n else (List.range n).map (fun i => h.held8 (a + i))
/-- A 64-bit word of memory (R4). -/
def Hw.load64 (h : Hw) (a : Nat) : Nat := leNat (h.load a 8)
/-- A 64-bit word written to memory (R4). -/
def Hw.store64 (h : Hw) (a v : Nat) : Hw := h.store a (leBytes 8 v)
/-- Whether the bytes from an address read without a poisoned sector (R354). -/
def Hw.readable (h : Hw) (a n : Nat) : Bool := !(sectorsOf a n).any h.poison.contains
/-- Consecutive 64-bit words of memory. -/
def Hw.loadWords (h : Hw) (a : Nat) : Nat → List Nat
  | 0 => []
  | n + 1 => h.load64 a :: h.loadWords (a + 8) n
/-- Consecutive 64-bit words written to memory by a source of a class. -/
def Hw.storeWords (h : Hw) (cls a : Nat) (ws : List Nat) : Hw :=
  (h.store a (ws.flatMap (leBytes 8))).granules cls a (8 * ws.length)

/-- An uncorrectable sector read by a class (R354): F-0x711, the counter and event, and HM_ERRLOG unless it holds one. -/
def Hw.poisonedRead (h : Hw) (cls s : Nat) : Hw :=
  let a := 64 * s
  let h := (h.raise 0x711 8).count .HM_SCNT_count (16 * stackOf a + 7)
  let h := h.setBit .HM_EVENT_events 3
  if h.on .HM_ERRLOG_valid then h
  else (((h.wr .HM_ERRLOG_valid 1).wr .HM_ERRLOG_stack (stackOf a)).wr .HM_ERRLOG_class cls).wr .HM_ERRLOG_address a

/-- The sectors of an access judged: whether none of them is poisoned, and what the controller records of those that are (R354). -/
def Hw.probe (h : Hw) (cls a n : Nat) : Bool × Hw :=
  let bad := (sectorsOf a n).filter h.poison.contains
  (bad.isEmpty, h.over bad (fun h s => h.poisonedRead cls s))

/-- A read of a whole stretch by a source of a class (R345, R354): its requests counted, and what the controller records of its
poisoned sectors, in rising order. -/
def Hw.sweep (h : Hw) (cls a n : Nat) : Hw :=
  let bad := (h.poison.filter (fun s => decide (a / 64 ≤ s) && decide (64 * s < a + n))).mergeSort (fun x y => decide (x ≤ y))
  (h.over bad (fun h s => h.poisonedRead cls s)).granules cls a n

/-- A read of `n` bytes by a source of a class: whether no sector of it is poisoned, and what the controller records of
it (R354). The data are those of `Hw.load`. -/
def Hw.fetch (h : Hw) (cls a n : Nat) : Bool × Hw :=
  let (ok, h) := h.probe cls a n
  (ok, h.granules cls a n)

/-- The bank that a banked write of a slice goes to, and whether it is refused for BANK_BUSY (R106, R157, R180, R465). -/
def Hw.writeBank (h : Hw) (n : Nat) : Nat × Bool :=
  if h.slicePower n = 1 then
    (match h.rd .PW_SLICECMD_load_bank n with | 1 => 0 | 2 => 1 | _ => h.next, false)
  else (h.next, h.bankBusy)

/-- The indexes at which a slice's array lists a word: every other index holds its reset word. -/
def Hw.listed (h : Hw) (a : RegName) (sl : Nat) : List Nat :=
  (h.words.filter (fun e => e.1.name = a ∧ e.1.sl = sl)).map (fun e => e.1.ix)

/-- The lowest number of a list. -/
def lowest : List Nat → Option Nat
  | [] => none
  | a :: r => match lowest r with | none => some a | some b => some (min a b)

/-- A 128-bit result slot (R126): hit, error, tie and 112 bits of data. -/
def result (hit err tie : Bool) (data : Nat) : BitVec 128 :=
  BitVec.ofNat 128 ((ofBool hit <<< 127) + (ofBool err <<< 126) + (ofBool tie <<< 125) + data % 2 ^ 112)

/-! ### Lookups launched and landed (R123 to R126) -/

/-- The oldest launch of a context to a table that has not been searched yet. -/
def Ctx.launch? (x : Ctx) (table : Nat) : Option Launch :=
  x.launches.find? (fun l => l.table == table && l.done.isNone)

/-- The context with the oldest unsearched launch to a table answered. -/
def Ctx.land (x : Ctx) (table : Nat) (r : BitVec 128) (reason : Nat) : Ctx :=
  { x with launches :=
             updFirst (fun l => l.table == table && l.done.isNone)
               (fun l => { l with done := some (r, reason) }) x.launches }

/-- The frame that a lookup belongs to: a context, or what is left of one whose frame has been dropped (R124). -/
def Hw.lookupOf (h : Hw) (c : Nat) : Option Ctx := (h.ctx? c).orElse (fun _ => h.astray.find? (fun x => x.id == c))

/-- The hardware with a frame's lookup answered: a dropped frame is forgotten with its last lookup. -/
def Hw.landed (h : Hw) (x : Ctx) : Hw :=
  let rest := h.astray.filter (fun y => y.id != x.id)
  (if h.astray.any (fun y => y.id == x.id) then
    { h with astray := if x.launches.any (·.done.isNone) then rest ++ [x] else rest } else h).setCtx x

/-- The search of a lookup row: the oldest unsearched launch of the context to the table is searched, its result
recorded with the context (it enters its slot when the landing stage starts, R124), and a hit counted. -/
def Hw.search (h : Hw) (n c table : Nat) (f : Hw → Ctx → Launch → Hw × Ctx × BitVec 128 × Nat) : Hw :=
  match h.lookupOf c with
  | none => h
  | some x =>
    if x.sl = n then
      match x.launch? table with
      | none => h
      | some l =>
        let (h, x, r, reason) := f h x l
        let h := h.landed (x.land table r reason)
        if bit r.toNat 127 then h.pm n 0x31 1 (some table) x.pipe (some (mdTenant x.pmd)) else h
    else h

/-! ### Meanings -/

/-- The outcome of a command that acts on the hardware alone: the transmit path, what a reset keeps and the queue of
commands stand. -/
def onHw (f : Hw → Hw) (s : State) : Host.Outcome State Fault Refusal :=
  .next { s with dev := { s.dev with hw := f s.dev.hw } }

/-- The outcome of a command that acts on the device: the queue of commands stands. -/
def onDev (f : Dev → Dev) (s : State) : Host.Outcome State Fault Refusal :=
  .next { s with dev := f s.dev }

/-- What a device reset keeps of the hardware (R474): what has left the device, and the model's own counters; every stack is OFF,
its contents lost (R356). The fuses are read out again; GL_RESET_CAUSE holds the cause and the count. -/
def Hw.afterReset (h : Hw) (p : Perm) : Hw :=
  let r := { Hw.reset with drawn := h.drawn, ids := h.ids, sent := h.sent }.drawKeys
  let r := r.setVal .MC_FUSE ((p.revoked.toNat <<< 60) + (p.present.toNat <<< 56) + p.minVersion.toNat)
  r.setVal .GL_RESET_CAUSE ((p.count <<< 8) + p.cause)

/-- A device reset with its cause (R474): 0 POWER_ON, 1 PIN, 2 SOFTWARE, 3 BMC. -/
def Dev.reset (d : Dev) (cause : Nat) : Dev :=
  let p := { d.perm with cause := cause, count := if cause = 0 then 0 else min 255 (d.perm.count + 1) }
  ⟨d.hw.afterReset p, [], p⟩

/-! ### The transmit path told of a frame's later fate (R78, R81, R240) -/

/-- R40's delivery rule: the tag checked, and the header's tenant, the owner, tenant 0 or a shared service. -/
def Evidence.delivers (e : Evidence) : Bool :=
  e.tagOk && (if e.kind = 7 then e.shogen == some e.tenant
    else match e.entry with
      | none => false
      | some w => bits w.2 47 32 == e.tenant || (bit w.2 24 && e.tenant == 0) || (bit w.2 25 && e.permit))

/-- The outgoing length of a frame, FCS included, as far as it is present. -/
def TxFrame.len (x : TxFrame) : Nat := if x.st.whole then x.st.bytes.length + 4 else x.st.bytes.length
/-- Bytes that SecTAG and ICV add to a frame under its SA (R315). -/
def SaBind.added (b : SaBind) : Nat := (if b.withSci then 16 else 8) + 16

/-- The frames of the transmit path that belong to a copy, changed. -/
def Dev.updTx (d : Dev) (copy : Nat) (f : TxSt → TxSt) : Dev :=
  { d with tx := d.tx.map (fun x => if x.copy = copy then { x with st := f x.st } else x) }

/-- A charge of a frame whose update waited for its good end, replaced by one to the error sub-count (R82, R324), under the
stamp of the decision: its stored length once the copy is written, otherwise its bound length (R285). -/
def Hw.failCharge (h : Hw) (x : TxFrame) : Hw :=
  { h with lgq := h.lgq ++
      [⟨x.dl.sl, x.dl.parity, [chargeErr x.ev.tenant (x.st.stored.getD x.dl.bound)], -1, 0, 1, x.dl.postCut⟩] }

/-- A cipher reason counted for a transmit frame (CX_CNT, R330), and its DROPS event. -/
def Hw.cipherDrop (h : Hw) (x : TxFrame) (reason : Nat) : Hw :=
  if 0xA0 ≤ reason ∧ reason ≤ 0xAB then
    (h.count .CX_CNT_count (reason - 0xA0 + 2)).pmDrop x.dl.sl reason x.dl.pipe (some x.ev.tenant)
  else h

/-- The frames of the transmit path that satisfy `p`, ended for a reason: a frame that has begun is stomped; one in a SecY
engine ends dropped; any other is discarded, its charge replaced (R81, R82, R323). -/
def Dev.spoil (d : Dev) (p : TxFrame → Bool) (reason : Nat) : Dev :=
  let hit (x : TxFrame) : Bool := p x && x.st.ended.isNone && x.st.stomp.isNone
  let gone (x : TxFrame) : Bool := hit x && x.st.started.isNone && x.st.sa.isNone
  { d with
    tx := (d.tx.filter (fun x => !gone x)).map (fun x =>
      if !hit x then x
      else if x.st.started.isSome then { x with st := { x.st with stomp := some reason } }
      else { x with st := { x.st with ended := some false } })
    hw := (d.hw.over (d.tx.filter hit) (fun h x => h.cipherDrop x reason)).over (d.tx.filter gone)
      (fun h x => if x.dl.waits then h.failCharge x else h) }

/-- A bound frame that goes on arriving ends with 0xAB, MS_TX_OVERSIZE, once it is longer than 10,000 bytes protected (R315, log
entry 90). -/
def Dev.oversize (d : Dev) (copy : Nat) : Dev :=
  d.spoil (fun x => x.copy == copy && match x.st.sa with | some b => decide (10000 < x.len + b.added) | none => false) 0xAB

/-- A frame that the device itself makes takes its place in its port's transmit order (R315): of tenant 0, without a charge. -/
def Dev.addOwn (d : Dev) (p copy : Nat) (ev : Evidence) (bytes : List Byte) : Dev :=
  if ev.delivers then
    let dl : Delivery := ⟨portSl p, 15, 0, d.hw.openParity, d.hw.on .LG_STATUS_lastgasp, false, false, [], false, none, 0⟩
    { d with tx := d.tx ++ [⟨ev, p, copy, dl, ⟨bytes, true, none, false, ⟨0, 0, 0, 0⟩, none, none, none, false, none⟩⟩] }
  else d

/-- The frames that had begun under an overwritten key keep it for the bytes that have left (R323). -/
def Dev.keepLeft (d : Dev) (keys : List (Nat × Nat × List Byte)) : Dev :=
  let key (b : SaBind) : Option (List Byte) :=
    let bank := if d.hw.rd .CX_SA_generation b.slot = b.gen then 0 else 1
    (keys.find? (fun k => k.1 == b.slot && k.2.1 == bank)).map (·.2.2)
  { d with tx := d.tx.map (fun x => match x.st.sa with
      | some b => if x.st.started.isSome && x.st.ended.isNone && b.left.isNone then
          { x with st := { x.st with sa := some { b with left := key b } } } else x
      | none => x) }

/-- One note taken by the transmit path. -/
def Dev.takeNote (d : Dev) (n : Note) : Dev :=
  match n with
  | .data c b =>
    (d.updTx c (fun s => if s.whole || s.stomp.isSome then s else { s with bytes := s.bytes ++ b })).oversize c
  | .whole c n => d.updTx c (fun s => if s.whole then s else if s.stomp.isSome then { s with stored := some n } else
      { s with bytes := padTo (max 60 (s.bytes.length - 4)) (s.bytes.take (s.bytes.length - 4)), whole := true, stored := some n })
  | .bad c r n => (d.updTx c (fun s => if s.whole || n.isNone then s else { s with stored := n })).spoil
      (fun x => x.copy == c && !x.st.whole) r
  | .cutOff p =>
    let lost := d.tx.filter (fun x => x.port == p)
    { d with
      tx := d.tx.filter (fun x => x.port != p)
      hw := d.hw.over lost (fun h x => if x.dl.waits then h.failCharge x else h) }
  | .own p c ev b => d.addOwn p c ev b
  | .keyGone slot r keys =>
    (d.keepLeft keys).spoil (fun x => match x.st.sa with | some b => slot.isNone || slot == some b.slot | none => false) r
  | .revoke k => { d with perm := { d.perm with revoked := d.perm.revoked ||| (1#4 <<< k) } }
  | .raiseVersion v =>
    { d with perm := { d.perm with minVersion := if d.perm.minVersion.toNat < v then BitVec.ofNat 6 (min v 63) else d.perm.minVersion } }
  | .reset cause => d.reset cause

/-- Every note taken, in order. -/
def Dev.settle (d : Dev) : Dev := d.hw.notes.foldl Dev.takeNote { d with hw := { d.hw with notes := [] } }

/-- The outcome of a command that acts on the hardware and whose effects may reach the transmit path or the permanent state. -/
def onTx (f : Hw → Hw) (s : State) : Host.Outcome State Fault Refusal :=
  .next { s with dev := ({ s.dev with hw := f s.dev.hw } : Dev).settle }

/-- A command that acts only when its operands are an event of the device. -/
def guarded (ok : Bool) (o : Host.Outcome State Fault Refusal) : Host.Outcome State Fault Refusal :=
  if ok then o else .fault .illFormed

end Sys2Proof.Machine
end

