-- ==== Sys2Proof/Machine/Sources.lean ====
section
/-! DEFINITION. Event sources: what asserts each, their levels, targets and states, which one a clerk takes, and what is pending at
the host (spec/18_event_controller.md, R411 to R417, R424 to R427). -/

namespace Sys2Proof.Machine

/-- A clerk's state (R372): 0 HALTED, 1 RUNNING, 2 WAIT, 3 EXCEPTION. -/
def Hw.clerkState (h : Hw) (c : Nat) : Nat := bits (h.rd .MC_STATUS_state) (2 * c + 1) (2 * c)
/-- A clerk's power state (R468): 0 OFF, 1 RETENTION, 3 ACTIVE. -/
def Hw.clerkPower (h : Hw) (c : Nat) : Nat := bits (h.rd .PW_STATUS_clerk_pwr) (2 * c + 1) (2 * c)
/-- A clerk beside its registers. -/
def Hw.clerk (h : Hw) (c : Nat) : ClerkSt := nth h.clerks c ClerkSt.reset
/-- The hardware with a clerk changed. -/
def Hw.setClerk (h : Hw) (c : Nat) (f : ClerkSt → ClerkSt) : Hw := { h with clerks := setNth h.clerks c (f (h.clerk c)) }

/-! ### Assertion (R412, R413) -/

/-- Whether a block's event register has a bit set whose enable is set. -/
def Hw.raised (h : Hw) (ev en : Fld) : Bool := h.rd ev &&& h.rd en != 0

/-- Whether a counter of a slice's set that samples has overflowed (R434). -/
def Hw.pmSource (h : Hw) (n : Nat) : Bool :=
  (List.range 8).any (fun k => bit (h.rd .PM_STATUS_ovf 0 n) k && h.on .PM_SEL_sample_en k n)
/-- Whether a counter of a clerk's set that samples has overflowed. -/
def Hw.pmClerkSource (h : Hw) (c : Nat) : Bool :=
  (List.range 8).any (fun k => bit (h.rd .MC_PMSTATUS_ovf c) k && h.on .MC_PMSEL_sample_en (8 * c + k))

/-- Whether a shared source is asserted (R412). -/
def Hw.asserted (h : Hw) (n : Nat) : Bool :=
  if n < 96 then
    (List.range 8).any (fun l =>
      let i := 8 * (n % 12) + l
      h.rd .PT_EVENT_events i (n / 12) &&& h.rd .PT_EVENT_EN_enables i (n / 12) != 0)
  else if 1024 ≤ n then bit (h.val .EV_SOFT ((n - 1024) / 64)) (n % 64)
  else if 112 ≤ n ∧ n < 120 then h.on .MC_EXC_valid (n - 112)
  else if 120 ≤ n ∧ n < 128 then h.on .MC_WDOG_fired (n - 120)
  else if 128 ≤ n ∧ n < 144 then h.on .CK_USTATUS_mismatch (n - 128) && h.on .CK_UCTRL_int_en (n - 128)
  else if 144 ≤ n ∧ n < 152 then h.pmSource (n - 144)
  else match n with
    | 96 => !h.fc.log.isEmpty
    | 97 => h.rd .FC_STATUS_slice_frozen != 0 || h.on .FC_STATUS_cmd_refused
        || h.words.any (fun e => (e.1.name == .FC_TFROZEN || e.1.name == .FC_PFROZEN) && e.2 != 0)
    | 104 => h.raised .ED_EVENT_events .ED_EVENT_EN_enables
    | 105 => h.raised .LG_EVENT_events .LG_EVENT_EN_enables
    | 106 => h.raised .CX_EVENT_events .CX_EVENT_EN_enables
    | 107 => h.raised .HM_EVENT_events .HM_EVENT_EN_enables
    | 108 => h.raised .TW_EVENT_events .TW_EVENT_EN_enables
    | 109 => h.rd .FT_CH_RING_PROD_prod != h.rd .FT_CH_RING_CONS_cons || h.on .FT_CH_STATUS_resync
    | 110 => (List.range 32).any (fun w => h.val .EV_STRANDED w != 0)
    | 152 => h.raised .PW_EVENT_events .PW_EVENT_EN_enables
    | 153 => h.raised .TB_EVENT_events .TB_EVENT_EN_enables
    | 154 => h.raised .SF_EVENT_events .SF_EVENT_EN_enables
    | 155 => h.raised .TP_EVENT_events .TP_EVENT_EN_enables
    | _ => false

/-- Whether a private source of a clerk is asserted (R413). -/
def Hw.privAsserted (h : Hw) (c p : Nat) : Bool :=
  match p with
  | 0 => h.on .EV_CSTAT_done_order c
  | 1 => h.on .EV_CSTAT_timer c
  | 2 => h.pmClerkSource c
  | _ => decide (16 ≤ p) && bit (h.val .EV_PSOFT c) p

/-! ### Levels, targets, states (R414 to R416) -/

/-- Whether the two copies of a source's configuration agree. -/
def Hw.srcAgrees (h : Hw) (n : Nat) : Bool := h.good ⟨.EV_SRC, 0, 0, n⟩ && h.good ⟨.EV_SRC, 0, 1, n⟩
/-- The level of a shared source; 15 while its copies disagree. -/
def Hw.srcLevel (h : Hw) (n : Nat) : Nat := if h.srcAgrees n then h.rd .EV_SRC_level n else 15
/-- The target of a shared source: a clerk, or 8 for the host. -/
def Hw.srcTarget (h : Hw) (n : Nat) : Nat := if h.srcAgrees n && n != 110 then h.rd .EV_SRC_target n else 8
/-- The level of a private source. -/
def Hw.privLevel (h : Hw) (c p : Nat) : Nat := if p = 0 then 15 else h.rd .EV_PRIV_level (64 * c + p)
/-- The identifier of a private source (R411). -/
def privId (p : Nat) : Nat := 4096 + p
/-- Whether a shared source is ACTIVE: held in some clerk's priority stack. -/
def Hw.srcActive (h : Hw) (n : Nat) : Bool := h.clerks.any (fun c => c.stack.any (fun e => e.id == n))
/-- Whether a shared source is PENDING. -/
def Hw.srcPending (h : Hw) (n : Nat) : Bool := h.srcLevel n != 0 && !h.srcActive n && h.asserted n
/-- Whether a private source of a clerk is PENDING. -/
def Hw.privPending (h : Hw) (c p : Nat) : Bool :=
  h.privLevel c p != 0 && !(h.clerk c).stack.any (fun e => e.id == privId p) && h.privAsserted c p

/-! ### Delivery to a clerk (R417) -/

/-- A clerk's current level. -/
def ClerkSt.level (x : ClerkSt) : Nat := match x.stack with | e :: _ => e.level | [] => 0

/-- The sources that are PENDING at a clerk, each with its level, private ones first, in rising order of number. -/
def Hw.pendingAt (h : Hw) (c : Nat) : List (Nat × Nat) :=
  ((List.range 64).filter (h.privPending c ·)).map (fun p => (privId p, h.privLevel c p))
    ++ ((List.range 2048).filter (fun n => h.srcTarget n == c && h.srcPending n)).map (fun n => (n, h.srcLevel n))

/-- The first of the highest level. -/
def highest : List (Nat × Nat) → Option (Nat × Nat)
  | [] => none
  | a :: r => match highest r with
    | none => some a
    | some b => if a.2 < b.2 then some b else some a

/-- The source that a clerk takes: the highest PENDING one that is deliverable; a claim treats deliver_en as 1. -/
def Hw.deliverable (h : Hw) (c : Nat) (claim : Bool) : Option (Nat × Nat) :=
  highest ((h.pendingAt c).filter (fun s =>
    decide (h.rd .EV_CFG_threshold c < s.2) && decide ((h.clerk c).level < s.2)
      && (claim || h.on .EV_CFG_deliver_en c || s.2 == 15)))

/-- C24 of a clerk (R115, R417). -/
def Hw.above (h : Hw) (c : Nat) : Bool := (h.pendingAt c).any (fun s => decide (h.rd .EV_CFG_threshold c < s.2))

/-! ### The host (R424, R426) -/

/-- Whether a shared source is a PENDING host source. -/
def Hw.hostPending (h : Hw) (n : Nat) : Bool := h.srcTarget n == 8 && h.srcPending n
/-- Whether an MSI-X vector is pending. -/
def Hw.vecPending (h : Hw) (k : Nat) : Bool := (List.range 2048).any (fun n => h.rd .EV_SRC_vector n == k && h.hostPending n)
/-- Whether the host can receive a vector: MSI-X enabled, the function unmasked, Bus Master Enable set, the vector unmasked. -/
def Hw.vecOpen (h : Hw) (k : Nat) : Bool := h.ev.msixOn && !h.ev.masked && h.ev.master && !bit (h.val .A_MSIX_CTL k) 0

/-- Whether a source's target is unavailable (R424). -/
def Hw.unavailable (h : Hw) (n : Nat) : Bool :=
  let t := h.srcTarget n
  if t = 8 then !h.vecOpen (h.rd .EV_SRC_vector n)
  else h.clerkPower t != 3 || h.clerkState t == 0 || h.clerkState t == 3

/-- Sources whose configuration copies disagree raise F-0x3A2 once (R416). -/
def Hw.checkCopies (h : Hw) : Hw :=
  let new := (((h.bad.filter (fun r => r.name = .EV_SRC)).map (·.ix)).eraseDups).filter (fun n => !h.ev.split.contains n)
  h.over new (fun h n => ({ h with ev := { h.ev with split := h.ev.split ++ [n] } } : Hw).raise 0x3A2 8)

/-- What follows from sources that are no longer PENDING: their stranded bits clear (R424), and a vector that is no longer pending is
announced anew when it becomes pending again (R426). -/
def Hw.watch (h : Hw) : Hw :=
  let h := h.checkCopies
  let h := { h with ev := { h.ev with announced := h.ev.announced.filter (h.vecPending ·) } }
  h.over ((List.range 32).filter (fun w => h.val .EV_STRANDED w != 0)) (fun h w =>
    h.over (((List.range 64).map (64 * w + ·)).filter (fun n => bit (h.val .EV_STRANDED w) (n % 64) && !h.srcPending n))
      (fun h n => h.setVal .EV_STRANDED (setBits (h.val .EV_STRANDED w) (n % 64) (n % 64) 0) w))

end Sys2Proof.Machine
end

