-- ==== Sys2Proof/Machine/Events.lean ====
section
/-! DEFINITION. The event controller at work: entry, claims, completion and exit, stranding, configuration writes, messages to the
host, doorbells and timers (spec/18_event_controller.md, R413 to R427). -/

namespace Sys2Proof.Machine

/-- An EV_CNT counter of a clerk, or of the host (8), advanced. -/
def Hw.evCount (h : Hw) (t k : Nat) : Hw := h.count .EV_CNT_count (4 * t + k)

/-- A clerk in a state (R372). -/
def Hw.setClerkState (h : Hw) (c v : Nat) : Hw := h.wr .MC_STATUS_state (setBits (h.rd .MC_STATUS_state) (2 * c + 1) (2 * c) v)

/-! ### Entry and claims (R418, R419) -/

/-- The handler of a claimed source begun: its entry pushed with a resume point. -/
def Hw.startHandler (h : Hw) (c id level : Nat) (r : Resume) : Hw :=
  let h := h.setClerk c (fun x => { x with
    stack := ⟨level, id, some r⟩ :: x.stack, ua := h.rd .EV_HANDLER_entry (16 * c + level) })
  ((((h.wr .EV_CUR_id id c).evCount c 0).pmClerk c 0x0A).setClerkState c 1).watch

/-- The entry sequence at a boundary, if a source is deliverable (R418, R420). `gone` says that a source was deliverable at the
boundary and has gone by the entry claim (R419): the claim then takes what else is deliverable, deliver_en treated as 1, or returns 0,
so that the entry is popped, the clerk goes on at its resume point and the claim counts as spurious. -/
def Hw.interruptEntry (h : Hw) (c : Nat) (gone : Bool) : Hw :=
  let h := h.checkCopies
  let st := h.clerkState c
  if h.clerkPower c != 3 || (st != 1 && st != 2) || !(gone || (h.deliverable c false).isSome) then h
  else match h.deliverable c true with
    | some (id, level) =>
      let x := h.clerk c
      h.startHandler c id level ⟨x.ua, st == 2, x.c, x.rstack.length⟩
    | none => h.evCount c 1

/-- INTERRUPT_ENTRY (R418). -/
def execInterruptEntry (c : Entry) (s : State) : Host.Outcome State Fault Refusal :=
  onHw (fun h => h.interruptEntry c.clerk c.gone) s

/-- EV_CLAIM as a claim returns it. -/
def claimWord (id level : Nat) : Nat := 2 ^ 63 + (level <<< 16) + id

/-- A polled claim (R419): the value that the read returns. -/
def Hw.polledClaim (h : Hw) (c : Nat) : Nat × Hw :=
  let h := h.checkCopies
  match h.deliverable c true with
  | none => (0, h.evCount c 1)
  | some (id, level) =>
    (claimWord id level, (h.setClerk c (fun x => { x with stack := ⟨level, id, none⟩ :: x.stack })).watch)

/-- POLLED_CLAIM (R419): a running clerk's read of EV_CLAIM. The register word keeps what it returned. -/
def execPolledClaim (c : Clerk) (s : State) : Host.Outcome State Fault Refusal :=
  onHw (fun h =>
    if h.clerkPower c != 3 || h.clerkState c != 1 then h
    else
      let (v, h) := h.polledClaim c
      h.setVal .EV_CLAIM v) s

/-! ### Completion and exit (R421, R422) -/

/-- The interrupted context goes on, or a further handler is tail-chained onto it. -/
def Hw.exitHandler (h : Hw) (c : Nat) (r : Resume) : Hw :=
  let h := h.setClerk c (fun x => { x with c := r.c, rstack := (x.rstore.take r.depth).reverse })
  match h.deliverable c false, h.deliverable c true with
  | some _, some (id, level) => (h.startHandler c id level r).evCount c 2
  | _, _ => (h.setClerk c (fun x => { x with ua := r.ua })).setClerkState c (if r.wait then 2 else 1)

/-- A store to EV_DONE, and whether it ended a handler, so that the storing microword's NEXT is ignored. -/
def Hw.evDone (h : Hw) (c id : Nat) : Bool × Hw :=
  match (h.clerk c).stack with
  | e :: r =>
    if e.id = id then
      let h := h.setClerk c (fun x => { x with stack := r })
      match e.resume with
      | some p => (true, h.exitHandler c p)
      | none => (false, h)
    else (false, ((h.wr .EV_CSTAT_done_order 1 c).raise 0x3A1 8).evCount c 3)
  | [] => (false, ((h.wr .EV_CSTAT_done_order 1 c).raise 0x3A1 8).evCount c 3)

/-- EV_DONE (R421): a running clerk's store. -/
def execEvDone (c : Clerk) (v : Word) (s : State) : Host.Outcome State Fault Refusal :=
  onHw (fun h => if h.clerkPower c != 3 || h.clerkState c != 1 then h else (h.evDone c (v.toNat % 8192)).2.watch) s

/-! ### Stranding and configuration (R414, R424, R425) -/

/-- STRAND_TIMEOUT (R424). -/
def execStrandTimeout (n : Fin 2048) (s : State) : Host.Outcome State Fault Refusal :=
  onHw (fun h =>
    let h := h.checkCopies
    if h.srcPending n && h.unavailable n && !bit (h.val .EV_STRANDED (n / 64)) (n % 64) then
      (h.setBit .EV_STRANDED_bits (n % 64) (n / 64)).evCount 8 2
    else h) s

/-- The sources that may take level 15 (R412). -/
def faultSource (n : Nat) : Bool := n == 96 || n == 97 || n == 110 || (decide (112 ≤ n) && decide (n < 128)) || n == 152 || n == 155

/-- A write of EV_SRC (R414, R416, R425): a reserved target is ignored whole, level 15 stored as 14 where the source is no fault. -/
def Hw.srcWrite (h : Hw) (n v : Nat) : Hw :=
  if 8 < bits v 11 8 then h
  else
    let level := if bits v 3 0 = 15 ∧ !faultSource n then 14 else bits v 3 0
    let target := if n = 110 then 8 else bits v 11 8
    let h := (h.setVal .EV_SRC ((bits v 21 16 <<< 16) + (target <<< 8) + level) n).mark ⟨.EV_SRC, 0, 0, n⟩ false
    let h := h.mark ⟨.EV_SRC, 0, 1, n⟩ false
    let h := { h with ev := { h.ev with split := h.ev.split.filter (· != n) } }
    (if h.unavailable n then h else h.setVal .EV_STRANDED (setBits (h.val .EV_STRANDED (n / 64)) (n % 64) (n % 64) 0) (n / 64)).watch

/-- EV_SRC_WRITE (R425). -/
def execEvSrcWrite (n : Fin 2048) (v : Word) (s : State) : Host.Outcome State Fault Refusal := onHw (fun h => h.srcWrite n v.toNat) s

/-! ### The host (R426) -/

/-- The MSI-X message of a vector sent. -/
def Hw.sendVector (h : Hw) (k : Nat) : Hw :=
  ({ h with
      sent := h.sent ++ [Out.msix (h.val .A_MSIX_ADDR k) (h.val .A_MSIX_DATA k)]
      ev := { h.ev with announced := h.ev.announced.filter (· != k) ++ [k] } } : Hw).evCount 8 0

/-- MSIX_SEND (R426): a vector that has become pending is announced once: by its message if the host can receive it, else, where a
mask holds the message, as deferred. -/
def execMsixSend (k : Fin 64) (s : State) : Host.Outcome State Fault Refusal :=
  onHw (fun h =>
    let h := h.checkCopies.watch
    if !h.vecPending k || h.ev.announced.contains k.val then h
    else if h.vecOpen k then h.sendVector k
    else if h.ev.msixOn && h.ev.master then
      ({ h with ev := { h.ev with announced := h.ev.announced ++ [k.val] } } : Hw).evCount 8 1
    else h) s

/-- A vector's mask bit written; unmasked while its pending bit is set, it is announced. -/
def Hw.maskVector (h : Hw) (k v : Nat) : Hw :=
  let was := bit (h.val .A_MSIX_CTL k) 0
  let h := h.setVal .A_MSIX_CTL v k
  if was && h.vecOpen k && h.vecPending k then h.sendVector k else h

/-- VECTOR_UNMASK (R426). -/
def execVectorUnmask (k : Fin 64) (s : State) : Host.Outcome State Fault Refusal := onHw (fun h => h.maskVector k 0) s

/-- MSIX_FUNCTION_CONTROL (R424): when the function's mask is lifted, every vector whose pending bit it held is announced. -/
def execMsixFunctionControl (enable mask busMaster : Bool) (s : State) : Host.Outcome State Fault Refusal :=
  onHw (fun h =>
    let was := h.ev.masked
    let h : Hw := { h with ev := { h.ev with msixOn := enable, masked := mask, master := busMaster } }
    if was && !mask then h.each 64 (fun h k => if h.vecOpen k && h.vecPending k then h.sendVector k else h) else h) s

/-- INT_N is driven low (R427). -/
def Hw.intN (h : Hw) : Bool :=
  h.asserted 110 || (h.on .EV_HOSTCFG_intn_all && (List.range 2048).any h.hostPending)

/-! ### Timers and doorbells (R413) -/

/-- EV_TIMER_EXPIRY (R413). -/
def execEvTimerExpiry (c : Clerk) (s : State) : Host.Outcome State Fault Refusal :=
  onHw (fun h => if h.rd .EV_TIMER_count c = 0 then h else (h.wr .EV_TIMER_count 0 c).wr .EV_CSTAT_timer 1 c) s

/-- Doorbell bits of the shared sources set. -/
def Hw.softSet (h : Hw) (w v : Nat) : Hw := h.setVal .EV_SOFT (h.val .EV_SOFT w ||| v) w
/-- Doorbell bits of a clerk's private sources set. -/
def Hw.privSet (h : Hw) (c v : Nat) : Hw := h.setVal .EV_PSOFT (h.val .EV_PSOFT c ||| (bits v 63 16 <<< 16)) c

/-- SOFT_SET (R413). -/
def execSoftSet (tgt : SoftTarget) (v : Word) (s : State) : Host.Outcome State Fault Refusal :=
  onHw (fun h => match tgt with | .shared w => h.softSet w v.toNat | .priv c => h.privSet c v.toNat) s

end Sys2Proof.Machine
end

