-- ==== Sys2Proof/Machine/Operands.lean ====
section
/-! DEFINITION. The operands of the Odkacel instruction set: the spaces of an operand descriptor, its reads and its writes
(spec/05_odkacel_instruction_set.md, R113 to R120). -/

namespace Sys2Proof.Machine

/-- What operands can name, in either profile: G0 to G15 or X0 to X31, HV, MD, the result slots, the 32 condition bits, the
predicates, and the immediate of the microword (R113, R115). -/
structure Env where
  clerk : Bool
  reg : List Nat
  hv : List Byte
  md : List Byte
  lr : List (BitVec 128)
  cond : List Bool
  pred : List Bool
  imm : Nat
  deriving DecidableEq, Repr

/-- The working width n (R120). -/
def Env.width (e : Env) : Nat := if e.clerk then 64 else 32

/-- The space of a descriptor (R116). -/
def opSpace (d : Nat) : Nat := bits d 21 19
/-- The first byte of an HV or MD field. -/
def opByte (d : Nat) : Nat := bits d 18 10
/-- The first bit of an HV or MD field, counted from the most significant of its byte. -/
def opBit (d : Nat) : Nat := bits d 9 7
/-- The width of a field: bits, or bytes for the byte operations. -/
def opWidth (d : Nat) : Nat := bits d 6 1 + 1

/-- The `w` bits that start at a bit of a byte of an area, in network order (R116). -/
def areaBits (d : List Byte) (byte bit w : Nat) : Nat :=
  let n := (bit + w + 7) / 8
  bits (beNat (slice d byte n)) (8 * n - 1 - bit) (8 * n - bit - w)

/-- An area with those bits replaced by the low bits of `v`. -/
def areaSet (d : List Byte) (byte bit w v : Nat) : List Byte :=
  let n := (bit + w + 7) / 8
  overwrite d byte (beBytes n (setBits (beNat (slice d byte n)) (8 * n - 1 - bit) (8 * n - bit - w) v))

/-- A number of `w` bits sign-extended to `n` (R120). -/
def signExtend (w n v : Nat) : Nat := unsigned n (signed w v)

/-- What a source descriptor reads, at the working width (R116, R120). -/
def Env.source (e : Env) (d : Nat) : Nat :=
  match opSpace d with
  | 0 => nth e.reg (bits d 4 0) 0
  | 1 => areaBits e.hv (opByte d) (opBit d) (opWidth d)
  | 2 => areaBits e.md (opByte d) (opBit d) (opWidth d)
  | 3 =>
    let l := bits d 15 9
    bits (nth e.lr (bits d 18 16) 0#128).toNat (l + opWidth d - 1) l
  | 4 => if bit d 0 then signExtend 24 e.width e.imm else e.imm
  | 5 => if bit d 16 then signExtend 16 e.width (bits d 15 0) else bits d 15 0
  | 6 => ofBool (nth e.cond (bits d 4 0) false)
  | _ => ofBool (nth e.pred (bits d 1 0) false)

/-- The bytes that a byte operation reads of its field A: a field of HV or MD, or in the clerk profile a register, most
significant byte first (R121). -/
def Env.sourceBytes (e : Env) (d : Nat) : List Byte :=
  match opSpace d with
  | 1 => slice e.hv (opByte d) (opWidth d)
  | 2 => slice e.md (opByte d) (opWidth d)
  | _ => beBytes 8 (nth e.reg (bits d 4 0) 0)

/-- A result written to a destination descriptor: truncated to its least significant bits, or nonzero for a condition bit or
predicate (R117, R120). A write of X0 is discarded (R115). -/
def Env.put (e : Env) (d v : Nat) : Env :=
  match opSpace d with
  | 0 => if e.clerk && bits d 4 0 == 0 then e else { e with reg := setNth e.reg (bits d 4 0) (v % 2 ^ e.width) }
  | 1 => { e with hv := areaSet e.hv (opByte d) (opBit d) (opWidth d) v }
  | 2 => { e with md := areaSet e.md (opByte d) (opBit d) (opWidth d) v }
  | 6 => { e with cond := setNth e.cond (bits d 4 0) (v != 0) }
  | 7 => { e with pred := setNth e.pred (bits d 1 0) (v != 0) }
  | _ => e

/-- The bytes of MOVB written to its destination field (R121). -/
def Env.putBytes (e : Env) (d : Nat) (b : List Byte) : Env :=
  match opSpace d with
  | 1 => { e with hv := overwrite e.hv (opByte d) b }
  | 2 => { e with md := overwrite e.md (opByte d) b }
  | _ => e

/-! ### Validity (R116, R117) -/

/-- The bits of [18:0] that the space of a descriptor uses (R116). -/
def opUsed (space : Nat) : Nat :=
  match space with
  | 0 => 0x1F
  | 1 => 0x7FFFE
  | 2 => 0x7FFFE
  | 3 => 0x7FE7E
  | 4 => 1
  | 5 => 0x1FFFF
  | 6 => 0x1F
  | _ => 3

/-- Whether a descriptor of an arithmetic, compare or liveness operation is valid as a source (R116, R117). -/
def opValid (clerk : Bool) (d : Nat) : Bool :=
  let s := opSpace d
  let area (n : Nat) : Bool := decide (opWidth d ≤ 32) && decide (8 * opByte d + opBit d + opWidth d ≤ 8 * n)
  decide (bits d 18 0 &&& opUsed s = bits d 18 0) &&
  match s with
  | 0 => clerk || decide (bits d 4 0 < 16)
  | 1 => area 512
  | 2 => area 64
  | 3 => decide (opWidth d ≤ 32) && decide (bits d 15 9 + opWidth d ≤ 128)
  | _ => true

/-- Whether a descriptor names a space outside the profile (R116). -/
def opForeign (clerk : Bool) (d : Nat) : Bool := clerk && [1, 2, 3, 7].contains (opSpace d)

/-- Whether a valid descriptor can be a destination (R117). -/
def opWritable (d : Nat) : Bool :=
  let s := opSpace d
  s != 3 && s != 4 && s != 5 && (s != 6 || decide (bits d 4 0 < 16))

/-- Whether a descriptor is a valid field of a byte operation (R116, R121). -/
def opBytesValid (d : Nat) : Bool :=
  let s := opSpace d
  (s == 1 || s == 2) && decide (bits d 0 0 = 0) && decide (opBit d = 0)
    && decide (opByte d + opWidth d ≤ if s = 1 then 512 else 64)

/-- What a destination writes, for the overlap rule of R118: its space and its first and last bit or number. -/
def opTarget (bytes : Bool) (d : Nat) : Nat × Nat × Nat :=
  let s := opSpace d
  if s = 1 ∨ s = 2 then
    let lo := 8 * opByte d + opBit d
    (s, lo, lo + (if bytes then 8 * opWidth d else opWidth d) - 1)
  else let r := if s = 7 then bits d 1 0 else bits d 4 0
    (s, r, r)

/-- Whether two destinations overlap. -/
def targetsMeet (a b : Nat × Nat × Nat) : Bool := a.1 == b.1 && decide (a.2.1 ≤ b.2.2) && decide (b.2.1 ≤ a.2.2)

end Sys2Proof.Machine
end

