-- ==== Sys2Proof/Machine/Flags.lean ====
section
/-! DEFINITION. The condition bits and predicates: the read-only condition bits of each profile, guards, the compare
operations, and the next address that branch modes form (spec/05_odkacel_instruction_set.md, R111, R112, R114, R115,
R118 to R120). -/

namespace Sys2Proof.Machine

/-- Condition bits C0 to C31 of a stage routine (R114). -/
def stageConds (c : List Bool) (lr : List (BitVec 128)) (md : List Byte) (p : List Bool) : List Bool :=
  c ++ lr.map (fun r => bit r.toNat 127)
    ++ [bits (byteAt md 4) 6 5 != 0, mdFlag md 7, mdFlag md 5, mdEdition md == 1] ++ p

/-- Condition bits C0 to C31 of a clerk (R115): the success bit of the last CAS, and whether a source is pending above
the clerk's threshold. -/
def clerkConds (c : List Bool) (cas above : Bool) : List Bool :=
  c ++ cas :: List.replicate 7 false ++ above :: List.replicate 7 false

/-- Whether a guard lets its slot act (R118, R123, R127, R133): `g` is g_en, g_sel, g_inv as the four bits that hold them. -/
def Env.guard (e : Env) (g : Nat) : Bool :=
  !bit g 3 || ((if e.clerk then nth e.cond (bits g 2 1) false else nth e.pred (bits g 2 1) false) != bit g 0)

/-- The compare operations (R119): equality, order, and test of bits, over n-bit values. -/
def compareOp (op n a b : Nat) : Bool :=
  match op with
  | 0x10 => decide (a = b)
  | 0x11 => decide (a ≠ b)
  | 0x12 => decide (a < b)
  | 0x13 => decide (a ≤ b)
  | 0x14 => decide (signed n a < signed n b)
  | 0x15 => decide (signed n a ≤ signed n b)
  | _ => decide (a &&& b ≠ 0)

/-- The next microword (R111, R112): its address and the return stack, or none where a CALL finds the stack of `depth` entries
full or a RET finds it empty. `cond` is the condition bits after the nano-word's writes. -/
def nextAddress (w : Nat) (cond : List Bool) (stack : List Nat) (depth : Nat) : Option (Nat × List Nat) :=
  let c (lo : Nat) : Nat := ofBool (nth cond (bits w (lo + 4) lo) false)
  let next := bits w 53 43
  match bits w 42 40 with
  | 1 => some (next ||| c 25, stack)
  | 2 => some (next ||| (2 * c 30 + c 25), stack)
  | 3 => some (next ||| (4 * c 35 + 2 * c 30 + c 25), stack)
  | 4 => if stack.length < depth then some (bits w 10 0, next :: stack) else none
  | 5 => match stack with
    | a :: r => some (a, r)
    | [] => none
  | _ => some (next, stack)

end Sys2Proof.Machine
end

