-- ==== Sys2Proof/Machine/Isa.lean ====
section
/-! DEFINITION. Microwords and nano-words: the operations, the slots, the validation of words as they are written, and the
two stored copies of every store word (spec/05_odkacel_instruction_set.md, R110 to R137; R139, R140, R157, R159 of 06). -/

namespace Sys2Proof.Machine

/-! ### Fields -/

/-- The nano-word a microword names (R110). -/
def uwNano (w : Nat) : Nat := bits w 63 54
/-- Whether a microword ends its routine. -/
def uwEnd (w : Nat) : Bool := bit w 24
/-- A microword's immediate. -/
def uwImm (w : Nat) : Nat := bits w 23 0
/-- Operation slot `k` of a nano-word (R139). -/
def nwOp (w k : Nat) : Nat := bits w (511 - 80 * k) (432 - 80 * k)
/-- Lookup or memory slot `k` of a nano-word. -/
def nwLk (w k : Nat) : Nat := bits w (191 - 64 * k) (128 - 64 * k)
/-- The ST slot of a nano-word. -/
def nwSt (w : Nat) : Nat := bits w 63 8
/-- The length of a nano-word in beats (R140). -/
def nwBeats (w : Nat) : Nat := bits w 1 0 + 1

/-- An operation slot (R118): opcode, guard bits, and the three descriptors. -/
structure OpSlot where
  op : Nat
  g : Nat
  dst : Nat
  a : Nat
  b : Nat
  deriving DecidableEq, Repr

/-- The fields of an operation slot. -/
def opSlot (s : Nat) : OpSlot := ⟨bits s 79 72, bits s 71 68, bits s 67 46, bits s 45 24, bits s 23 2⟩

/-! ### Operations (R119 to R122) -/

/-- The 16-bit ones' complement sum of a field and a start value, with end-around carry (R121). -/
def onesSum (v : Nat) : List Byte → Nat
  | [] => v
  | [a] => let s := v + a.toNat * 256; s % 65536 + s / 65536
  | a :: b :: r => let s := v + a.toNat * 256 + b.toNat; onesSum (s % 65536 + s / 65536) r

/-- The place of the lowest 1 bit of `a` below `n`; `n` if there is none. -/
def lowestBit (n a : Nat) : Nat := ((List.range n).find? a.testBit).getD n

/-- The result of an operation on values at the working width `n` (R119, R120). -/
def arith (op n a b : Nat) : Nat :=
  let m := 2 ^ n
  match op with
  | 0x01 => a
  | 0x02 => (a + b) % m
  | 0x03 => (a + m - b) % m
  | 0x04 => min (a + b) (m - 1)
  | 0x05 => a - b
  | 0x06 => a &&& b
  | 0x07 => a ||| b
  | 0x08 => a ^^^ b
  | 0x09 => a &&& (m - 1 - b)
  | 0x0A => (a <<< (b % n)) % m
  | 0x0B => a >>> (b % n)
  | 0x0C => unsigned n (signed n a / 2 ^ (b % n))
  | 0x0D => min a b
  | 0x0E => max a b
  | 0x0F => ((List.range n).filter a.testBit).length
  | 0x17 => lowestBit n a
  | _ => ofBool (compareOp op n a b)

/-- What a slot writes: nothing, a value, or the bytes of MOVB. -/
inductive OpRes
  | none
  | val (dst v : Nat)
  | bytes (dst : Nat) (d : List Byte)
  deriving DecidableEq, Repr

/-- LIVE (R122): the bit of a port in the words of a replica of PT_LINKVEC. -/
def liveBit (links : List Nat) (a : Nat) : Nat :=
  let p := a % 1024
  if p < 768 then ofBool (bit (nth links (p / 64) 0) (p % 64)) else 0

/-- LIVEW (R122): the 32 bits from bit 32 (a mod 24), the lowest port in bit 0. -/
def liveWord (links : List Nat) (a : Nat) : Nat :=
  let k := a % 24
  bits (nth links (k / 2) 0) (32 * (k % 2) + 31) (32 * (k % 2))

/-- What an operation slot writes, read from the registers as they stand before any slot writes (R118 to R122). -/
def Env.operate (e : Env) (links : List Nat) (now : Nat) (s : OpSlot) : OpRes :=
  let n := e.width
  if s.op = 0 || !e.guard s.g then .none
  else
    let b := e.source s.b
    match s.op with
    | 0x18 => .bytes s.dst (e.sourceBytes s.a)
    | 0x19 => .val s.dst (onesSum (b % 65536) (e.sourceBytes s.a))
    | 0x20 => .val s.dst (crc crc32c (b % 2 ^ 32) (e.sourceBytes s.a))
    | 0x21 => .val s.dst (crc crc32 (b % 2 ^ 32) (e.sourceBytes s.a))
    | 0x22 => .val s.dst (crc crc16 (b % 65536) (e.sourceBytes s.a))
    | 0x28 => .val s.dst (liveBit links (e.source s.a))
    | 0x29 => .val s.dst (liveWord links (e.source s.a))
    | 0x2A => .val s.dst (now % 2 ^ n)
    | op => .val s.dst (arith op n (e.source s.a) b)

/-- A slot's write made. -/
def Env.write (e : Env) : OpRes → Env
  | .none => e
  | .val d v => e.put d v
  | .bytes d b => e.putBytes d b

/-- The four operation slots of a nano-word: all read before any writes (R118). -/
def Env.operations (e : Env) (links : List Nat) (now w : Nat) : Env :=
  ((List.range 4).map (fun k => e.operate links now (opSlot (nwOp w k)))).foldl Env.write e

/-! ### Validation (R137, R157)

A word is refused with the lowest of the causes that apply to it (DESIGN CHOICE, log entry 31): 3 RESERVED_ENCODING, 4
DESCRIPTOR, 5 PROFILE, 6 OVERLAP, 7 BEATS, 8 NEXT_ALIGN, 9 LOOKUP, 10 STATE_SLOT. -/

/-- The opcodes of R119. -/
def opcodes : List Nat := List.range 0x1A ++ [0x20, 0x21, 0x22, 0x28, 0x29, 0x2A]
/-- The opcodes that use no operand B. -/
def opcodesNoB : List Nat := [0x00, 0x01, 0x0F, 0x17, 0x18, 0x28, 0x29, 0x2A]
/-- The opcodes that use no operand A. -/
def opcodesNoA : List Nat := [0x00, 0x2A]
/-- The byte operations that hash or sum (R121). -/
def opcodesHash : List Nat := [0x19, 0x20, 0x21, 0x22]

/-- The causes that an operation slot gives. DESIGN CHOICE, log entry 79: R119 asks an unused operand B to be zero and says nothing of
the unused A of TNOW, which is neither validated nor asked to be zero. -/
def opCauses (clerk : Bool) (raw : Nat) : List Nat :=
  let s := opSlot raw
  let uses (l : List Nat) : Bool := !l.contains s.op
  let hash := opcodesHash.contains s.op
  if s.op = 0 then (if raw = 0 then [] else [3])
  else if !opcodes.contains s.op then [3]
  else
    (if bits raw 1 0 ≠ 0 ∨ (!uses opcodesNoB ∧ s.b ≠ 0) then [3] else [])
    ++ (if clerk ∧ [0x18, 0x19, 0x28, 0x29].contains s.op then [5] else [])
    ++ (if (uses opcodesNoA && opForeign clerk s.a) || (uses opcodesNoB && opForeign clerk s.b)
          || opForeign clerk s.dst then [5] else [])
    ++ (let okA := if s.op = 0x18 ∨ (hash ∧ !clerk) then opBytesValid s.a
          else if hash then opSpace s.a == 0 && opValid true s.a
          else !uses opcodesNoA || opValid clerk s.a
        let okB := !uses opcodesNoB || opValid clerk s.b
        let okD := if s.op = 0x18 then opBytesValid s.dst && opWidth s.dst == opWidth s.a
          else opValid clerk s.dst && opWritable s.dst
        if okA && okB && okD then [] else [4])

/-- The least beats of an operation slot (R119). -/
def opBeats (clerk : Bool) (raw : Nat) : Nat :=
  let s := opSlot raw
  if (s.op = 0x18 ∨ opcodesHash.contains s.op) ∧ !clerk ∧ 32 < opWidth s.a then 2 else 1

/-- What an operation slot writes, for the overlap rule. -/
def opWrites (raw : Nat) : List (Nat × Nat × Nat) :=
  let s := opSlot raw
  if s.op = 0 then [] else [opTarget (s.op == 0x18) s.dst]

/-- The least landing distance of a table, and its greatest sub (R124, R163, R168, R183). -/
def tableLimits (t : Nat) : Nat × Nat :=
  match t with
  | 1 => (1, 0)
  | 2 => (1, 15)
  | 3 => (2, 63)
  | 4 => (2, 1)
  | 5 => (1, 63)
  | _ => (4, 7)

/-- The causes that a lookup slot of an engine gives (R123, R124). -/
def lkCauses (engine raw : Nat) : List Nat :=
  let t := bits raw 63 61
  let land := bits raw 57 54
  if t = 0 then (if raw = 0 then [] else [3])
  else
    (if t = 7 ∨ bits raw 35 0 ≠ 0 ∨ (tableLimits t).2 < bits raw 47 40 then [3] else [])
    ++ (if land < (tableLimits t).1 ∨ (if engine < 12 then 11 else 15) < engine + land then [9] else [])

/-- The causes that the ST slot gives (R127, R128). -/
def stCauses (raw : Nat) : List Nat :=
  let op := bits raw 55 50
  let a := bits raw 45 24
  let b := bits raw 23 2
  let v := bits a 15 0
  let k16 := opSpace a == 5
  if 4 < op then [3]
  else
    (if bits raw 1 0 ≠ 0 then [3] else [])
    ++ (if opValid false a && opValid false b then [] else [4])
    ++ (match op with
      | 0 => []
      | 1 => []
      | 2 => if k16 && decide (v < 2) && b == 0 then [] else [10]
      | 3 => if k16 && decide (12 ≤ v) && decide (v < 16) && b == 0 then [] else [10]
      | _ => if k16 && bits v 7 6 == 0 && bits v 15 14 == 0 then [] else [10])

/-- What the ST slot writes: METER's colour (R118). -/
def stWrites (raw : Nat) : List (Nat × Nat × Nat) := if bits raw 55 50 = 2 then [(2, 8 * 42 + 4, 8 * 42 + 5)] else []

/-- A memory slot (R133): operation, guard bits, registers, size in bytes, signed offset. -/
structure MemSlot where
  op : Nat
  g : Nat
  xa : Nat
  xd : Nat
  xc : Nat
  size : Nat
  offset : Int
  deriving DecidableEq, Repr

/-- The fields of a memory slot. -/
def memSlot (s : Nat) : MemSlot :=
  ⟨bits s 63 59, bits s 58 55, bits s 54 50, bits s 49 45, bits s 44 40, 2 ^ bits s 39 38, signed 20 (bits s 37 18)⟩

/-- The causes that a memory slot gives (R133). -/
def memCauses (raw : Nat) : List Nat :=
  let s := memSlot raw
  if 8 < s.op ∨ bits raw 17 0 ≠ 0 ∨ ((s.op = 0 ∨ s.op = 8) ∧ bits raw 58 0 ≠ 0) then [3] else []

/-- The registers that a memory slot writes. -/
def memWrites (raw : Nat) : List Nat :=
  let s := memSlot raw
  match s.op with
  | 1 => [s.xd]
  | 2 => [s.xd]
  | 4 => [s.xd]
  | 5 => [s.xd]
  | 6 => [s.xa, s.xd, s.xc]
  | 7 => [s.xa, s.xc]
  | _ => []

/-- Whether an operation is a block operation. -/
def isBlock (op : Nat) : Bool := op == 6 || op == 7

/-- Whether the destinations of two different slots overlap. -/
def slotsMeet : List (List (Nat × Nat × Nat)) → Bool
  | [] => false
  | a :: r => r.any (fun b => a.any (fun x => b.any (targetsMeet x))) || slotsMeet r

/-- The refusal cause of a nano-word (R137): 0 if it is accepted. -/
def nanoCause (clerk : Bool) (engine w : Nat) : Nat :=
  let ops := (List.range 4).map (nwOp w)
  let lks := (List.range 2).map (nwLk w)
  let slots := ops.map opWrites ++
    (if clerk then lks.map (fun k => (memWrites k).eraseDups.map (fun r => (0, r, r))) else [stWrites (nwSt w)])
  let block (k : Nat) : Bool := isBlock (memSlot (nth lks k 0)).op && (nth lks (1 - k) 0 != 0 || ops.any (· != 0))
  let causes := (if bits w 7 2 ≠ 0 then [3] else [])
    ++ ops.flatMap (opCauses clerk)
    ++ (if clerk then lks.flatMap memCauses ++ (if nwSt w ≠ 0 then [5] else []) ++ (if block 0 || block 1 then [3] else [])
        else lks.flatMap (lkCauses engine) ++ stCauses (nwSt w))
    ++ (if slotsMeet slots then [6] else [])
    ++ (if ops.any (fun o => decide (nwBeats w < opBeats clerk o)) then [7] else [])
  (lowest causes).getD 0

/-- The refusal cause of a microword (R111, R137). -/
def microCause (w : Nat) : Nat :=
  if uwEnd w then 0
  else match bits w 42 40 with
    | 1 => if bits w 43 43 = 0 then 0 else 8
    | 2 => if bits w 44 43 = 0 then 0 else 8
    | 3 => if bits w 45 43 = 0 then 0 else 8
    | 6 => 3
    | 7 => 3
    | _ => 0

/-! ### Key profiles (R125) -/

/-- The nine segments of a key profile, three a word. -/
def allSegments (ws : List Nat) : List Nat := ws.flatMap (fun w => [bits w 59 40, bits w 39 20, bits w 19 0])

/-- The segments of a key profile up to its first END. -/
def profileSegments (ws : List Nat) : List Nat := (allSegments ws).takeWhile (fun s => bits s 19 17 != 0)

/-- The bytes that a segment contributes. -/
def segmentLen (s : Nat) : Nat := if bits s 19 17 = 3 then 4 else bits s 7 2 + 1

/-- The refusal cause of a key profile's words (R125, R137): reserved encodings in any segment, the limits in those up to the first
END. DESIGN CHOICE, log entry 80: the limits are not applied behind the first END, and each write of one word judges the whole profile
with the bank's other words as they stand. -/
def profileRefusal (ws : List Nat) : Nat :=
  let segs := profileSegments ws
  if ws.any (fun w => bits w 63 60 != 0) || (allSegments ws).any (fun s => decide (3 < bits s 19 17) || bits s 1 0 != 0
      || (bits s 19 17 == 3 && bits s 16 12 != 0)) then 3
  else if segs.any (fun s => bits s 19 17 != 3 && decide ((if bits s 19 17 = 1 then 512 else 64) < bits s 16 8 + segmentLen s))
      || decide (80 < (segs.map segmentLen).foldl (· + ·) 0) then 9
  else 0

/-- The key that a profile forms from HV, MD and G (R125). -/
def formKey (ws : List Nat) (hv md : List Byte) (g : List Nat) : List Byte :=
  (profileSegments ws).flatMap (fun s =>
    match bits s 19 17 with
    | 1 => slice hv (bits s 16 8) (segmentLen s)
    | 2 => slice md (bits s 16 8) (segmentLen s)
    | _ => beBytes 4 (nth g (bits s 11 8) 0))

/-! ### Stored copies (R159) -/

/-- A word of a store of a slice in an edition's bank: copy 0 if it passes its check, else copy 1, else none; and what is
raised. -/
def Hw.storeWord (h : Hw) (name : RegName) (n ed ix pipe : Nat) : Option Nat × Hw :=
  if h.good ⟨name, n, ed, ix⟩ then (some (h.val name ix n ed), h)
  else if h.good ⟨name, n, ed + 2, ix⟩ then (some (h.val name ix n (ed + 2)), h.raise 0x211 n pipe)
  else (none, h.raise 0x210 n pipe)

/-- Words of a store read together: none if one of them fails in both copies. -/
def Hw.storeWords? (h : Hw) (name : RegName) (n ed ix pipe : Nat) : Nat → Option (List Nat) × Hw
  | 0 => (some [], h)
  | k + 1 =>
    let (a, h) := h.storeWord name n ed ix pipe
    let (r, h) := h.storeWords? name n ed (ix + 1) pipe k
    (match a, r with | some x, some l => some (x :: l) | _, _ => none, h)

/-- The number that 64-bit words spell, the first the least significant. -/
def wordsNat : List Nat → Nat
  | [] => 0
  | w :: r => w + 2 ^ 64 * wordsNat r

/-- A store word written in both copies of a bank. -/
def Hw.setStore (h : Hw) (name : RegName) (n bank ix v : Nat) : Hw :=
  let h := (h.setVal name v ix n bank).setVal name v ix n (bank + 2)
  (h.mark ⟨name, n, bank, ix⟩ false).mark ⟨name, n, bank + 2, ix⟩ false

end Sys2Proof.Machine
end

