-- ==== Sys2Proof/Machine/Aes.lean ====
section
/-! DEFINITION. AES-256 (FIPS 197), its Galois counter mode (SP 800-38D) and RFC 3394 key wrap, which the SecY engines,
the seal unit and the import logic use (spec/13_cipher_engine.md, R313, R320; spec/12_ledger.md, R303). The
countermeasures of R327 change no result. -/

namespace Sys2Proof.Machine

/-! ### The field of 256 elements and the S-box -/

/-- Multiplication by x in the field of FIPS 197. -/
def xtime (a : Byte) : Byte := if a.msb then (a <<< 1) ^^^ 0x1B#8 else a <<< 1

/-- The product of two bytes in the field. -/
def gmul (a b : Byte) : Byte :=
  (List.range 8).foldl (fun r i => xtime r ^^^ (if b.getLsbD (7 - i) then a else 0#8)) 0#8

/-- A byte to the power 2^n - 2 by squaring and multiplying: for n = 8 the inverse, with 0 for 0. -/
def gpow (a : Byte) : Nat → Byte
  | 0 => 1#8
  | n + 1 => let r := gpow a n; gmul (gmul r r) a

/-- The inverse of a byte: its power 254. -/
def ginv (a : Byte) : Byte := let r := gpow a 7; gmul r r

/-- The S-box. -/
def subByte (a : Byte) : Byte :=
  let b := ginv a
  b ^^^ b.rotateLeft 1 ^^^ b.rotateLeft 2 ^^^ b.rotateLeft 3 ^^^ b.rotateLeft 4 ^^^ 0x63#8

/-- The S-box as a table. -/
def sboxTable : Array Byte := ((List.range 256).map (fun i => subByte (BitVec.ofNat 8 i))).toArray
/-- The inverse S-box as a table. -/
def invSboxTable : Array Byte :=
  ((List.range 256).map (fun i =>
    BitVec.ofNat 8 (((List.range 256).find? (fun j => (subByte (BitVec.ofNat 8 j)).toNat == i)).getD 0))).toArray

/-- The S-box read from its table. -/
def sbox (a : Byte) : Byte := sboxTable.getD a.toNat 0#8
/-- The inverse S-box read from its table. -/
def invSbox (a : Byte) : Byte := invSboxTable.getD a.toNat 0#8

/-- Byte-wise exclusive or, of the length of the shorter. -/
def xorBytes (a b : List Byte) : List Byte := List.zipWith (· ^^^ ·) a b

/-! ### The cipher -/

/-- The words of the key schedule, newest first, extended by `n` words. -/
def keyWords (ws : List (List Byte)) (i : Nat) : Nat → List (List Byte)
  | 0 => ws
  | n + 1 =>
    let t := ws.headD []
    let t := if i % 8 = 0 then xorBytes ((t.drop 1 ++ t.take 1).map sbox) (gpowTwo (i / 8 - 1) :: [0#8, 0#8, 0#8])
      else if i % 8 = 4 then t.map sbox else t
    keyWords (xorBytes (ws.getD 7 []) t :: ws) (i + 1) n
where
  /-- x to the power n in the field. -/
  gpowTwo : Nat → Byte
    | 0 => 1#8
    | n + 1 => xtime (gpowTwo n)

/-- A list cut into pieces of `k`. -/
def chunks {α : Type} (k : Nat) : Nat → List α → List (List α)
  | 0, _ => []
  | n + 1, l => if l.isEmpty then [] else l.take k :: chunks k n (l.drop k)

/-- The 15 round keys of a 32-byte key. -/
def roundKeys (key : List Byte) : List (List Byte) :=
  let ws := (keyWords (chunks 4 8 key).reverse 8 52).reverse
  (chunks 4 15 ws).map List.flatten

/-- The rows of a block shifted: byte i of the result is byte `ix i`. -/
def pick (b : List Byte) (ix : Nat → Nat) : List Byte := (List.range 16).map (fun i => b.getD (ix i) 0#8)
/-- ShiftRows. -/
def shiftRows (b : List Byte) : List Byte := pick b (fun i => (i + 4 * (i % 4)) % 16)
/-- InvShiftRows. -/
def invShiftRows (b : List Byte) : List Byte := pick b (fun i => (i + 12 * (i % 4)) % 16)

/-- Every column multiplied by the circulant matrix of a row. -/
def mixWith (c0 c1 c2 c3 : Byte) (b : List Byte) : List Byte :=
  (chunks 4 4 b).flatMap (fun x =>
    let g (i : Nat) : Byte := x.getD (i % 4) 0#8
    (List.range 4).map (fun i => gmul c0 (g i) ^^^ gmul c1 (g (i + 1)) ^^^ gmul c2 (g (i + 2)) ^^^ gmul c3 (g (i + 3))))

/-- A block encrypted under round keys. -/
def aesEnc (rk : List (List Byte)) (b : List Byte) : List Byte :=
  let s := xorBytes b (rk.headD [])
  let s := ((rk.drop 1).take 13).foldl (fun s k => xorBytes (mixWith 2#8 3#8 1#8 1#8 (shiftRows (s.map sbox))) k) s
  xorBytes (shiftRows (s.map sbox)) (rk.getD 14 [])

/-- A block decrypted under round keys. -/
def aesDec (rk : List (List Byte)) (b : List Byte) : List Byte :=
  let s := xorBytes b (rk.getD 14 [])
  let s := ((rk.drop 1).take 13).reverse.foldl
    (fun s k => mixWith 14#8 11#8 13#8 9#8 (xorBytes ((invShiftRows s).map invSbox) k)) s
  xorBytes ((invShiftRows s).map invSbox) (rk.headD [])

/-! ### Galois counter mode -/

/-- The product of two blocks in the field of GHASH, bit 0 the most significant. -/
def ghashMul (x y : Nat) : Nat :=
  ((List.range 128).foldl (fun (a : Nat × Nat) i =>
    let z := if x.testBit (127 - i) then a.1 ^^^ a.2 else a.1
    (z, if a.2 % 2 = 1 then (a.2 >>> 1) ^^^ (0xE1 <<< 120) else a.2 >>> 1)) (0, y)).1

/-- Bytes padded with zeros to whole blocks. -/
def padBlocks (d : List Byte) : List Byte := d ++ List.replicate ((16 - d.length % 16) % 16) 0#8

/-- GHASH of bytes that fill whole blocks. -/
def ghash (h : Nat) (d : List Byte) : Nat :=
  (chunks 16 (d.length / 16) d).foldl (fun y b => ghashMul (y ^^^ beNat b) h) 0

/-- Counter mode from a counter block on: the key stream over the data. -/
def ctr (rk : List (List Byte)) (iv : List Byte) (c : Nat) (d : List Byte) : List Byte :=
  let bs := chunks 16 (d.length / 16 + 1) d
  (bs.zipIdx).flatMap (fun b => xorBytes b.1 (aesEnc rk (iv ++ beBytes 4 (c + b.2))))

/-- The authentication tag of a cipher text under a 12-byte IV. -/
def gcmTag (rk : List (List Byte)) (iv aad c : List Byte) : List Byte :=
  let h := beNat (aesEnc rk (List.replicate 16 0#8))
  let s := ghash h (padBlocks aad ++ padBlocks c ++ beBytes 8 (8 * aad.length) ++ beBytes 8 (8 * c.length))
  xorBytes (beBytes 16 s) (aesEnc rk (iv ++ beBytes 4 1))

/-- AES-256-GCM encryption: cipher text and tag. -/
def gcmSeal (key iv aad p : List Byte) : List Byte × List Byte :=
  let rk := roundKeys key
  let c := ctr rk iv 2 p
  (c, gcmTag rk iv aad c)

/-- AES-256-GCM decryption: the plaintext, if the tag agrees. -/
def gcmOpen (key iv aad c tag : List Byte) : Option (List Byte) :=
  let rk := roundKeys key
  if gcmTag rk iv aad c = tag then some (ctr rk iv 2 c) else none

/-! ### Key wrap (RFC 3394) -/

/-- One step of the unwrapping of registers: step number t. -/
def unwrapStep (rk : List (List Byte)) (n : Nat) (s : List Byte × List (List Byte)) (t : Nat) :
    List Byte × List (List Byte) :=
  let i := (t - 1) % n
  let b := aesDec rk (beBytes 8 (beNat s.1 ^^^ t) ++ s.2.getD i [])
  (b.take 8, s.2.set i (b.drop 8))

/-- A 40-byte wrapped key unwrapped: the 32-byte key, if the integrity value agrees. -/
def keyUnwrap (kek wrapped : List Byte) : Option (List Byte) :=
  let rk := roundKeys kek
  let r := chunks 8 4 (wrapped.drop 8)
  let s := ((List.range 24).map (fun j => 24 - j)).foldl (unwrapStep rk 4) (wrapped.take 8, r)
  if s.1 = List.replicate 8 0xA6#8 then some s.2.flatten else none

end Sys2Proof.Machine
end

