-- ==== Sys2Proof/Machine/Queues.lean ====
section
/-! DEFINITION. The egress queues: admission, WRED, ECN marking, visibility, discards, aging and accounting
(spec/11_queues_scheduling_and_policing.md, R257 to R264, R279 to R282), and the counter of each drop reason (R513). -/

namespace Sys2Proof.Machine

/-! ### Drops and their counters (R513) -/

/-- The reasons charged to EGR_CONGEST_DROP, line 3 (R255, R282). -/
def congestReasons : List Nat := [0x60, 0x61, 0x62, 0x68, 0x69, 0x6A, 0x6C]

/-- A counter word advanced by one. -/
def Hw.bump (h : Hw) (n : RegName) (ix : Nat) (sl : Nat := 0) : Hw := h.setVal n ((h.val n ix sl + 1) % 2 ^ 48) ix sl

/-- The PT_CNT index of a reason that a port counts. -/
def ptDropIx (reason : Nat) : Option Nat :=
  match reason with
  | 0x01 => some 4 | 0x02 => some 5 | 0x03 => some 6 | 0x04 => some 7 | 0x05 => some 8 | 0x06 => some 9
  | 0x07 => some 10 | 0x08 => some 11 | 0x09 => some 18 | 0x0A => some 19 | 0x0C => some 12 | 0x0D => some 17
  | 0x0E => some 13 | 0x0F => some 14 | 0x10 => some 20 | _ => none

/-- The block counter of a drop in a slice (R513): the counter that the register maps give the reason, if any. `port` is
the port that a port counter belongs to. -/
def Hw.dropCount (h : Hw) (sl reason : Nat) (port : Nat := 0x3FF) : Hw :=
  match reason with
  | 0x0B => h.setVal .PT_NOPORT_CNT (h.val .PT_NOPORT_CNT 0 sl + 1) 0 sl
  | 0x20 => h.bump .PA_CNT 3 sl
  | 0x23 => h.bump .PA_CNT 4 sl
  | 0x24 => h.bump .PA_CNT 7 sl
  | 0x30 => h.bump .SE_ISA_CNT 0 sl
  | 0x31 => h.bump .SE_ISA_CNT 1 sl
  | 0x32 => h.bump .SE_ISA_CNT 2 sl
  | 0x33 => h.bump .SE_ISA_CNT 3 sl
  | 0x34 => h.bump .SE_ABORT_CNT 0 sl
  | 0x35 => h.bump .SE_ABORT_CNT 1 sl
  | 0x36 => h.bump .SE_ABORT_CNT 2 sl
  | 0x37 => h.bump .SE_ABORT_CNT 3 sl
  | 0x38 => h.bump .SE_ABORT_CNT 4 sl
  | 0x39 => h.bump .SE_ABORT_CNT 5 sl
  | 0x40 => h.bump .CL_CNT 2 sl
  | 0x42 => h.bump .CL_CNT 3 sl
  | 0x43 => h.bump .GC_CNT 5 sl
  | 0x44 => h.bump .FT_CNT 1 sl
  | 0x45 => h.bump .FT_CNT 4 sl
  | 0x46 => h.bump .FT_CNT 7 sl
  | 0x47 => h.bump .FT_CNT 10 sl
  | 0x48 => h.bump .FT_CNT 11 sl
  | 0x60 => h.bump .BP_CNT 5 sl
  | 0x61 => h.bump .BP_CNT 6 sl
  | 0x62 => h.bump .XB_CNT 4
  | 0x63 => h.bump .XB_CNT 5
  | 0x64 => h.bump .XB_CNT 6
  | 0x65 => h.bump .XB_CNT 7
  | 0x66 => h.bump .BP_CNT 7 sl
  | 0x67 => h.bump .XB_CNT 8
  | 0x6B => h.bump .TM_POL_CNT 3
  | 0x6E => h.bump .TM_CNT 1 sl
  | 0x70 => h.bump .HM_CNT 3
  | 0x71 => h.bump .HM_CNT 4
  | 0x7F => h.bump .ED_CNT 3
  | 0x80 => h.bump .CS_REFUSE_CNT 0 sl
  | 0x81 => h.bump .CS_NOOWNER_CNT 0 sl
  | 0x82 => h.bump .CS_TAGFAIL_CNT 0 sl
  | 0x8A => h.bump .CS_COCHECK_CNT 0 sl
  | 0xC0 => h.bump .SF_CNT 2
  | 0xC2 => h.bump .SF_CNT 4
  | 0xC4 => h.bump .SF_CNT 5
  | 0xC5 => h.bump .SF_CNT 6
  | 0xC6 => h.bump .SF_CNT 7
  | 0xC7 => h.bump .SF_CNT 6
  | 0xC8 => h.bump .SF_CNT 7
  | 0xC9 => h.bump .SF_CNT 8
  | 0xCE => h.bump .ED_CNT 2
  | r =>
    if 0xE0 ≤ r then h.bump .SE_ISA_CNT 4 sl
    else if 0xA0 ≤ r ∧ r ≤ 0xAB then h.bump .CX_CNT (r - 0xA0 + 2)
    else match ptDropIx r with
      | some c => if port < 768 then h.ptCount port c else h
      | none => h

/-- The reasons of a bad tail status (R73 to R77). -/
def tailReasons : List Nat := [0x01, 0x02, 0x03, 0x04, 0x05, 0x06, 0x07, 0x0C, 0x0E, 0x0F]

/-- The port on which the drop of a copy for an egress port is counted: a tail status has been counted on the ingress port, and is
not counted again (R81). -/
def countedOn (reason port : Nat) : Nat := if tailReasons.contains reason then 0x3FF else port

/-- A frame or copy dropped in a slice: its reason's counter and the DROPS event. -/
def Hw.dropped (h : Hw) (sl reason tenant : Nat) (pipe : Nat := 15) (port : Nat := 0x3FF) : Hw :=
  (h.dropCount sl reason port).pmDrop sl reason pipe (some tenant)

/-- The charge of a copy held in the ledger's accounting that is dropped with a reason (R255, R282, R285, R297). -/
def Hw.chargeDrop (h : Hw) (origin reason tenant bytes : Nat) : Hw :=
  if congestReasons.contains reason then h.congest origin tenant bytes else h.errHeld origin tenant bytes

/-! ### Queues -/

/-- The number of a slice's recirculation queue beside its 1,536 port queues (R257). -/
def rcq : Nat := 1536
/-- The key of a slice's queue. -/
def qkey (sl q : Nat) : Nat := 2048 * sl + q
/-- A queue of a slice. -/
def Hw.queue (h : Hw) (sl q : Nat) : QueueSt := FMap.get (fun _ => QueueSt.empty) h.queues (qkey sl q)
/-- The hardware with a queue replaced. -/
def Hw.setQueue (h : Hw) (sl q : Nat) (x : QueueSt) : Hw :=
  { h with queues := FMap.put natLt (fun _ => QueueSt.empty) h.queues (qkey sl q) x }
/-- A port's scheduler. -/
def Hw.sched (h : Hw) (p : Nat) : Sched := FMap.get (fun _ => Sched.idle) h.scheds p
/-- The hardware with a port's scheduler replaced. -/
def Hw.setSched (h : Hw) (p : Nat) (x : Sched) : Hw :=
  { h with scheds := FMap.put natLt (fun _ => Sched.idle) h.scheds p x }
/-- A slice's deep buffer. -/
def Hw.db (h : Hw) (n : Nat) : DbSt := FMap.get (fun _ => DbSt.empty) h.dbs n
/-- The hardware with a slice's deep buffer replaced. -/
def Hw.setDb (h : Hw) (n : Nat) (x : DbSt) : Hw :=
  { h with dbs := FMap.put natLt (fun _ => DbSt.empty) h.dbs n x }
/-- The queue of a port (R257). -/
def portQ (p q : Nat) : Nat := 16 * portIx p + q
/-- The logical port of a slice's queue. -/
def qPort (sl q : Nat) : Nat := 96 * sl + q / 16
/-- A note for the transmit path. -/
def Hw.note (h : Hw) (x : Note) : Hw := { h with notes := h.notes ++ [x] }

/-- What a copy counts in its queue's occupancy (R258). -/
def QCopy.size (c : QCopy) : Nat := if c.whole then c.desc.len else c.bound
/-- Bytes of the on-die part. -/
def QueueSt.onDie (q : QueueSt) : Nat := (q.die.map QCopy.size).foldl (· + ·) 0
/-- Whether the HBM part holds a copy. -/
def QueueSt.deep (q : QueueSt) : Bool := !q.blocks.isEmpty || !q.spill.isEmpty || !q.stage.isEmpty
/-- Whether the queue holds nothing, on die and in HBM. -/
def QueueSt.clear (q : QueueSt) : Bool := q.die.isEmpty && !q.deep
/-- The copies that hold a buffer or wait for one. -/
def QueueSt.copies (q : QueueSt) : List QCopy := q.die ++ q.spill
/-- A change of one copy of the queue. -/
def QueueSt.upd (q : QueueSt) (id : Nat) (f : QCopy → QCopy) : QueueSt :=
  { q with die := updFirst (fun c => c.id == id) f q.die, spill := updFirst (fun c => c.id == id) f q.spill }
/-- A queue that has emptied has its deficit set to 0 (R266.3). -/
def QueueSt.rested (q : QueueSt) : QueueSt := if q.clear then { q with deficit := 0 } else q
/-- The queue without a copy. -/
def QueueSt.del (q : QueueSt) (c : QCopy) : QueueSt :=
  ({ q with die := delFirst (fun x => x.id == c.id) q.die, spill := delFirst (fun x => x.id == c.id) q.spill,
            occ := q.occ - c.size, cnt := q.cnt - 1,
            hbm := if q.spill.any (fun x => x.id == c.id) then q.hbm - c.size else q.hbm } : QueueSt).rested

/-- The counted length of a copy of a stored length in a port queue (R264). -/
def Hw.counted (h : Hw) (n q len : Nat) : Nat :=
  (max 1 ((len : Int) + h.rd .TM_PORTCFG_overhead (q / 16) n + signed 6 (h.rd .TM_QCFG_adjust q n))).toNat

/-- Serial-number order of 48-bit finish times (R267). -/
def serialLt (a b : Nat) : Bool := decide (1 ≤ (b + 2 ^ 48 - a) % 2 ^ 48) && decide ((b + 2 ^ 48 - a) % 2 ^ 48 < 2 ^ 47)

/-- What a counted length adds to a finish time in a queue of a slice (R267). -/
def Hw.finishStep (h : Hw) (n q counted : Nat) : Nat := counted * 1024 / max 1 (h.rd .TM_QCFG_weight q n)

/-- The finish time of a copy that reaches the head of a port queue of a slice (R267). -/
def Hw.finishTime (h : Hw) (n q len : Nat) : Nat :=
  let f := (h.queue n q).flast
  let v := (h.sched (qPort n q)).v
  ((if serialLt v f then f else v) + h.finishStep n q (h.counted n q len)) % 2 ^ 48

/-- The head of a port queue of a slice receives its finish time when it reaches the head, in FAIR mode (R267). -/
def Hw.giveHead (h : Hw) (n q : Nat) : Hw :=
  let x := h.queue n q
  match x.die with
  | c :: r =>
    if rcq ≤ q ∨ h.rd .TM_PORTCFG_phase (q / 16) n = 1 ∨ c.fin.isSome = true then h
    else h.setQueue n q { x with die := { c with fin := some (h.finishTime n q c.size) } :: r }
  | [] => h

/-- The length of a copy that was picked before its length was known becomes known (R264): the difference is credited to the
queue's deficit, or taken from its last finish time. -/
def Hw.credit (h : Hw) (sl q bound len : Nat) : Hw :=
  let x := h.queue sl q
  let d : Int := (h.counted sl q bound : Int) - h.counted sl q len
  if q = rcq then h
  else if h.rd .TM_PORTCFG_phase (q / 16) sl = 1 then h.setQueue sl q { x with deficit := x.deficit + d }
  else h.setQueue sl q { x with flast := unsigned 48 (x.flast - d * 1024 / (max 1 (h.rd .TM_QCFG_weight q sl) : Nat)) }

/-- A free request sent (R250). -/
def Hw.free (h : Hw) (sl buffer tag : Nat) : Hw := { h with frees := h.frees ++ [⟨sl, buffer, tag⟩] }

/-- The queue counter of a reason (TM_QCNT). -/
def qDropIx (reason : Nat) : Option Nat :=
  match reason with
  | 0x68 => some 2 | 0x69 => some 4 | 0x6A => some 4 | 0x6C => some 7 | 0x6D => some 7 | _ => none

/-- TM_QCNT of a port queue advanced; the recirculation queue has none. -/
def Hw.qCount (h : Hw) (sl q c : Nat) (n : Nat := 1) : Hw :=
  if q < rcq then h.setVal .TM_QCNT ((h.val .TM_QCNT (8 * q + c) sl + n) % 2 ^ 48) (8 * q + c) sl else h

/-- A copy of a queue resolved by a drop (R240, R282): counted, charged to the carried tenant (tenant 0 for 0x66, 0x6E and
0x71), and its holding of the edition ended. -/
def Hw.resolveCopy (h : Hw) (sl q reason tenant ed bytes : Nat) : Hw :=
  let t := if reason = 0x66 ∨ reason = 0x6E ∨ reason = 0x71 then 0 else tenant
  let h := h.dropped sl reason t 15 (if q < rcq then countedOn reason (qPort sl q) else 0x3FF)
  let h := match qDropIx reason with
    | some c => h.qCount sl q c
    | none => h
  let h := if reason = 0x84 then h.bump .TM_CNT 2 sl else h
  (h.chargeDrop sl reason t bytes).edDown sl ed

/-- A queued copy discarded with a reason: taken from its queue, its buffer freed (R250) but for 0x66 and 0x6E, whose
buffers stay allocated (R253, R281). Its landing frame, if it still lands, has it no more. -/
def Hw.discardCopy (h : Hw) (sl q : Nat) (c : QCopy) (reason : Nat) : Hw :=
  let h := (h.setQueue sl q ((h.queue sl q).del c)).giveHead sl q
  let without (l : Landing) : Landing :=
    if l.sl == sl then { l with copies := l.copies.filter (fun k => k.2 != c.id) } else l
  let h : Hw := { h with landings := h.landings.map without }
  let h := if c.written && reason != 0x66 && reason != 0x6E then h.free sl c.desc.buffer c.desc.tag else h
  h.resolveCopy sl q reason c.desc.tenant c.desc.ed c.size

/-- The copies of a queue that hold or await a buffer discarded (R72, R44, R225, R445); its blocks by a purge walk (R364). -/
def Hw.flushQueue (h : Hw) (sl q reason : Nat) (only : Option Nat := none) : Hw :=
  let sel (c : QCopy) : Bool := match only with | none => true | some b => c.desc.ed == b
  let h := h.over ((h.queue sl q).copies.filter sel) (fun h c => h.discardCopy sl q c reason)
  let x := h.queue sl q
  if x.blocks.isEmpty && x.stage.isEmpty then h
  else (h.setQueue sl q { x with purge := some ⟨reason, only⟩ }).wr .HM_DB_STAT_purging 1 sl

/-- The queues of a slice that hold anything. -/
def Hw.busyQueues (h : Hw) (sl : Nat) : List Nat :=
  (h.queues.filter (fun e => e.1 / 2048 == sl && !e.2.clear)).map (fun e => e.1 % 2048)

/-- Every queue of a port flushed (R72, R445). -/
def Hw.flushPort (h : Hw) (p reason : Nat) : Hw :=
  h.over ((h.busyQueues (portSl p)).filter (fun q => q < rcq && q / 16 == portIx p))
    (fun h q => h.flushQueue (portSl p) q reason)

/-- Every queue of a slice flushed (R44, R464). -/
def Hw.flushSlice (h : Hw) (sl reason : Nat) : Hw :=
  h.over (h.busyQueues sl) (fun h q => h.flushQueue sl q reason)

/-! ### Admission (R258 to R261) -/

/-- A queue's limit in bytes, WRED profile, and whether it spills. -/
def Hw.qLimit (h : Hw) (sl q : Nat) : Nat :=
  1024 * (if q < rcq then h.rd .TM_QCFG_limit_kib q sl else h.rd .TM_RCQ_limit_kib 0 sl)
/-- A queue's WRED profile. -/
def Hw.qWred (h : Hw) (sl q : Nat) : Nat :=
  if q < rcq then h.rd .TM_QCFG_wred q sl else h.rd .TM_RCQ_wred 0 sl
/-- Whether the tail of a queue spills (R261). -/
def Hw.qSpills (h : Hw) (sl q : Nat) : Bool :=
  decide (q < rcq) &&
    ((h.on .TM_QCFG_spill_en q sl && decide (1024 * h.rd .TM_QCFG2_spill_kib q sl ≤ (h.queue sl q).onDie))
      || (h.queue sl q).deep)
/-- Whether a slice's deep buffer can take a copy (R261, R361). -/
def Hw.dbTakes (h : Hw) (sl : Nat) : Bool :=
  h.on .HM_DB_enable sl && h.stackActive (h.rd .HM_DB_base sl)
    && (!(h.db sl).stock.isEmpty || (h.db sl).list.isSome || decide ((h.db sl).high < h.rd .HM_DB_blocks sl))

/-- A copy that must spill and finds no room (R261): counted, HM_EVENT.db_full set when the region is full. -/
def Hw.spillRefused (h : Hw) (n : Nat) : Hw :=
  if h.on .HM_DB_enable n && h.stackActive (h.rd .HM_DB_base n) then (h.bump .HM_CNT 5).setBit .HM_EVENT_events 4 else h

/-- The WRED average after an admission or dequeue at an occupancy (R259); 8 fraction bits of KiB, rounded down (log
entry 10). -/
def wredAvg (w avg occ : Nat) : Nat :=
  let o := occ / 4
  if w = 0 then o else ((avg : Int) + ((o : Int) - avg) / 2 ^ w).toNat

/-- What WRED decides of a copy: admission, drop, or mark or drop (R259). -/
inductive WredAct
  | enter | drop | mark
  deriving DecidableEq, Repr

/-- WRED for a colour of a profile at an average (R259). -/
def Hw.wred (h : Hw) (sl w c avg : Nat) : WredAct × Hw :=
  let ix := 3 * w + c
  let mn := 256 * h.rd .TM_WRED_min_kib ix sl
  let mx := 256 * h.rd .TM_WRED_max_kib ix sl
  if !h.on .TM_WRED_enable ix sl || avg < mn then (.enter, h)
  else if mx ≤ avg then (.drop, h)
  else
    let (r, h) := h.random
    if (r % 65536) * 256 * (mx - mn) < 65536 * h.rd .TM_WRED_pmax ix sl * (avg - mn) then (.mark, h) else (.enter, h)

/-- The sum of 16-bit words with end-around carry, complemented: the Internet checksum arithmetic of RFC 1624. -/
def onesAdd (a b : Nat) : Nat := (a + b) % 65536 + (a + b) / 65536

/-- A header at an offset of the first cell's data with its ECN field set to 0b11 (R260): none when it is not
ECN-capable; unchanged when it reads 0b11 already. The second part says whether a mark was made. -/
def ecnMark (d : List Byte) (o : Nat) : Option (List Byte × Bool) :=
  let b0 := byteAt d o
  let b1 := byteAt d (o + 1)
  if b0 / 16 = 4 then
    if d.length < o + 12 then none
    else match b1 % 4 with
      | 0 => none
      | 3 => some (d, false)
      | e =>
        let m := b0 * 256 + b1
        let m' := m - e + 3
        let hc := fieldAt d (o + 10) 2
        let hc' := 65535 - onesAdd (onesAdd (65535 - hc) (65535 - m)) m'
        some (overwrite (overwrite d o (beBytes 2 m')) (o + 10) (beBytes 2 hc'), true)
  else if b0 / 16 = 6 then
    if d.length < o + 2 then none
    else match b1 / 16 % 4 with
      | 0 => none
      | 3 => some (d, false)
      | e => some (overwrite d (o + 1) [BitVec.ofNat 8 (b1 - 16 * e + 48)], true)
  else none

/-- MD.mark m of an extension: the frame offset, when valid (R105). -/
def mdMark (md : List Byte) (m : Nat) : Option Nat :=
  let v := fieldAt md (24 + 2 * m) 2
  if bit v 15 then some (v % 1024) else none

/-- MD.colour of byte 42 [3:2], with 3 taken as red (R258). -/
def mdColour (md : List Byte) : Nat := min (byteAt md 42 / 4 % 4) 2

/-- The answer of admission: dropped with a reason, or admitted to the on-die or the HBM part. -/
inductive Admission
  | drop (reason : Nat)
  | enter (deep : Bool)
  deriving DecidableEq, Repr

/-- The last check of admission, spill (R258.3, R258.4). -/
def Hw.admitSpill (h : Hw) (sl q : Nat) : Admission :=
  if h.qSpills sl q then (if h.dbTakes sl then .enter true else .drop 0x6A) else .enter false

/-- Admission of a copy to a queue (R258): its bound length, extension, whether it shares its buffer, and the data of its
first cell, answered with any ECN mark (R260). -/
def Hw.enter (h : Hw) (sl q bound : Nat) (ext : List Byte) (shared : Bool) (d : List Byte) :
    Admission × List Byte × Hw :=
  let x := h.queue sl q
  if h.qLimit sl q < x.occ + bound then (.drop 0x69, d, h)
  else
    let w := h.qWred sl q
    let avg := wredAvg (h.rd .TM_WREDCTL_ewma_w w sl) x.avg x.occ
    let h := h.setQueue sl q { x with avg := avg }
    let (a, h) := h.wred sl w (mdColour ext) avg
    match a with
    | .drop => (.drop 0x68, d, h)
    | .enter => (h.admitSpill sl q, d, h)
    | .mark =>
      let m := if q < rcq && h.on .TM_WREDCTL_ecn_en w sl then
          (mdMark ext (h.rd .TM_WREDCTL_ecn_mark w sl)).bind (ecnMark d) else none
      match m with
      | none => (.drop 0x68, d, h)
      | some (d', marked) =>
        if shared && marked then (.drop 0x68, d, h.bump .TM_CNT 4 sl)
        else
          let h := if marked then (h.qCount sl q 3).pm sl 0x51 1 none 15 (some (mdTenant ext)) else h
          (h.admitSpill sl q, d', h)

/-- A copy put into its queue. -/
def Hw.enqueue (h : Hw) (sl q : Nat) (c : QCopy) (deep : Bool) : Hw :=
  let x := h.queue sl q
  let x := if deep then { x with spill := x.spill ++ [c], hbm := x.hbm + c.size } else { x with die := x.die ++ [c] }
  let h := (h.setQueue sl q { x with occ := x.occ + c.size, cnt := x.cnt + 1 }).giveHead sl q
  let h := h.bump .TM_CNT 0 sl
  if q < rcq then h.pm sl 0x50 1 (some (q % 16)) 15 (some c.desc.tenant) else h

/-! ### Visibility (R262), age (R279), accounting (R281) -/

/-- The queue that holds a copy of a number. -/
def Hw.copyQueue (h : Hw) (sl id : Nat) : Option Nat :=
  (h.queues.find? (fun e => e.1 / 2048 == sl && e.2.die.any (fun c => c.id == id))).map (fun e => e.1 % 2048)

/-- COPY_VISIBLE (R262): a copy of the on-die part becomes visible when its last cell is written, its tail being good, or,
when it is sent by cut-through, once its first min(bound, 512) bytes are written. -/
def execCopyVisible (n : Slice) (c : Nat) (s : State) : Host.Outcome State Fault Refusal :=
  onHw (fun h =>
    match h.copyQueue n c with
    | none => h
    | some q =>
      let x := h.queue n q
      h.setQueue n q (x.upd c (fun c =>
        let present := match (h.pool n).bufs.find? (fun b => b.1 == c.desc.buffer) with
          | some b => b.2.bytes.length
          | none => 0
        if c.whole || (c.cut && c.written && decide (min c.bound 512 ≤ present)) then { c with visible := true } else c))) s

/-- The head copies of a queue older than its age limit dropped (R279). `now` is TAI. -/
def Hw.ageQueue (h : Hw) (sl q limit : Nat) : Nat → Hw
  | 0 => h
  | k + 1 =>
    match (h.queue sl q).die with
    | [] => h
    | c :: _ =>
      if limit < h.now - c.enq then (h.discardCopy sl q c 0x6C).ageQueue sl q limit k else h

/-- QUEUE_AGE_SCAN (R279): the heads of every queue with an age limit. -/
def execQueueAgeScan (n : Slice) (s : State) : Host.Outcome State Fault Refusal :=
  onHw (fun h => h.over ((h.busyQueues n).filter (fun q => decide (q < rcq))) (fun h q =>
    let ms := h.rd .TM_QCFG2_age_ms q n
    if ms = 0 then h else h.ageQueue n q (ms * 800000) (h.queue n q).die.length)) s

/-- The lengths of a queue's copies, on die, in the stage and in its blocks. -/
def Hw.heldLengths (h : Hw) (sl : Nat) (x : QueueSt) : List Nat :=
  let blocks := x.blocks ++ (x.stage.filter (fun s => s.copies.isNone)).map (·.block)
  x.copies.map QCopy.size ++ (x.stage.flatMap (fun s => s.copies.getD [])).map (·.len)
    ++ ((h.db sl).packed.filter (fun c => blocks.contains c.block)).map (·.len)

/-- QUEUE_ACCOUNT_CHECK (R281): F-0x704 for a queue whose stored occupancy or copy count disagrees with its copies. -/
def execQueueAccountCheck (n : Slice) (s : State) : Host.Outcome State Fault Refusal :=
  onHw (fun h => h.over ((h.queues.filter (fun e => e.1 / 2048 == n.val)).map (fun e => e.1 % 2048)) (fun h q =>
    let x := h.queue n q
    let ls := h.heldLengths n x
    if ls.foldl (· + ·) 0 = x.occ ∧ ls.length = x.cnt then h else h.raise 0x704 n)) s

end Sys2Proof.Machine
end

