-- ==== Sys2Proof/Machine/Policers.lean ====
section
/-! DEFINITION. The policers: buckets, refill, colour decision, charge, and their commands
(spec/11_queues_scheduling_and_policing.md, R268 to R271, R281). -/

namespace Sys2Proof.Machine

/-- A policer's configuration (TM_POL_CFG0 to CFG2). -/
structure PolCfg where
  mode : Nat
  aware : Bool
  redDrop : Bool
  cir : Nat
  pir : Nat
  cbs : Nat
  ebs : Nat
  deriving DecidableEq, Repr

/-- The configuration that three words spell. -/
def polCfg (w0 w1 w2 : Nat) : PolCfg :=
  ⟨bits w0 63 62, bit w0 61, bit w0 60, bits w0 31 0, bits w1 31 0, bits w2 63 32, bits w2 31 0⟩

/-- Buckets in 1/1,024 byte: Tc, and Te or Tp. -/
structure Buckets where
  tc : Int
  te : Int
  deriving DecidableEq, Repr

/-- A policer's configuration. -/
def Hw.polCfg (h : Hw) (i : Nat) : PolCfg := Machine.polCfg (h.val .A_POL0 i) (h.val .A_POL1 i) (h.val .A_POL2 i)
/-- A policer's buckets as last stored: signed counts of 50 bits. -/
def Hw.polBuckets (h : Hw) (i : Nat) : Buckets := ⟨signed 50 (h.val .A_POLC i), signed 50 (h.val .A_POLE i)⟩
/-- A policer's buckets stored with the time. -/
def Hw.setBuckets (h : Hw) (i : Nat) (b : Buckets) : Hw :=
  ((h.setVal .A_POLC (unsigned 50 b.tc) i).setVal .A_POLE (unsigned 50 b.te) i).setVal .A_POLT h.now i

/-- Full buckets. -/
def PolCfg.full (c : PolCfg) : Buckets := ⟨1024 * c.cbs, 1024 * c.ebs⟩

/-- Tokens that a rate in 100 kb/s units yields in a time in 1.25 ns units, in 1/1,024 byte, rounded down. -/
def tokens (rate elapsed : Nat) : Nat := rate * elapsed * 2 / 125

/-- Buckets refilled for a time (R270). -/
def PolCfg.refill (c : PolCfg) (b : Buckets) (elapsed : Nat) : Buckets :=
  let cbs : Int := 1024 * c.cbs
  let ebs : Int := 1024 * c.ebs
  let tc := b.tc + tokens c.cir elapsed
  match c.mode with
  | 1 => ⟨min tc cbs, if cbs < tc then min (b.te + (tc - cbs)) ebs else b.te⟩
  | 2 => ⟨min tc cbs, min (b.te + tokens c.pir elapsed) ebs⟩
  | _ => b

/-- An access to a policer (R270, R281): its check, and its refill up to now. -/
def Hw.polAccess (h : Hw) (i : Nat) : Hw :=
  let c := h.polCfg i
  if !h.good ⟨.A_POL0, 0, 0, i⟩ then
    ((((h.mark ⟨.A_POL0, 0, 0, i⟩ false).setBuckets i c.full).raise 0x702 8).bump .TM_POL_CNT 5)
  else if c.mode = 0 then h
  else h.setBuckets i (c.refill (h.polBuckets i) (h.now - h.val .A_POLT i))

/-- The colour decision of R269 for B bytes with an input colour: 0 green, 1 yellow, 2 red. -/
def PolCfg.colour (c : PolCfg) (b : Buckets) (len inp : Nat) : Nat :=
  let inp := min inp 2
  let x : Int := 1024 * len
  match c.mode with
  | 1 =>
    if c.aware ∧ inp = 2 then 2
    else if (c.aware = false ∨ inp = 0) ∧ x ≤ b.tc then 0
    else if x ≤ b.te then 1 else 2
  | 2 =>
    if (c.aware ∧ inp = 2) ∨ b.te < x then 2
    else if (c.aware ∧ inp = 1) ∨ b.tc < x then 1 else 0
  | _ => if c.aware then inp else 0

/-- The charge of B bytes under a colour (R270). -/
def PolCfg.charge (c : PolCfg) (b : Buckets) (colour len : Nat) : Buckets :=
  let x : Int := 1024 * len
  match c.mode, colour with
  | 1, 0 => { b with tc := b.tc - x }
  | 1, 1 => { b with te := b.te - x }
  | 2, 0 => ⟨b.tc - x, b.te - x⟩
  | 2, 1 => { b with te := b.te - x }
  | _, _ => b

/-- METER's decision (R269): the colour, and the hardware with the decision counted. -/
def Hw.meter (h : Hw) (i len inp : Nat) : Nat × Hw :=
  let h := h.polAccess i
  let c := (h.polCfg i).colour (h.polBuckets i) len inp
  (c, h.bump .TM_POL_CNT c)

/-- The charge of a metered frame (R270, R271). -/
def Hw.polCharge (h : Hw) (i colour len : Nat) : Hw :=
  let h := h.polAccess i
  let c := h.polCfg i
  if c.mode = 0 then h else h.setBuckets i (c.charge (h.polBuckets i) colour len)

/-- What waited for a deferred length settled by it (R271, R286): a remainder in bytes to each line, under its stamp, and to each
bucket of a colour. -/
def Hw.settleDeferred (h : Hw) (fid len : Nat) : Hw :=
  let mine := h.deferred.filter (fun d => d.fid == fid)
  ({ h with deferred := h.deferred.filter (fun d => d.fid != fid) } : Hw).over mine (fun h d =>
    let rest := len - 512
    let h := if d.lines.isEmpty then h else
      { h with lgq := h.lgq ++
          [⟨d.sl, d.parity, d.lines.map (fun l => ⟨d.tenant, l.1, l.2, 0, rest⟩), 0, 0, 0, d.postCut⟩] }
    h.over d.pols (fun h p => (h.polCharge p.1 p.2 rest).bump .TM_POL_CNT 4))

/-- A refused write of a slice's TM block (R283). -/
def Hw.tmRefuse (h : Hw) (n cause off : Nat) : Hw :=
  ((h.wr .TM_STATUS_write_refused 1 0 n).wr .TM_STATUS_cause cause 0 n).wr .TM_STATUS_refused_offset off 0 n

/-- Whole bytes of a bucket, as TM_POL_STATE shows them. -/
def wholeBytes (x : Int) : Nat := unsigned 40 (x / 1024)

/-- POL_READ (R268). -/
def Hw.polRead (h : Hw) : Hw :=
  if h.on .TM_POL_CMD_busy then h
  else
    let i := h.rd .TM_POL_INDEX_index
    let h := h.polAccess i
    let b := h.polBuckets i
    let h := ((h.setVal .TM_POL_CFG0 (h.val .A_POL0 i)).setVal .TM_POL_CFG1 (h.val .A_POL1 i)).setVal .TM_POL_CFG2
      (h.val .A_POL2 i)
    (h.setVal .TM_POL_STATE0 (wholeBytes b.tc)).setVal .TM_POL_STATE1 (wholeBytes b.te)

/-- POL_READ: the indexed policer into the staging registers. -/
def execPolRead (_n : Slice) (s : State) : Host.Outcome State Fault Refusal :=
  onHw (fun h => h.polRead) s

/-- A staged configuration written to a policer (R268), keeping its buckets clipped to the new bursts, or filling them. -/
def Hw.polWrite (h : Hw) (n : Nat) (fill : Bool) : Hw :=
  let i := h.rd .TM_POL_INDEX_index
  let w0 := h.val .TM_POL_CFG0
  let w1 := h.val .TM_POL_CFG1
  let w2 := h.val .TM_POL_CFG2
  let c := Machine.polCfg w0 w1 w2
  if h.on .TM_POL_CMD_busy then h
  else if c.mode = 2 ∧ c.pir < c.cir then h.tmRefuse n 5 0x6420
  else if c.mode = 3 then h.tmRefuse n 6 0x6420
  else
    let h := h.polAccess i
    let b := h.polBuckets i
    let h := ((h.setVal .A_POL0 w0 i).setVal .A_POL1 w1 i).setVal .A_POL2 w2 i
    h.setBuckets i (if fill then c.full else ⟨min b.tc c.full.tc, min b.te c.full.te⟩)

/-- POL_WRITE (R268). -/
def execPolWrite (n : Slice) (s : State) : Host.Outcome State Fault Refusal := onHw (fun h => h.polWrite n false) s
/-- POL_RESET (R268). -/
def execPolReset (n : Slice) (s : State) : Host.Outcome State Fault Refusal := onHw (fun h => h.polWrite n true) s

end Sys2Proof.Machine
end

