-- ==== Sys2Proof/Machine/Buffers.lean ====
section
/-! DEFINITION. The buffer pools: denominations, requesters, allocation, frees and accounting
(spec/10_crossbar_and_buffers.md, R244 to R254), and what a landing frame does to its copies. -/

namespace Sys2Proof.Machine

/-! ### Denominations and requesters (R244 to R247) -/

/-- Units of 256 bytes of a denomination (R244). -/
def units (d : Nat) : Nat := match d with | 0 => 1 | 1 => 4 | 2 => 16 | _ => 40
/-- The smallest denomination for a bound length (R244). -/
def denom (bound : Nat) : Nat :=
  if bound + 64 ≤ 256 then 0 else if bound + 64 ≤ 1024 then 1 else if bound + 64 ≤ 4096 then 2 else 3
/-- Buffers of a denomination in a carve word (R245). -/
def carveCount (v d : Nat) : Nat := bits v (63 - 16 * d) (48 - 16 * d)
/-- A buffer number (R244). -/
def bufNo (d i : Nat) : Nat := 32768 * d + i
/-- The denomination of a buffer number. -/
def bufDenom (b : Nat) : Nat := b / 32768

/-- The bound length in an extension (R233). -/
def extBound (ext : List Byte) : Nat := fieldAt ext 46 2 % 16384

/-- The requester of a frame: for a mirror copy that of its original, else the first of R246's list that applies. -/
def requester (ext : List Byte) (i : FrInfo) : Nat :=
  if let some r := i.charged then r
  else if mdKind ext = 5 then 96
  else if i.clerk then 97
  else if i.pair then 101
  else if mdFlag ext 6 && mdKind ext == 2 then 98
  else if mdFlag ext 6 then 99
  else if mdKind ext = 2 then 100
  else mdInPort ext / 8 % 96

/-- Whether a requester's allowance permits a denomination (R247). -/
def Hw.allows (h : Hw) (n r d : Nat) : Bool :=
  decide (h.rd .BP_ALLOW_used r n + units d ≤ h.rd .BP_ALLOW_limit r n)

/-! ### Bitmaps and owner records (R249, R250, R252) -/

/-- The number of the summary word of a bank's bitmap, beside those of its leaf words (R249). -/
def summaryWord : Nat := 64
/-- Whether a buffer's bit lies in a bitmap word, leaf or summary, whose check fails (R252). -/
def PoolSt.inBadWord (p : PoolSt) (b : Nat) : Bool :=
  p.badWords.contains (bufDenom b, b % 8, b % 32768 / 8 / 64) || p.badWords.contains (bufDenom b, b % 8, summaryWord)
/-- Whether a buffer's bitmap bit reads free: it is not withheld, not allocated, and no word over it is withheld. -/
def PoolSt.free (p : PoolSt) (b : Nat) : Bool :=
  !p.taken.contains b && !p.withheld.contains b && !p.inBadWord b

/-- The lowest free buffer of a bank of a denomination (R249). -/
def Hw.lowestFree (h : Hw) (n d bank : Nat) : Option Nat :=
  let p := h.pool n
  ((List.range (carveCount p.carve d / 8)).find? (fun k => p.free (bufNo d (8 * k + bank)))).map
    (fun k => bufNo d (8 * k + bank))

/-- The bitmap words whose check fails rebuilt from the owner records (R252). -/
def Hw.rebuildBitmaps (h : Hw) (n : Nat) : Hw :=
  let p := h.pool n
  let taken := p.taken.filter (fun b => !p.inBadWord b) ++ (p.bufs.map (·.1)).filter p.inBadWord
  let h := h.over p.badWords (fun h _ => h.raise 0x612 n)
  h.setPool n { p with taken := taken, badWords := [] }

/-- What an attempt to grant a buffer gives (R249, R252): the buffer, a grant withdrawn, or none free. -/
inductive GrantTry
  | got (b : Nat)
  | withdrawn
  | none
  deriving DecidableEq, Repr

/-- The first bank from `k` on, of those not in `used`, that has a free buffer of a denomination, with the buffer. -/
def Hw.findBuf (h : Hw) (n d k : Nat) (used : List (Nat × Nat)) : Option Nat :=
  (((List.range 8).map (fun i => (k + i) % 8)).filter (fun b => !used.contains (d, b))).findSome? (h.lowestFree n d)

/-- An attempt to grant: the owner record of the buffer found is read first (R252). -/
def Hw.tryGrant (h : Hw) (n d k : Nat) (used : List (Nat × Nat)) : GrantTry × Hw :=
  match h.findBuf n d k used with
  | none => (.none, h)
  | some b =>
    let p := h.pool n
    if p.badRecs.contains b then
      let h := (h.setPool n { p with withheld := b :: p.withheld }).countSat .BP_STATUS_withheld 0 n
      (.withdrawn, (h.raise 0x613 n).bump .BP_CNT 11 n)
    else if p.bufs.any (fun e => e.1 == b) then
      (.withdrawn, ((h.setPool n { p with taken := b :: p.taken }).raise 0x613 n).bump .BP_CNT 11 n)
    else (.got b, h)

/-- A buffer allocated to a requester: its owner record, its bit, its charge (R247, R250), answered with the owner tag. -/
def Hw.allocate (h : Hw) (n b r refs : Nat) (ext bytes : List Byte) (info : FrInfo) : Nat × Hw :=
  let p := h.pool n
  let serial := FMap.get (fun _ => 0) p.serial r
  let tag := 512 * r + serial % 512
  let d := bufDenom b
  let h := h.setPool n { p with
    bufs := (b, ⟨tag, refs, ext, bytes, info⟩) :: p.bufs, taken := b :: p.taken,
    tags := FMap.put natLt (fun _ => 0) p.tags b tag,
    serial := FMap.put natLt (fun _ => 0) p.serial r ((serial + 1) % 512) }
  let h := (h.wr .BP_ALLOW_used (h.rd .BP_ALLOW_used r n + units d) r n).bump .BP_CNT d n
  (tag, h.pm n 0x43 1 (some d) 15 (some (mdTenant ext)))

/-- The buffer with a number and owner tag. -/
def Hw.buf? (h : Hw) (n b tag : Nat) : Option Buf :=
  ((h.pool n).bufs.find? (fun e => e.1 == b && e.2.tag == tag)).map (·.2)

/-- A buffer's content changed; nothing when it is allocated no more under that tag. -/
def Hw.setBuf (h : Hw) (n b tag : Nat) (f : Buf → Buf) : Hw :=
  let p := h.pool n
  h.setPool n { p with bufs := updFirst (fun e => e.1 == b && e.2.tag == tag) (fun e => (e.1, f e.2)) p.bufs }

/-! ### The landing frame and its copies -/

/-- The landing frame with a number. -/
def Hw.landing? (h : Hw) (id : Nat) : Option Landing := h.landings.find? (fun l => l.id == id)
/-- A landing frame replaced. -/
def Hw.setLanding (h : Hw) (l : Landing) : Hw :=
  { h with landings := updFirst (fun x => x.id == l.id) (fun _ => l) h.landings }
/-- A landing frame gone. -/
def Hw.delLanding (h : Hw) (id : Nat) : Hw := { h with landings := h.landings.filter (fun l => l.id != id) }

/-- A change of one queued copy. -/
def Hw.updCopy (h : Hw) (sl q id : Nat) (f : QCopy → QCopy) : Hw := h.setQueue sl q ((h.queue sl q).upd id f)

/-- A queued copy of a number. -/
def Hw.copy? (h : Hw) (sl q id : Nat) : Option QCopy := (h.queue sl q).copies.find? (fun c => c.id == id)

/-- The egress context that holds a copy. -/
def Hw.egOf (h : Hw) (id : Nat) : Option Ctx :=
  h.ctxs.find? (fun x => match x.eg with | some e => e.copy == id | none => false)

/-- Further bytes of a frame for one of its copies that was picked before its end: to its egress context, and to the
outgoing bytes once they are formed, or to the transmit path. -/
def Hw.feed (h : Hw) (id : Nat) (d : List Byte) : Hw :=
  match h.egOf id with
  | some x =>
    h.setCtx { x with
      bytes := x.bytes ++ d
      eg := x.eg.map (fun e => if x.ph = .countersign then { e with out := e.out ++ d } else e) }
  | none => h.note (.data id d)

/-- The end of a frame, good, for a copy that was picked before it. -/
def Hw.feedEnd (h : Hw) (id len : Nat) : Hw :=
  match h.egOf id with
  | some x =>
    h.setCtx { x with
      tail := some 0
      eg := x.eg.map (fun e => if x.ph = .countersign then
          { e with out := padTo (max 60 (e.out.length - 4)) (e.out.take (e.out.length - 4)), whole := true }
        else { e with whole := true }) }
  | none => h.note (.whole id len)

/-- An egress context dropped with a reason before its countersign decision: its buffer freed, its holding and its
ledger count ended. -/
def Hw.dropEgress (h : Hw) (x : Ctx) (reason bytes : Nat) : Hw :=
  match x.eg with
  | none => h
  | some e =>
    let h := (h.delCtx x.id).free x.sl e.buffer e.tag
    let h := h.dropped x.sl reason (mdTenant x.pmd) x.pipe (countedOn reason e.port)
    (h.chargeDrop x.sl reason (mdTenant x.pmd) bytes).edDown x.sl (mdEdition x.pmd)

/-- Every copy of a landing frame resolved with a reason (R78, R240): queued copies discarded, copies in the egress half
dropped, copies handed to the transmit path reported bad, a loss counted in XB_CNT; then the frame lands no more. `stored` is the
stored length when the copies are written (R285). -/
def Hw.killLanding (h : Hw) (l : Landing) (reason : Nat) (stored : Option Nat := none) : Hw :=
  let h := h.over l.copies (fun h c =>
    match h.copy? l.sl c.1 c.2 with
    | some x => h.discardCopy l.sl c.1 x reason
    | none =>
      match h.egOf c.2 with
      | some x => h.dropEgress x reason (stored.getD l.bound)
      | none => (if 0x63 ≤ reason ∧ reason ≤ 0x65 then h.dropCount l.sl reason else h).note (.bad c.2 reason stored))
  h.delLanding l.id

/-- The last cell of a queued copy is written: the copy counts at the length received (R258); the difference comes off a finish time
that it has received (R264). -/
def Hw.sizeCopy (h : Hw) (sl q len : Nat) (c : QCopy) : Hw :=
  let x := h.queue sl q
  let deep := x.spill.any (fun y => y.id == c.id)
  let x := { x with occ := x.occ - c.size + len, hbm := if deep then x.hbm - c.size + len else x.hbm }
  let less (f : Nat) : Nat :=
    (f + 2 ^ 48 - (h.finishStep sl q (h.counted sl q c.size) - h.finishStep sl q (h.counted sl q len))) % 2 ^ 48
  h.setQueue sl q (x.upd c.id (fun c => { c with whole := true, desc := { c.desc with len := len }, fin := c.fin.map less }))

/-- The last cell of a landing frame is written: with a good tail its copies are whole at the length received, else they
are discarded with the tail's reason (R78, R262). -/
def Hw.finishLanding (h : Hw) (l : Landing) : Hw :=
  match l.tail with
  | none => h
  | some r =>
    let h := h.over l.copies (fun h c =>
      match h.copy? l.sl c.1 c.2 with
      | some x => h.sizeCopy l.sl c.1 l.got x
      | none => (if r = 0 then h.feedEnd c.2 l.got else h).credit l.sl c.1 l.bound l.got)
    (if r = 0 then h.delLanding l.id else h.killLanding l r (some l.got)).settleDeferred l.info.fid l.got

/-- Data of a landing frame written into its buffer as it is released (R248.5), and passed on to the copies already
picked. -/
def Hw.writeLanding (h : Hw) (id : Nat) : Hw :=
  match h.landing? id with
  | none => h
  | some l =>
    match l.alloc with
    | .want _ _ _ => h
    | .none =>
      let h := h.setLanding { l with bytes := [] }
      if l.tail.isSome then h.delLanding id else h
    | .has b tag =>
      let h := h.setBuf l.sl b tag (fun x => { x with bytes := x.bytes ++ l.bytes })
      let h := h.over l.copies (fun h c => if (h.copy? l.sl c.1 c.2).isSome then h else h.feed c.2 l.bytes)
      let l := { l with bytes := [] }
      (h.setLanding l).finishLanding l

/-- A buffer granted to a landing frame: the reference count is that of its copies; their descriptors name it. A frame whose copies have all been
discarded meanwhile takes none. -/
def Hw.grantLanding (h : Hw) (l : Landing) (b : Nat) : Hw :=
  let cs := l.copies.filter (fun c => (h.copy? l.sl c.1 c.2).isSome)
  if cs.isEmpty then (h.setLanding { l with alloc := .none, copies := [] }).writeLanding l.id else
  let (tag, h) := h.allocate l.sl b l.requester cs.length l.ext [] l.info
  let h := h.over cs (fun h c => h.updCopy l.sl c.1 c.2 (fun x =>
    { x with written := true, desc := { x.desc with buffer := b, tag := tag } }))
  (h.setLanding { l with alloc := .has b tag, copies := cs }).writeLanding l.id

/-! ### The allocator (R249) -/

/-- A request of one write port in one clock: a drained copy of a queue, or a landing frame. -/
inductive AllocReq
  | drained (q : Nat) (c : StageCopy)
  | frame (l : Landing)
  deriving DecidableEq, Repr

/-- The drained copy that waits on a write port (R249, R363): of the first queue, in ascending order, whose oldest block in
the stage has arrived. -/
def Hw.drainReq (h : Hw) (n k : Nat) : Option AllocReq :=
  (h.busyQueues n).findSome? (fun q =>
    if q % 8 = k ∧ q < rcq then
      match (h.queue n q).stage with
      | ⟨_, _, some (c :: _)⟩ :: _ => some (.drained q c)
      | _ => none
    else none)

/-- The request that a write port carries in a clock: a drained copy, an upsized request, or the oldest new one. -/
def Hw.portReq (h : Hw) (n k : Nat) : Option AllocReq :=
  let waits (up : Bool) (l : Landing) : Bool :=
    l.sl == n && (match l.alloc with | .want _ p u => p == k && u == up | _ => false)
  match h.drainReq n k with
  | some r => some r
  | none => match h.landings.find? (waits true) with
    | some l => some (.frame l)
    | none => (h.landings.find? (waits false)).map .frame

/-- A landing frame's request that received no buffer: upsized once, or dropped with 0x60 (R249). The allowance is judged again at
each allocation (`Hw.servePort`, R247). -/
def Hw.refuseLanding (h : Hw) (l : Landing) : Hw :=
  match l.alloc with
  | .want d p false =>
    if d < 3 ∧ h.allows l.sl l.requester (d + 1) = true then
      ((h.setLanding { l with alloc := .want (d + 1) p true }).bump .BP_CNT 4 l.sl).pm l.sl 0x44 1 none 15
        (some (mdTenant l.ext))
    else h.killLanding l 0x60
  | _ => h.killLanding l 0x60

/-- The oldest copy of the oldest stage block of a queue changed, or taken out. -/
def QueueSt.stageHead (q : QueueSt) (f : StageCopy → Option StageCopy) : QueueSt :=
  match q.stage with
  | ⟨b, u, some (c :: r)⟩ :: bs =>
    match f c with
    | some c => { q with stage := ⟨b, u, some (c :: r)⟩ :: bs }
    | none => { q with stage := if r.isEmpty then bs else ⟨b, u, some r⟩ :: bs }
  | _ => q

/-- A drained copy moved into a buffer and into its queue's on-die part, visible (R363). -/
def Hw.grantDrained (h : Hw) (n q : Nat) (c : StageCopy) (b : Nat) : Hw :=
  let (id, h) := h.fresh
  let (tag, h) := h.allocate n b c.requester 1 c.ext c.bytes c.info
  let p := qPort n q
  let d : Desc := ⟨b, c.len, tag, mdTenant c.ext, mdTag c.ext, mdEdition c.ext, p, q % 16, c.colour, false, c.replica, true⟩
  let x := (h.queue n q).stageHead (fun _ => none)
  let copy : QCopy := ⟨id, d, c.ext, c.len, c.requester, true, true, true, false, c.admitted, true, none⟩
  ((h.setQueue n q { x with die := x.die ++ [copy], hbm := x.hbm - c.len }).giveHead n q).pm n 0x53 1 none 15
    (some (mdTenant c.ext))

/-- One write port served in a clock, given the banks that have granted (R249). A landing frame whose requester's allowance does not
permit the denomination in this clock, since others of its frames have taken theirs meanwhile or its limit was lowered, is dropped
with 0x61 (R247). -/
def Hw.servePort (h : Hw) (n k : Nat) (used : List (Nat × Nat)) : List (Nat × Nat) × Hw :=
  match h.portReq n k with
  | none => (used, h)
  | some (.drained q c) =>
    let d := denom c.len
    match h.tryGrant n d k used with
    | (.got b, h) => ((d, b % 8) :: used, h.grantDrained n q c b)
    | (_, h) =>
      let x := h.queue n q
      let h := if c.waited then h else h.bump .HM_CNT 6
      (used, h.setQueue n q (x.stageHead (fun c => some { c with waited := true })))
  | some (.frame l) =>
    match l.alloc with
    | .want d p _ =>
      if !h.allows l.sl l.requester d then (used, h.killLanding l 0x61)
      else match h.tryGrant n d p used with
      | (.got b, h) => ((d, b % 8) :: used, h.grantLanding l b)
      | (.withdrawn, h) => (used, h)
      | (.none, h) => (used, h.refuseLanding l)
    | _ => (used, h)

/-- ALLOC_REQUEST (R249): one clock of a slice's allocator; `t` is the clock modulo 8. A new request is taken by its write
port only in this clock or later; a failing bitmap word is withheld in the clock and rebuilt at its end (R252). -/
def Hw.allocClock (h : Hw) (n t : Nat) : Hw :=
  let r := ((List.range 8).map (fun i => (t + i) % 8)).foldl (fun (a : List (Nat × Nat) × Hw) k => a.2.servePort n k a.1)
    ([], h)
  r.2.rebuildBitmaps n

/-- ALLOC_REQUEST (R249). -/
def execAllocRequest (n : Slice) (t : Fin 8) (s : State) : Host.Outcome State Fault Refusal :=
  onTx (fun h => h.allocClock n t) s

/-! ### Frees (R250) -/

/-- A refused free (R250): counted, and captured when it is the first. -/
def Hw.freeRefused (h : Hw) (f : FreeReq) (kind recorded : Nat) : Hw :=
  let h := (h.raise (0x610 + kind) f.sl).bump .BP_CNT (8 + kind) f.sl
  if h.on .BP_FREEFAULT_valid 0 f.sl then h
  else
    (h.setVal .BP_FREEFAULT ((1 <<< 63) + (kind <<< 62) + (f.buffer <<< 44) + (recorded <<< 28) + (f.tag <<< 12)) 0
      f.sl).wr .BP_STATUS_free_fault 1 0 f.sl

/-- A free request handled (the table of R250). The record of a free buffer keeps the tag of its last owner; a record that no
allocation has written since the pool was initialised holds tag 0 (DESIGN CHOICE, log entry 75). -/
def Hw.applyFree (h : Hw) (f : FreeReq) : Hw :=
  let p := h.pool f.sl
  match p.bufs.find? (fun e => e.1 == f.buffer) with
  | none => h.freeRefused f 0 (FMap.get (fun _ => 0) p.tags f.buffer)
  | some (_, b) =>
    if b.tag ≠ f.tag then h.freeRefused f 1 b.tag
    else if 1 < b.refs then h.setBuf f.sl f.buffer f.tag (fun b => { b with refs := b.refs - 1 })
    else
      let r := f.tag / 512
      let h := h.setPool f.sl { p with bufs := p.bufs.filter (fun e => e.1 != f.buffer),
                                       taken := p.taken.filter (· != f.buffer) }
      h.wr .BP_ALLOW_used (h.rd .BP_ALLOW_used r f.sl - units (bufDenom f.buffer)) r f.sl

/-- BUFFER_FREE (R250): the slice's oldest free request is handled. -/
def execBufferFree (n : Slice) (s : State) : Host.Outcome State Fault Refusal :=
  onHw (fun h =>
    match h.frees.find? (fun f => f.sl == n.val) with
    | none => h
    | some f => ({ h with frees := delFirst (fun f => f.sl == n.val) h.frees } : Hw).applyFree f) s

/-! ### Carving and accounting (R245, R254) -/

/-- Whether a carve word is one that R245 admits. -/
def carveOk (v : Nat) : Bool :=
  (List.range 4).all (fun d => carveCount v d % 8 == 0) && decide (carveCount v 0 ≤ 32768)
    && decide (((List.range 4).map (fun d => 256 * units d * carveCount v d)).foldl (· + ·) 0 ≤ 33554432)

/-- A write to BP_CARVE (R245). -/
def Hw.carveWrite (h : Hw) (n v : Nat) : Hw :=
  if h.slicePower n ≠ 3 ∧ (h.pool n).bufs.isEmpty = true ∧ carveOk v = true then h.setVal .BP_CARVE v 0 n
  else h.wr .BP_STATUS_carve_refused 1 0 n

/-- BP_CARVE_WRITE (R245). -/
def execBpCarveWrite (n : Slice) (v : Word) (s : State) : Host.Outcome State Fault Refusal :=
  onHw (fun h => h.carveWrite n v.toNat) s

/-- The pool reinitialised, as its slice enters ACTIVE (R245). -/
def Hw.poolInit (h : Hw) (n : Nat) : Hw :=
  let h := (h.setPool n (PoolSt.carved (h.val .BP_CARVE 0 n))).wr .BP_STATUS_withheld 0 0 n
  h.each 104 (fun h r => h.wr .BP_ALLOW_used 0 r n)

/-- POOL_ACCOUNT_CHECK (R254). -/
def execPoolAccountCheck (n : Slice) (s : State) : Host.Outcome State Fault Refusal :=
  onHw (fun h =>
    let p := h.pool n
    let count (l : List Nat) (d : Nat) : Nat := (l.filter (fun b => bufDenom b == d)).length
    let records := p.bufs.map (·.1)
    let used := ((List.range 104).map (fun r => h.rd .BP_ALLOW_used r n)).foldl (· + ·) 0
    let held := (records.map (fun b => units (bufDenom b))).foldl (· + ·) 0
    if (List.range 4).all (fun d => count p.taken d == count records d) && used == held then h
    else (h.raise 0x615 n).wr .BP_STATUS_account_fault 1 0 n) s

end Sys2Proof.Machine
end

