-- ==== Sys2Proof/Machine/Crossbar.lean ====
section
/-! DEFINITION. The crossbar: cell forming, places, planes, resequencing, reassembly and the release of a frame's first
cell into its queues (spec/10_crossbar_and_buffers.md, R230 to R243, R248; R61, R72, R79, R445 where the copies meet
their ports). -/

namespace Sys2Proof.Machine

/-- A stream: source slice, pipeline, destination slice (R231). -/
abbrev StreamKey := Nat × Nat × Nat

/-- Places for a length (R234). -/
def placesFor (bound : Nat) : Nat := ceilDiv bound 256

/-- Speed of a port mode in Gb/s (R58). -/
def modeSpeed (m : Nat) : Nat :=
  match m with
  | 1 => 1600 | 2 => 800 | 3 => 800 | 4 => 400 | 5 => 400 | 6 => 400 | 7 => 200 | 8 => 200 | 9 => 200
  | 10 => 100 | 11 => 100 | 12 => 50 | _ => 0
/-- A port's speed. -/
def Hw.speed (h : Hw) (p : Nat) : Nat := modeSpeed (h.laneMode p)
/-- The transmission time of a counted length on a port (R276), in 1.25 ns units, rounded up. -/
def Hw.txTime (h : Hw) (p counted : Nat) : Nat := if h.speed p = 0 then 0 else ceilDiv (counted * 32) (5 * h.speed p)
/-- A field of PT_CFG of a port. -/
def Hw.cfg (h : Hw) (f : Fld) (p : Nat) : Nat := h.rd f (portIx p) (portSl p)
/-- Whether a port is in fabric mode. -/
def Hw.fabricPort (h : Hw) (p : Nat) : Bool := h.cfg .PT_CFG_fabric p == 1
/-- Whether the fabric link of a port is LIVE (R440). -/
def Hw.linkLive (h : Hw) (p : Nat) : Bool := h.rd .SF_LINK_state p == 2

/-! ### Places (R234) -/

/-- Places that the frames of one source hold at one destination: of granted frames, the places of cells not yet formed;
cells in flight; held cells; and cells released and not yet written. -/
def Hw.placesHeld (h : Hw) (src dst : Nat) : Nat :=
  let sum (l : List Nat) : Nat := l.foldl (· + ·) 0
  sum ((h.formers.filter (fun f => f.src == src && f.dst == dst && f.granted)).map
      (fun f => placesFor (extBound f.ext) - f.cells))
    + (h.flight.filter (fun c => c.src == src && c.dst == dst && !c.filler)).length
    + sum ((h.streams.filter (fun s => s.1.1 == src && s.1.2.2 == dst)).map
        (fun s => (s.2.held.filter (fun c => !c.filler)).length))
    + sum ((h.landings.filter (fun l => l.sl == dst && l.key.1 == src)).map (fun l => placesFor l.bytes.length))

/-- Whether a destination can grant places for a frame of a source: at most 1,024 per source, 8,192 in all. -/
def Hw.placesFit (h : Hw) (src dst n : Nat) : Bool :=
  decide (h.placesHeld src dst + n ≤ 1024)
    && decide ((((List.range 8).map (fun s => h.placesHeld s dst)).foldl (· + ·) 0) + n ≤ 8192)

/-! ### Forming cells (R231 to R236) -/

/-- Bytes of a cell on a plane's path (R230). -/
def Cell.size (c : Cell) : Nat := 16 + (if c.first then 64 else 0) + c.data.length

/-- The planes in service. -/
def Hw.planesUp (h : Hw) : List Nat := (List.range 4).filter (bit (h.rd .XB_STATUS_plane_up))

/-- The plane for a cell (R235): the least queued bytes toward its destination; a tie goes to the lowest number at or
after the source's pointer. -/
def Hw.pickPlane (h : Hw) (src dst : Nat) : Option Nat :=
  let load (p : Nat) : Nat :=
    ((h.flight.filter (fun c => c.src == src && c.dst == dst && c.plane == p)).map Cell.size).foldl (· + ·) 0
  let ptr := nth h.planePtr src 0
  let up := ((List.range 4).map (fun i => (ptr + i) % 4)).filter (h.planesUp.contains ·)
  up.foldl (fun (b : Option Nat) p => match b with
    | none => some p
    | some q => if load p < load q then some p else b) none

/-- Header bits [127:16] of a cell (R232). -/
def Cell.header (c : Cell) : Nat :=
  (c.dst % 8 <<< 109) + (c.src % 8 <<< 106) + (c.pipe % 16 <<< 102) + (ofBool c.first <<< 101) + (ofBool c.last <<< 100)
    + (c.data.length % 512 <<< 91) + (c.seq % 65536 <<< 75) + (c.index % 64 <<< 69) + (c.tail % 256 <<< 61)
    + (ofBool c.early <<< 60)
/-- The check of a cell (R232, code 0x30 of R337): header bits [127:16], the extension and the data, the destination slice and the
sequence number of a stream position folded in. -/
def Cell.crc (c : Cell) (dst seq : Nat) : Nat :=
  crcFold crc16 0x30 ((dst <<< 32) + seq) (beBytes 14 c.header ++ (if c.first then c.ext else []) ++ c.data)

/-- A cell sent on a stream: it takes the next sequence number, its check and a plane. -/
def Hw.sendCell (h : Hw) (c : Cell) : Hw :=
  let k : StreamKey := (c.src, c.pipe, c.dst)
  let s := h.stream k
  match h.pickPlane c.src c.dst with
  | none => h
  | some p =>
    let h := h.setStream k { s with next := (s.next + 1) % 65536 }
    let h := { h with
      flight := h.flight ++ [let c := { c with seq := s.next, plane := p }; { c with check := c.crc c.dst c.seq }]
      planePtr := setNth h.planePtr c.src ((nth h.planePtr c.src 0 + 1) % 4)
      unacked := if c.first then h.unacked ++ [(⟨k, s.next, mdEdition c.ext⟩ : Unacked)] else h.unacked }
    h.pm c.src 0x40 1 none c.pipe

/-- The former with a number. -/
def Hw.former? (h : Hw) (id : Nat) : Option Former := h.formers.find? (fun f => f.id == id)
/-- A former replaced. -/
def Hw.setFormer (h : Hw) (f : Former) : Hw := { h with formers := updFirst (fun x => x.id == f.id) (fun _ => f) h.formers }
/-- A former gone. -/
def Hw.delFormer (h : Hw) (id : Nat) : Hw := { h with formers := h.formers.filter (fun f => f.id != id) }

/-- The cells of a granted frame formed as far as its bytes allow: every cell but the last holds 256 bytes. The last holds 1 to 256
and waits for the tail status, so bytes that may be a frame's last stay back. A frame whose last cell is formed leaves the former. -/
def Hw.formCells (h : Hw) (id : Nat) : Nat → Hw
  | 0 => h
  | k + 1 =>
    match h.former? id with
    | none => h
    | some f =>
      let rest := f.bytes.drop (256 * f.cells)
      let cell (last : Bool) (t : Nat) : Cell :=
        ⟨f.src, f.pipe, f.dst, 0, f.cells == 0, last, false, f.cells, t, f.info.early, f.ext, rest.take 256, f.info, 0, 0⟩
      if h.planesUp.isEmpty then h
      else match f.tail with
        | some t =>
          if rest.length ≤ 256 then (h.sendCell (cell true t)).delFormer id
          else ((h.sendCell (cell false 0)).setFormer { f with cells := f.cells + 1 }).formCells id k
        | none =>
          if 256 < rest.length then
            ((h.sendCell (cell false 0)).setFormer { f with cells := f.cells + 1 }).formCells id k
          else h

/-- The cells of a stream formed as far as they can be (R231): those of its first frame, once places are granted to it, and
then of the next, in frame order. -/
def Hw.runStream (h : Hw) (k : StreamKey) : Nat → Hw
  | 0 => h
  | n + 1 =>
    match h.formers.find? (fun f => f.src == k.1 && f.pipe == k.2.1 && f.dst == k.2.2) with
    | none => h
    | some f =>
      if f.granted then
        let h := h.formCells f.id 64
        if (h.former? f.id).isNone then h.runStream k n else h
      else h

/-- The stream of a frame in the former. -/
def Former.stream (f : Former) : StreamKey := (f.src, f.pipe, f.dst)

/-- Places granted to a frame (R234) when its destination has them; its cells follow those of the frames before it in its
stream. -/
def Hw.grantPlaces (h : Hw) (id : Nat) : Hw :=
  match h.former? id with
  | none => h
  | some f =>
    if f.granted || !h.placesFit f.src f.dst (placesFor (extBound f.ext)) then h
    else
      let h := h.setFormer { f with granted := true }
      h.runStream f.stream h.formers.length

/-- PLACES_GRANT (R234). -/
def execPlacesGrant (f : Nat) (s : State) : Host.Outcome State Fault Refusal := onHw (fun h => h.grantPlaces f) s

/-- A frame dropped in the cell former with a reason, charged as its chapter states. -/
def Hw.dropFormer (h : Hw) (f : Former) (reason : Nat) : Hw :=
  let h := (h.delFormer f.id).dropped f.src reason (mdTenant f.ext) f.pipe
  (h.chargeDrop f.src reason (mdTenant f.ext) (extBound f.ext)).edDown f.src (mdEdition f.ext)

/-- XB_HOLD (R234): a frame that still waits for places is dropped with 0x62. -/
def execXbHold (f : Nat) (s : State) : Host.Outcome State Fault Refusal :=
  onHw (fun h =>
    match h.former? f with
    | none => h
    | some f =>
      if f.granted then h
      else
        let h := h.dropFormer f 0x62
        h.runStream f.stream h.formers.length) s

/-- FILLER_CELL (R236): a frame in progress on the stream has no cell to form. -/
def execFillerCell (src : Slice) (pipe : Fin 9) (dst : Slice) (s : State) : Host.Outcome State Fault Refusal :=
  onHw (fun h =>
    match h.formers.find? (fun f => f.src == src.val && f.pipe == pipe.val && f.dst == dst.val && f.granted) with
    | some f =>
      if f.cells = 0 ∨ h.planesUp.isEmpty = true then h
      else (h.sendCell ⟨src, pipe, dst, 0, false, false, true, 0, 0, false, f.ext, [], f.info, 0, 0⟩).bump .XB_CNT 11
    | none => h) s

/-! ### The copies of a frame at its destination (R242, R248, R258) -/

/-- The port members of a group in a slice (R242): slice-local indexes. -/
def Hw.groupPorts (h : Hw) (n g : Nat) : List Nat :=
  (List.range 96).filter (fun i => bit (h.val .BP_GROUP (2 * g + i / 64) n) (i % 64))

/-- The queues that a frame's copies go to in a slice: none for a copy without a queue. -/
def Hw.copyQueues (h : Hw) (n : Nat) (ext : List Byte) (info : FrInfo) : List Nat :=
  let q := byteAt ext 42 / 16
  match mdKind ext with
  | 5 => [rcq]
  | 3 =>
    let g := mdDest ext
    let ps := h.groupPorts n g
    let ps := if h.on .XB_GROUP_prune g then ps.filter (fun i => 96 * n + i != mdInPort ext) else ps
    ps.map (fun i => 16 * i + q)
  | 2 => [portQ info.hop q]
  | _ => [portQ (mdDest ext % 1024) q]

/-- Why a copy is not admitted to its queue before admission proper: DEVICE_HOLD, FREEZE_SLICE, no port (R61), a port
that is down or disabled (R72), a fabric link that is not LIVE (R445); 0 for none. -/
def Hw.copyStop (h : Hw) (n q : Nat) : Nat :=
  if h.held then 0x86
  else if h.sliceFrozen n then 0x85
  else if q = rcq then 0
  else
    let p := qPort n q
    if !h.configured p then 0x0B
    else if (h.port p).flush ≠ 0 then (h.port p).flush
    else if h.cfg .PT_CFG_enable p = 0 then 0x09
    else if h.fabricPort p && h.link p == 5 && !h.linkLive p then 0xC9
    else 0

/-- Whether a copy may be sent by cut-through (R79), as its queue stands at its enqueue. -/
def Hw.cutThrough (h : Hw) (n q : Nat) (ext : List Byte) (info : FrInfo) : Bool :=
  let p := qPort n q
  let i := info.rx
  info.early && decide (q < rcq) && !info.mirror && !info.replica && !info.clerk && mdKind ext != 5 && info.recirc == 0
    && h.cfg .PT_CFG_ct_enable p == 1 && decide (h.cfg .PT_CFG_max_len i ≤ h.cfg .PT_CFG_max_len p)
    && decide (h.speed p ≤ h.speed i) && (h.queue n q).clear && !h.on .TM_QCFG_gate_en q n
    && h.rd .TM_PORTCFG_phase (portIx p) n == 1

/-- One copy of a landing frame met with its queue (R248.1, R248.2): discarded, or admitted, the ECN mark written into
the data. Answers the copies admitted so far, the data, and the hardware. -/
def Hw.admitCopy (h : Hw) (n : Nat) (ext : List Byte) (info : FrInfo) (bound : Nat) (shared : Bool)
    (acc : List (Nat × Nat)) (d : List Byte) (q : Nat) : List (Nat × Nat) × List Byte × Hw :=
  let t := mdTenant ext
  let ed := mdEdition ext
  let stop := h.copyStop n q
  if stop ≠ 0 then (acc, d, h.resolveCopy n q stop t ed bound)
  else
    let cut := h.cutThrough n q ext info
    match h.enter n q bound ext shared d with
    | (.drop r, d, h) =>
      let h := if r = 0x6A then h.spillRefused n else h
      (acc, d, h.resolveCopy n q r t ed bound)
    | (.enter deep, d, h) =>
      let (id, h) := h.fresh
      let desc : Desc := ⟨0, 0, 0, t, mdTag ext, ed, if q < rcq then qPort n q else 0x3FF, q % 16, mdColour ext,
        info.early, info.replica, true⟩
      let c : QCopy := ⟨id, desc, ext, bound, requester ext info, false, false, false, cut && !deep, h.now, true, none⟩
      (acc ++ [(q, id)], d, h.enqueue n q c deep)

/-- A frame arriving at a slice whole or by its first cell (R241, R248): counted, its copies admitted, its buffer
requested on a write port. Answers the landing's number. -/
def Hw.arrive (h : Hw) (n : Nat) (key : StreamKey) (ext : List Byte) (info : FrInfo) (d : List Byte) (wport : Nat) :
    Nat × Hw :=
  let bound := extBound ext
  let qs := h.copyQueues n ext info
  let m := qs.length
  let h := h.edUp n (mdEdition ext) (max m 1)
  let h := if m = 0 then
      ((h.ledger n [] (-1) 0 1).bump .BP_CNT 10 n).edDown n (mdEdition ext)
    else if 1 < m then h.ledger n [] (m - 1) (m - 1) 0 else h
  let r := qs.foldl (fun (a : List (Nat × Nat) × List Byte × Hw) q =>
    a.2.2.admitCopy n ext info bound (decide (1 < m)) a.1 a.2.1 q) ([], d, h)
  let (cs, d, h) := (r.1, r.2.1, r.2.2)
  let (id, h) := h.fresh
  let rq := requester ext info
  let want := if cs.isEmpty then AllocSt.none else .want (denom bound) wport false
  let l : Landing := ⟨id, n, key, ext, info, bound, d, d.length, none, cs, rq, want⟩
  let h := { h with landings := h.landings ++ [l] }
  let h := if !cs.isEmpty && !h.allows n rq (denom bound) then h.killLanding l 0x61 else h
  (id, h)

/-! ### Planes (R235) -/

/-- A cell check failure attributed to a plane: counted, and the plane removed at the threshold. -/
def Hw.planeFail (h : Hw) (n plane : Nat) : Hw :=
  let c := nth h.planeErr plane 0 + 1
  let h := ({ h with planeErr := setNth h.planeErr plane c } : Hw).bump .XB_CNT plane
  if bit (h.rd .XB_STATUS_plane_up) plane && decide (h.rd .XB_CTRL_plane_err_thr ≤ c) then
    let h := h.wr .XB_STATUS_plane_up (h.rd .XB_STATUS_plane_up - 2 ^ plane)
    let h := ((h.setBit .XB_STATUS_plane_removed plane).bump .XB_CNT 13).raise 0x602 n
    if h.planesUp.isEmpty then h.raise 0x606 8 else h
  else h

/-- PLANE_RESTORE (R235): the test of each named plane that is not up begins. -/
def Hw.planeRestore (h : Hw) (v : Nat) : Hw :=
  let ps := (List.range 4).filter (fun p => bit v p && !bit (h.rd .XB_STATUS_plane_up) p && !h.restoring.contains p)
  { h with restoring := h.restoring ++ ps }

/-- PLANE_RESTORE (R235). -/
def execPlaneRestore (v : Word) (s : State) : Host.Outcome State Fault Refusal := onHw (fun h => h.planeRestore v.toNat) s

/-- PLANE_RESTORE_DONE (R235): the plane returns to service and takes cells that found no plane, or restore_failed sets. -/
def execPlaneRestoreDone (plane : Fin 4) (pass : Bool) (s : State) : Host.Outcome State Fault Refusal :=
  onHw (fun h =>
    if h.restoring.contains plane.val then
      let h := { h with restoring := h.restoring.filter (· != plane.val) }
      if pass then
        let h := h.setBit .XB_STATUS_plane_up plane
        h.over (h.formers.map (·.stream)) (fun h k => h.runStream k h.formers.length)
      else h.setBit .XB_STATUS_restore_failed plane
    else h) s

/-! ### Resequencing and reassembly (R237 to R241) -/

/-- The frame in reassembly on a stream ended with a reason (R240). -/
def Hw.endReassembly (h : Hw) (k : StreamKey) (reason : Nat) : Hw :=
  let s := h.stream k
  match s.reasm with
  | none => h
  | some (id, _) =>
    let h := h.setStream k { s with reasm := none }
    match h.landing? id with
    | some l => h.killLanding l reason
    | none => h

/-- A released cell that breaks R239: the frame in progress ends with 0x65 and cells up to the next first are discarded. -/
def Hw.reasmFault (h : Hw) (k : StreamKey) : Hw :=
  let h := (h.endReassembly k 0x65).raise 0x605 k.2.2
  h.setStream k { h.stream k with skip := true }

/-- A first cell released: its frame starts, the source is told (R241), and the frame meets its queues (R248). -/
def Hw.startFrame (h : Hw) (k : StreamKey) (c : Cell) : Hw :=
  let (id, h) := h.arrive k.2.2 k c.ext c.info c.data k.1
  let h := { h with notices := h.notices ++ [(⟨k, false, c.seq, 1⟩ : Notice)] }
  let h := h.setStream k { h.stream k with skip := false, reasm := if c.last then none else some (id, 1) }
  if extBound c.ext < c.data.length then h.reasmFault k
  else
    let h := if c.last then (match h.landing? id with
      | some l => h.setLanding { l with tail := some c.tail }
      | none => h) else h
    h.writeLanding id

/-- A released cell in reassembly (R239). -/
def Hw.reassemble (h : Hw) (k : StreamKey) (c : Cell) : Hw :=
  let h := h.pm k.2.2 0x41
  let s := h.stream k
  if c.filler then h
  else if c.first then
    let h := if s.reasm.isSome then h.reasmFault k else h
    h.startFrame k c
  else match s.reasm with
    | none => if s.skip then h else h.reasmFault k
    | some (id, ix) =>
      match h.landing? id with
      | none =>
        h.setStream k { s with reasm := if c.last then none else some (id, ix + 1) }
      | some l =>
        if c.index ≠ ix ∨ l.bound < l.got + c.data.length then h.reasmFault k
        else
          let h := h.setStream k { s with reasm := if c.last then none else some (id, ix + 1) }
          let l := { l with bytes := l.bytes ++ c.data, got := l.got + c.data.length,
                            tail := if c.last then some c.tail else none }
          (h.setLanding l).writeLanding id

/-- The held cells that follow E released in sequence (R237). -/
def Hw.releaseHeld (h : Hw) (k : StreamKey) : Nat → Hw
  | 0 => h
  | n + 1 =>
    let s := h.stream k
    match s.held.find? (fun c => c.seq == s.exp) with
    | none => h
    | some c =>
      let h := h.setStream k { s with exp := (s.exp + 1) % 65536, checkFail := false,
                                      held := s.held.filter (fun x => x.seq != s.exp) }
      (h.reassemble k c).releaseHeld k n

/-- A check failure recorded at every stream of a destination's resequencer (R238). -/
def Hw.noteCheckFail (h : Hw) (dst : Nat) : Hw :=
  h.each 8 (fun h src => h.each 9 (fun h pipe =>
    h.setStream (src, pipe, dst) { h.stream (src, pipe, dst) with checkFail := true }))

/-- A cell of a stream arrives (the table of R237): its check is verified first, the destination and the stream position folded in.
`intact` says that no bit of it changed on its plane. -/
def Hw.cellArrives (h : Hw) (k : StreamKey) (c : Cell) (intact : Bool) : Hw :=
  let dst := k.2.2
  if !intact || c.check != c.crc dst c.seq then ((h.raise 0x601 dst).planeFail dst c.plane).noteCheckFail dst
  else
    let s := h.stream k
    let ahead := (c.seq + 65536 - s.exp) % 65536
    if ahead = 0 then
      let h := h.setStream k { s with exp := (s.exp + 1) % 65536, checkFail := false }
      (h.reassemble k c).releaseHeld k (s.held.length)
    else if ahead < 2048 && !s.held.any (fun x => x.seq == c.seq) then
      h.setStream k { s with held := s.held ++ [c] }
    else (h.raise 0x604 dst).bump .XB_CNT 10

/-- CELL_ARRIVAL (R237): the cell of the stream with a sequence number reaches the resequencer. -/
def execCellArrival (src : Slice) (pipe : Fin 9) (dst : Slice) (seq : Fin 65536) (intact : Bool) (s : State) :
    Host.Outcome State Fault Refusal :=
  onTx (fun h =>
    let mine (c : Cell) : Bool := c.src == src.val && c.pipe == pipe.val && c.dst == dst.val && c.seq == seq.val
    match h.flight.find? mine with
    | none => h
    | some c => ({ h with flight := delFirst mine h.flight } : Hw).cellArrives (src.val, pipe.val, dst.val) c intact) s

/-- The held cells in order of their distance from E. -/
def Stream.heldAhead (s : Stream) (p : Cell → Bool) : List Nat :=
  (s.held.filter p).map (fun c => (c.seq + 65536 - s.exp) % 65536)

/-- Cell E declared lost (R238). A frame whose first cell lies in the skipped range is charged to tenant 0 (R240). -/
def Hw.declareLost (h : Hw) (k : StreamKey) : Hw :=
  let s := h.stream k
  if s.held.isEmpty ∧ s.reasm.isNone = true then h
  else
    let dst := k.2.2
    let reason := if s.checkFail then 0x63 else 0x64
    let skip := match lowest (s.heldAhead (·.first)) with
      | some a => a
      | none => (s.heldAhead (fun _ => true)).foldl max 0 + 1
    let h := ((h.endReassembly k reason).raise 0x603 dst).bump .XB_CNT 9
    let inRange (q : Nat) : Bool := decide ((q + 65536 - s.exp) % 65536 < skip)
    let lost := h.unacked.filter (fun u => u.key == k && inRange u.seq)
    let h := h.over lost (fun h _ => (h.dropped dst reason 0).errHeld dst 0 0)
    let e := (s.exp + skip) % 65536
    let h := h.setStream k { h.stream k with
      exp := e, checkFail := false, skip := false, held := s.held.filter (fun c => !inRange c.seq) }
    let h := { h with notices := h.notices ++ [(⟨k, true, s.exp, skip⟩ : Notice)] }
    h.releaseHeld k s.held.length

/-- RESEQ_TIMEOUT (R238). -/
def execReseqTimeout (src : Slice) (pipe : Fin 9) (dst : Slice) (s : State) : Host.Outcome State Fault Refusal :=
  onTx (fun h => h.declareLost (src.val, pipe.val, dst.val)) s

/-- The frames of a stream that a notice names counted out of the source (R241). -/
def Hw.countOut (h : Hw) (x : Notice) : Hw :=
  let named (u : Unacked) : Bool := u.key == x.key && decide ((u.seq + 65536 - x.seq) % 65536 < x.count)
  let us := h.unacked.filter named
  let h := { h with unacked := h.unacked.filter (fun u => !named u) }
  h.over us (fun h u => h.edDown x.key.1 u.bit)

/-- The first notice of a kind for a source taken. -/
def Hw.takeNotice (h : Hw) (src : Nat) (loss : Bool) : Hw :=
  let mine (x : Notice) : Bool := x.key.1 == src && x.loss == loss
  match h.notices.find? mine with
  | none => h
  | some x => ({ h with notices := delFirst mine h.notices } : Hw).countOut x

/-- LOSS_NOTICE (R241). -/
def execLossNotice (src : Slice) (s : State) : Host.Outcome State Fault Refusal := onHw (fun h => h.takeNotice src true) s
/-- RELEASE_ACK (R241). -/
def execReleaseAck (src : Slice) (s : State) : Host.Outcome State Fault Refusal := onHw (fun h => h.takeNotice src false) s

end Sys2Proof.Machine
end

