-- ==== Sys2Proof/Machine/P384.lean ====
section
/-! DEFINITION. The curve P-384 (FIPS 186-4): its points, multiplication by a scalar, and ECDSA verification, which key
imports (R320) and boot images (R388) use. -/

namespace Sys2Proof.Machine

/-- The prime of the field. -/
def p384 : Nat := 2 ^ 384 - 2 ^ 128 - 2 ^ 96 + 2 ^ 32 - 1
/-- The coefficient b of the curve; the coefficient a is -3. -/
def b384 : Nat :=
  0xb3312fa7e23ee7e4988e056be3f82d19181d9c6efe8141120314088f5013875ac656398d8a2ed19d2a85c8edd3ec2aef
/-- The order of the base point. -/
def n384 : Nat :=
  0xffffffffffffffffffffffffffffffffffffffffffffffffc7634d81f4372ddf581a0db248b0a77aecec196accc52973
/-- The base point. -/
def g384 : Nat × Nat :=
  (0xaa87ca22be8b05378eb1c71ef320ad746e1d3b628ba79b9859f741e082542a385502f25dbf55296c3a545e3872760ab7,
   0x3617de4a96262c6f5d9e98bf9292dc29f8f41dbd289a147ce9da3113b5f0b8c00a60b1ce1d7e819d7a431d7c90ea0e5f)

/-- A number to the power of the low `n` bits of an exponent, modulo `m`. -/
def powMod (m a e : Nat) : Nat → Nat
  | 0 => 1 % m
  | n + 1 => let r := powMod m (a * a % m) (e / 2) n; if e % 2 = 1 then r * a % m else r

/-- The inverse modulo a prime of at most 384 bits. -/
def invMod (m a : Nat) : Nat := powMod m (a % m) (m - 2) 384

/-- A point of the curve: none is the point at infinity. -/
abbrev Point := Option (Nat × Nat)

/-- Whether a pair is a point of the curve other than infinity. -/
def onCurve (x y : Nat) : Bool :=
  decide (x < p384) && decide (y < p384) && (y * y % p384 == (x * x * x + (p384 - 3) * x + b384) % p384)

/-- The third point of a line of slope `l` through two points, reflected. -/
def chord (l x1 y1 x2 : Nat) : Point :=
  let x := (l * l + 2 * p384 - x1 - x2) % p384
  some (x, (l * (x1 + p384 - x) + p384 - y1) % p384)

/-- The sum of two points. -/
def addPt : Point → Point → Point
  | none, q => q
  | p, none => p
  | some (x1, y1), some (x2, y2) =>
    if x1 = x2 then
      if (y1 + y2) % p384 = 0 then none
      else chord ((3 * x1 * x1 + p384 - 3) * invMod p384 (2 * y1) % p384) x1 y1 x2
    else chord ((y2 + p384 - y1) * invMod p384 (x2 + p384 - x1) % p384) x1 y1 x2

/-- A point multiplied by the low `n` bits of a scalar. -/
def mulPt (p : Point) (k : Nat) : Nat → Point
  | 0 => none
  | n + 1 => let q := mulPt (addPt p p) (k / 2) n; if k % 2 = 1 then addPt p q else q

/-- ECDSA verification of a hash under a public key and a signature (r, s). -/
def ecdsaVerify (qx qy : Nat) (hash : List Byte) (r s : Nat) : Bool :=
  if onCurve qx qy && decide (0 < r) && decide (r < n384) && decide (0 < s) && decide (s < n384) then
    let w := invMod n384 s
    let p := addPt (mulPt (some g384) (beNat hash * w % n384) 384) (mulPt (some (qx, qy)) (r * w % n384) 384)
    match p with
    | none => false
    | some (x, _) => x % n384 == r
  else false

end Sys2Proof.Machine
end

