-- ==== Sys2Proof/Machine/Sha.lean ====
section
/-! DEFINITION. SHA-384 (FIPS 180-4), HMAC (RFC 2104) and HKDF (RFC 5869) over it, which the import logic uses (R320) and
which the boot ROM uses to verify images (R388). -/

namespace Sys2Proof.Machine

/-- The integer part of the `k`-th root of `a`, `x` being its bits found so far and `n` the number of bits still to try. -/
def rootFrom (k a : Nat) : Nat → Nat → Nat
  | 0, x => x
  | n + 1, x => rootFrom k a n (if (x + 2 ^ n) ^ k ≤ a then x + 2 ^ n else x)

/-- The first 64 bits of the fractional part of the `k`-th root of a number below 512. -/
def rootFraction (k p : Nat) : BitVec 64 := BitVec.ofNat 64 (rootFrom k (p * 2 ^ (64 * k)) 69 0)

/-- The first 80 primes. -/
def shaPrimes : List Nat := (List.range 410).filter (fun m => 2 ≤ m && (List.range m).all (fun d => d < 2 || m % d != 0))

/-- The round constants of SHA-384: from the cube roots of the first 80 primes. -/
def shaConstants : List (BitVec 64) := shaPrimes.map (rootFraction 3)

/-- The initial hash value of SHA-384: from the square roots of the ninth to the sixteenth prime. -/
def shaInitial : List (BitVec 64) := ((shaPrimes.drop 8).take 8).map (rootFraction 2)

/-- The message schedule, newest word first, extended by `n` words. -/
def shaSchedule (w : List (BitVec 64)) : Nat → List (BitVec 64)
  | 0 => w
  | n + 1 =>
    let x := w.getD 14 0#64
    let y := w.getD 1 0#64
    let s0 := x.rotateRight 1 ^^^ x.rotateRight 8 ^^^ (x >>> 7)
    let s1 := y.rotateRight 19 ^^^ y.rotateRight 61 ^^^ (y >>> 6)
    shaSchedule ((w.getD 15 0#64 + s0 + w.getD 6 0#64 + s1) :: w) n

/-- One round of the compression function. -/
def shaRound (v : List (BitVec 64)) (kw : BitVec 64 × BitVec 64) : List (BitVec 64) :=
  match v with
  | [a, b, c, d, e, f, g, h] =>
    let s1 := e.rotateRight 14 ^^^ e.rotateRight 18 ^^^ e.rotateRight 41
    let t1 := h + s1 + ((e &&& f) ^^^ (~~~e &&& g)) + kw.1 + kw.2
    let s0 := a.rotateRight 28 ^^^ a.rotateRight 34 ^^^ a.rotateRight 39
    [t1 + s0 + ((a &&& b) ^^^ (a &&& c) ^^^ (b &&& c)), a, b, c, d + t1, e, f, g]
  | v => v

/-- The 64-bit words of bytes, most significant byte first. -/
def wordsOf : Nat → List Byte → List (BitVec 64)
  | 0, _ => []
  | n + 1, d => BitVec.ofNat 64 (beNat (d.take 8)) :: wordsOf n (d.drop 8)

/-- The compression of one block of 128 bytes. -/
def shaBlock (h : List (BitVec 64)) (b : List Byte) : List (BitVec 64) :=
  let w := (shaSchedule (wordsOf 16 b).reverse 64).reverse
  List.zipWith (· + ·) h ((shaConstants.zip w).foldl shaRound h)

/-- The blocks of a padded message compressed in order. -/
def shaBlocks (h : List (BitVec 64)) : Nat → List Byte → List (BitVec 64)
  | 0, _ => h
  | n + 1, d => shaBlocks (shaBlock h (d.take 128)) n (d.drop 128)

/-- SHA-384 of a message: 48 bytes. -/
def sha384 (d : List Byte) : List Byte :=
  let m := d ++ 0x80#8 :: List.replicate ((239 - d.length % 128) % 128) 0#8 ++ beBytes 16 (8 * d.length)
  ((shaBlocks shaInitial (m.length / 128) m).take 6).flatMap (fun x => beBytes 8 x.toNat)

/-- HMAC-SHA-384 with a key of at most 128 bytes. -/
def hmac384 (key d : List Byte) : List Byte :=
  let k := key ++ List.replicate (128 - key.length) 0#8
  sha384 (k.map (· ^^^ 0x5C#8) ++ sha384 (k.map (· ^^^ 0x36#8) ++ d))

/-- HKDF-SHA-384 for up to 48 bytes of output: one expansion step (RFC 5869). -/
def hkdf384 (salt ikm info : List Byte) : List Byte := hmac384 (hmac384 salt ikm) (info ++ [1#8])

end Sys2Proof.Machine
end

