-- ==== Sys2Proof/Machine/Secy.lean ====
section
/-! DEFINITION. The cipher engine and key store: SA maps, MACsec protection and verification, packet numbers, key import,
erase, zeroization (spec/13_cipher_engine.md, R313 to R331). -/

namespace Sys2Proof.Machine

/-! ### Keys in the key store (R319, R326) -/

/-- The 32 bytes of a key held as four words, most significant byte first. -/
def Hw.keyBytes (h : Hw) (n : RegName) (slot bank : Nat) : List Byte :=
  (List.range 4).flatMap (fun w => beBytes 8 (h.val n (4 * slot + w) 0 bank))
/-- A key written; its stored copies carry a good check again. -/
def Hw.setKey (h : Hw) (n : RegName) (slot bank : Nat) (k : List Byte) : Hw :=
  let h := h.each 4 (fun h w => h.setVal n (beNat (slice k (8 * w) 8)) (4 * slot + w) 0 bank)
  (h.mark ⟨n, 0, bank, slot⟩ false).mark ⟨n, 0, 2, slot⟩ false
/-- A key overwritten. -/
def Hw.clearKey (h : Hw) (n : RegName) (slot bank : Nat) : Hw := h.setKey n slot bank (List.replicate 32 0#8)

/-- Where the keys of a kind lie: 0 SA, 1 SEAL, else KEK. -/
def keyArray (kind : Nat) : RegName := if kind = 0 then .A_SAK else if kind = 1 then .A_SEAL else .A_KEK
/-- The state field of the slots of a kind. -/
def keyState (kind : Nat) : Fld :=
  if kind = 0 then .CX_SA_state else if kind = 1 then .CX_SEALSLOT_state else .CX_KEKSLOT_state
/-- The generation field of the slots of a kind. -/
def keyGen (kind : Nat) : Fld :=
  if kind = 0 then .CX_SA_generation else if kind = 1 then .CX_SEALSLOT_generation else .CX_KEKSLOT_generation
/-- The number of slots of a kind (R319). -/
def keySlots (kind : Nat) : Nat := if kind = 0 then 8192 else 16

/-- A cipher event (CX_EVENT). -/
def Hw.cxEvent (h : Hw) (b : Nat) : Hw := h.setBit .CX_EVENT_events b
/-- CX_CNT advanced. -/
def Hw.cxCount (h : Hw) (c : Nat) : Hw := h.bump .CX_CNT c

/-- A master copy whose check fails (R326): the slot is FAILED, and the fault names its port if a map entry names it. -/
def Hw.keyFailed (h : Hw) (kind slot : Nat) : Hw :=
  let h := h.wr (keyState kind) 2 slot
  if kind = 0 then
    let h := h.note (.keyGone (some slot) 0xA7 [])
    if h.on .CX_SA_mapped slot then h.raise 0xA01 8 15 (h.rd .CX_SA_port slot) else h.raise 0xA08 8
  else h.raise 0xA08 8

/-- The key of a slot fetched for use (R326): a failing cache copy is fetched again, a failing master makes the slot FAILED. -/
def Hw.keyCheck (h : Hw) (slot : Nat) : Hw :=
  if !h.good ⟨.A_SAK, 0, 0, slot⟩ then h.keyFailed 0 slot
  else if !h.good ⟨.A_SAK, 0, 2, slot⟩ then
    (h.mark ⟨.A_SAK, 0, 2, slot⟩ false).raise 0xA02 (portSl (h.rd .CX_SA_port slot)) 15 (h.rd .CX_SA_port slot)
  else h

/-- Whether an erase of a slot is under way (R323): nothing uses the slot from its registration on. -/
def Hw.erasing (h : Hw) (kind slot : Nat) : Bool :=
  h.on .CX_ERASE_busy && h.rd .CX_ERASE_kind == kind && h.rd .CX_ERASE_slot == slot

/-! ### Packet numbers (R316) -/

/-- A packet number of a slot set; the warning and, for transmit, the stop are noted when it first reaches them. -/
def Hw.setPn (h : Hw) (slot old new : Nat) : Hw :=
  let u := h.rd .CX_SA_suite slot
  let h := h.setVal .CX_PN new slot
  let w := h.val .CX_PNWARN u
  let h := if old < w ∧ w ≤ new then (h.setBit .CX_PNWARN_VEC_slots (slot % 64) (slot / 64)).cxEvent 0 else h
  let e := h.val .CX_PNSTOP u
  if h.rd .CX_SA_dir slot = 0 ∧ old < e ∧ e ≤ new then (h.wr .CX_SA_exhausted 1 slot).cxEvent 1 else h

/-- CX_PN written: only a rise is accepted. -/
def Hw.pnWrite (h : Hw) (slot v : Nat) : Hw :=
  let old := h.val .CX_PN slot
  if old < v then h.setPn slot old v else (h.wr .CX_STATUS_refused 1).wr .CX_STATUS_cause 2

/-- PN_WRITE (R316). -/
def execPnWrite (p : Fin 8192) (v : Word) (s : State) : Host.Outcome State Fault Refusal := onHw (fun h => h.pnWrite p v.toNat) s

/-! ### SA maps (R314) -/

/-- The valid slots of a map word, by AN. -/
def mapSlots (v : Nat) : List Nat :=
  ((List.range 4).map (fun a => bits v (16 * a + 15) (16 * a))).filter (bit · 15) |>.map (· % 8192)

/-- Whether a list names some number twice. -/
def hasRepeat : List Nat → Bool
  | [] => false
  | a :: r => r.contains a || hasRepeat r

/-- SA_MAP_WRITE (R314): refused with SLOT_IN_USE for a slot another valid entry names, and with RESERVED_ENCODING for an
entry whose bits [14:13] are not zero. -/
def Hw.saMapWrite (h : Hw) (p : Nat) (rx : Bool) (v : Nat) : Hw :=
  let n := if rx then RegName.CX_RXMAP else .CX_TXMAP
  let d := ofBool rx
  let new := mapSlots v
  let elsewhere (s : Nat) : Bool :=
    h.on .CX_SA_mapped s && !(h.rd .CX_SA_dir s == d && h.rd .CX_SA_port s == p)
  let refuse (c : Nat) : Hw := (h.wr .CX_STATUS_refused 1).wr .CX_STATUS_cause c
  if (List.range 4).any (fun a => bits v (16 * a + 14) (16 * a + 13) != 0) then refuse 3
  else if new.any elsewhere || hasRepeat new then refuse 1
  else
    let h := h.over (mapSlots (h.val n p)) (fun h s => ((h.wr .CX_SA_mapped 0 s).wr .CX_SA_dir 0 s).wr .CX_SA_port 0 s)
    let h := h.setVal n v p
    h.over new (fun h s => ((h.wr .CX_SA_mapped 1 s).wr .CX_SA_dir d s).wr .CX_SA_port p s)

/-- SA_MAP_WRITE (R314). -/
def execSaMapWrite (p : Port) (rx : Bool) (v : Word) (s : State) : Host.Outcome State Fault Refusal :=
  onHw (fun h => h.saMapWrite p rx v.toNat) s

/-! ### Protection (R313, R315) -/

/-- The EtherType at bytes 12 and 13. -/
def etherType (d : List Byte) : Nat := fieldAt d 12 2
/-- Whether a frame on a port passes through SecY protection: MACsec transmit is on and it is not EAPOL (R313). -/
def Hw.protects (h : Hw) (p : Nat) (d : List Byte) : Bool := h.on .CX_SECY_tx_en p && etherType d != 0x888E
/-- Bytes of the SecTAG that a port transmits. -/
def Hw.secTagLen (h : Hw) (p : Nat) : Nat := if h.on .CX_SECY_include_sci p then 16 else 8
/-- Bytes of the confidentiality offset. -/
def confOffset (x : Nat) : Nat := if x = 1 then 30 else if x = 2 then 50 else 0

/-- The 12-byte IV of a frame (IEEE 802.1AE, 802.1AEbw): SCI and PN, or the salt over SSCI and PN. -/
def Hw.secIv (h : Hw) (slot sci pn : Nat) : List Byte :=
  if h.on .CX_SA_suite slot then
    xorBytes (beBytes 4 (h.rd .CX_SALT_HI_ssci slot) ++ beBytes 8 pn)
      (beBytes 4 (h.rd .CX_SALT_HI_salt_hi slot) ++ beBytes 8 (h.val .CX_SALT_LO slot))
  else beBytes 8 sci ++ beBytes 4 pn

/-- The SecTAG of a transmitted frame (R313): ES and SCB 0, SC and the SCI as the port says. -/
def secTag (encrypt withSci : Bool) (an pn sci len : Nat) : List Byte :=
  beBytes 2 0x88E5 ++ [BitVec.ofNat 8 ((if withSci then 0x20 else 0) + (if encrypt then 0x0C else 0) + an % 4),
    BitVec.ofNat 8 (if len < 48 then len else 0)] ++ beBytes 4 pn ++ (if withSci then beBytes 8 sci else [])

/-- The bank of the key that serves a bound frame: the slot's, or its shadow's for an earlier generation (R322). -/
def Hw.bindBank (h : Hw) (b : SaBind) : Nat := if h.rd .CX_SA_generation b.slot = b.gen then 0 else 1

/-- The key of a bound frame: that of its generation, or, once this is overwritten, the one under which its bytes have left. -/
def Hw.bindKey (h : Hw) (b : SaBind) : List Byte := b.left.getD (h.keyBytes .A_SAK b.slot (h.bindBank b))

/-- A frame without FCS protected under the SA it has bound: addresses, SecTAG, secure data and ICV. -/
def Hw.secProtect (h : Hw) (p : Nat) (b : SaBind) (d : List Byte) : List Byte :=
  let enc := h.on .CX_SECY_encrypt p
  let data := d.drop 12
  let tag := secTag enc b.withSci b.an b.pn b.sci data.length
  let clear := if enc then confOffset (h.rd .CX_SECY_conf_offset p) else data.length
  let head := d.take 12 ++ tag ++ data.take clear
  let r := gcmSeal (h.bindKey b) b.iv head (data.drop clear)
  head ++ r.1 ++ r.2

/-- The SA of a frame about to enter the SecY engine of a port (R315): bound, with its packet number taken, or the reason
it is dropped. `len` is the frame length, FCS included. -/
def Hw.bindSa (h : Hw) (p len : Nat) : Except Nat SaBind × Hw :=
  let an := h.rd .CX_SECY_tx_an p
  let e := bits (h.val .CX_TXMAP p) (16 * an + 15) (16 * an)
  let slot := e % 8192
  if !bit e 15 || h.erasing 0 slot then (.error 0xA9, h)
  else
    let h := if h.rd .CX_SA_state slot = 1 then h.keyCheck slot else h
    let st := h.rd .CX_SA_state slot
    if st = 2 then (.error 0xA7, h)
    else if st ≠ 1 then (.error 0xA9, h)
    else
      let pn := h.val .CX_PN slot
      if h.val .CX_PNSTOP (h.rd .CX_SA_suite slot) ≤ pn then (.error 0xA5, h)
      else if 10000 < len + h.secTagLen p + 16 then (.error 0xAB, h)
      else
        let sci := h.val .CX_TXSCI p
        let b : SaBind := ⟨slot, h.rd .CX_SA_generation slot, pn, an, sci, h.on .CX_SECY_include_sci p, h.secIv slot sci pn, none⟩
        (.ok b, h.setPn slot pn (pn + 1))

/-- The frame check sequence of bytes, as sent. -/
def fcsOf (d : List Byte) : List Byte := leBytes 4 (crc crc32 0 d)

/-- The evidence of a frame that the fabric block makes: a Shogen frame of tenant 0. -/
def ownEvidence : Evidence := ⟨0, 7, true, some 0, none, false⟩

/-- A frame that the device itself makes for a port (hellos, markers, twin and last-gasp frames), padded, after those that the port
already has to send: it binds an SA and leaves in transmit order like them (R315). `d` is without FCS. -/
def Hw.sendOwn (h : Hw) (p : Nat) (ev : Evidence) (d : List Byte) : Hw :=
  let (id, h) := h.fresh
  h.note (.own p id ev (if d.length < 60 then padTo 60 d else d))

/-! ### Verification (R317, R318) -/

/-- The 64-bit PN recovered from 32 bits (IEEE 802.1AEbw). -/
def recoverPn (lowest pn : Nat) : Nat :=
  let hi := lowest / 2 ^ 32
  (if bit lowest 31 && !bit pn 31 then (hi + 1) % 2 ^ 32 else hi) * 2 ^ 32 + pn

/-- A parsed SecTAG: whether the data are encrypted, the AN, the PN of the tag, the SCI if present, the offset of the secure
data and the short length. -/
structure SecTagRx where
  enc : Bool
  an : Nat
  pn : Nat
  sci : Option Nat
  off : Nat
  sl : Nat
  deriving DecidableEq, Repr

/-- The SecTAG of a frame without FCS, unless malformed (R317): `sci` is the port's receive SCI. A short length fixes the frame's
length, the padding of a MAC to 60 bytes apart (log entry 91). -/
def secTagRx (sci : Nat) (d : List Byte) : Option SecTagRx :=
  let t := byteAt d 14
  let off := if bit t 5 then 28 else 20
  let sl := byteAt d 15
  let x : SecTagRx := ⟨bit t 3, t % 4, fieldAt d 16 4, if bit t 5 then some (fieldAt d 20 8) else none, off, sl⟩
  let bad := bit t 7 || (bit t 5 && (bit t 6 || bit t 4)) || (bit t 3 != bit t 2) || decide (47 < sl)
    || (bit t 5 && x.sci != some sci) || x.pn == 0
    || (if sl = 0 then decide (d.length < off + 48 + 16) else d.length != max 60 (off + sl + 16))
  if bad then none else some x

/-- What a SecY engine makes of a received frame (R317): the clear frame, or the reason for its drop. `d` is without FCS. -/
def Hw.secVerify (h : Hw) (p : Nat) (d : List Byte) (coresAgree : Bool) : Except Nat (List Byte) × Hw :=
  if etherType d = 0x888E then (.ok d, h)
  else if etherType d ≠ 0x88E5 then (.error 0xA0, h)
  else match secTagRx (h.val .CX_RXSCI p) d with
    | none => (.error 0xA1, h)
    | some t =>
      let e := bits (h.val .CX_RXMAP p) (16 * t.an + 15) (16 * t.an)
      let slot := e % 8192
      if !bit e 15 || h.erasing 0 slot then (.error 0xA2, h)
      else
        let h := if h.rd .CX_SA_state slot = 1 then h.keyCheck slot else h
        let st := h.rd .CX_SA_state slot
        if st = 2 then (.error 0xA7, h)
        else if st ≠ 1 then (.error 0xA2, h)
        else
          let lowest := h.val .CX_PN slot
          let pn := if h.on .CX_SA_suite slot then recoverPn lowest t.pn else t.pn
          if h.on .CX_SECY_replay_protect p && decide (pn < lowest) then (.error 0xA4, h)
          else if !coresAgree then (.error 0xA8, h.raise 0xA03 (portSl p) 15 p)
          else
            let data := if t.sl = 0 then slice d t.off (d.length - t.off - 16) else slice d t.off t.sl
            let icv := slice d (t.off + data.length) 16
            let clear := if t.enc then confOffset (h.rd .CX_SECY_conf_offset p) else data.length
            let head := d.take t.off ++ data.take clear
            match gcmOpen (h.keyBytes .A_SAK slot 0) (h.secIv slot (h.val .CX_RXSCI p) pn) head (data.drop clear) icv with
            | none => (.error 0xA3, h)
            | some x =>
              let new := max lowest (pn + 1 - h.rd .CX_SECY_replay_window p)
              let h := (if lowest < new then h.setPn slot lowest new else h).cxCount 1
              (.ok (d.take 12 ++ data.take clear ++ x), h)

/-! ### Binding on transmit (R315) -/

/-- The frame of a port that enters the SecY engine next: the first that has no SA and has neither begun nor ended. -/
def Dev.toBind (d : Dev) (p : Nat) : Option TxFrame :=
  d.tx.find? (fun x => x.port == p && x.st.started.isNone && x.st.ended.isNone && x.st.sa.isNone
    && d.hw.protects p x.st.bytes)

/-- The first frame of the transmit path that is `x`'s, changed. -/
def Dev.updFrame (d : Dev) (x : TxFrame) (f : TxSt → TxSt) : Dev :=
  { d with tx := updFirst (fun y => y.port == x.port && y.copy == x.copy) (fun y => { y with st := f y.st }) d.tx }
/-- The transmit path without a frame. -/
def Dev.delFrame (d : Dev) (x : TxFrame) : Dev :=
  { d with tx := delFirst (fun y => y.port == x.port && y.copy == x.copy) d.tx }

/-- SA_BIND (R315): the frame binds an SA and takes its PN, or is dropped. -/
def execSaBind (p : Port) (s : State) : Host.Outcome State Fault Refusal :=
  onDev (fun d =>
    match d.toBind p with
    | none => d
    | some x =>
      let d := match d.hw.bindSa p x.len with
        | (.error r, h) => ({ d with hw := h.dropped x.dl.sl r x.ev.tenant x.dl.pipe p } : Dev).updFrame x
            (fun st => { st with ended := some false })
        | (.ok b, h) => ({ d with hw := h } : Dev).updFrame x (fun st => { st with sa := some b })
      d.settle) s

/-! ### Import (R320 to R322) -/

/-- The number of frames in flight under a generation of a slot (R322): a received frame is bound and decided in one step. -/
def Dev.inFlight (d : Dev) (slot : Nat) (p : SaBind → Bool) : Nat :=
  (d.tx.filter (fun x => x.st.ended.isNone && match x.st.sa with | some b => b.slot == slot && p b | none => false)).length

/-- CX_IMPORT_CMD written with go: an idle import logic takes the command. -/
def Hw.importStart (h : Hw) (v : Nat) : Hw :=
  if h.on .CX_IMPORT_CMD_busy || !bit v 63 then h
  else h.setVal .CX_IMPORT_CMD (v &&& 0xBE0F1FFF00000000 ||| 0x4000000000000000 ||| 0x8000000000000000)

/-- KEY_IMPORT (R320). -/
def execKeyImport (v : Word) (s : State) : Host.Outcome State Fault Refusal := onHw (fun h => h.importStart v.toNat) s

/-- The import buffer as bytes (R320). -/
def Hw.importBuf (h : Hw) (w n : Nat) : List Byte :=
  (List.range n).flatMap (fun i => beBytes 8 (h.val .CX_IMPORT_BUF (w + i)))

/-- The wrapping key of method 0 (R320). -/
def Hw.importKdf (h : Hw) (x kind slot : Nat) : List Byte :=
  let info := [0x4F#8, 0x4B#8, 0x43#8, 0x2D#8, 0x49#8, 0x4D#8, 0x50#8, 0x4F#8, 0x52#8, 0x54#8]
    ++ beBytes 8 (h.val .GL_DEVICE_ID) ++ [BitVec.ofNat 8 kind] ++ beBytes 2 slot
  (hkdf384 (List.replicate 48 0#8) (beBytes 48 x) info).take 32

/-- The key that an import unwraps, or the result that ends it (R321). -/
def Hw.importKey (h : Hw) (method kind slot kek : Nat) : Except Nat (List Byte) :=
  if method = 1 then
    if h.rd .CX_KEKSLOT_state kek ≠ 1 || h.erasing 2 kek then .error 4
    else match keyUnwrap (h.keyBytes .A_KEK kek 0) (h.importBuf 0 5) with
      | some k => .ok k
      | none => .error 2
  else
    let x := beNat (h.importBuf 0 6)
    let y := beNat (h.importBuf 6 6)
    if !onCurve x y then .error 3
    else match mulPt (some (x, y)) Config.devicePrivateKey 384 with
      | none => .error 3
      | some (z, _) =>
        match keyUnwrap (h.importKdf z kind slot) (h.importBuf 12 5) with
        | some k => .ok k
        | none => .error 2

/-- The master copy of the KEK that an import uses, checked as it is read (R326). -/
def Hw.kekCheck (h : Hw) (method kek : Nat) : Hw :=
  if method = 1 ∧ h.rd .CX_KEKSLOT_state kek = 1 ∧ h.good ⟨.A_KEK, 0, 0, kek⟩ = false then h.keyFailed 2 kek else h

/-- Why an import is refused before it unwraps (R321): 0 for none. -/
def Hw.importRefusal (h : Hw) (method kind slot suite : Nat) : Nat :=
  if h.on .CX_STATUS_zeroizing then 9
  else if !h.on .CX_STATUS_rng_ok || decide (1 < method) || kind == 3 || decide (keySlots kind ≤ slot)
      || (kind == 0 && (h.val .CX_IMPORT_PN == 0 || (suite == 0 && decide (2 ^ 32 ≤ h.val .CX_IMPORT_PN)))) then 7
  else if kind == 2 && h.on .CX_CTRL_lock_kek then 8
  else if kind == 1 && h.on .LG_STATUS_chain && h.rd .LG_CTRL_seal_slot == slot then 6
  else 0

/-- The end of an import with its result (R321): the buffer is cleared. -/
def Hw.importEnd (h : Hw) (result gen : Nat) : Hw :=
  let h := (h.wr .CX_IMPORT_CMD_busy 0).setVal .CX_IMPORT_STATUS ((result <<< 60) + (gen <<< 32))
  let h := h.each 17 (fun h w => h.setVal .CX_IMPORT_BUF 0 w)
  (h.cxEvent 3).cxCount (if result = 1 then 14 else 15)

/-- A key loaded into a slot: a new generation (R320). -/
def Hw.loadKey (h : Hw) (kind slot suite : Nat) (k : List Byte) : Hw :=
  let g := (h.rd (keyGen kind) slot + 1) % 65536
  let h := ((h.setKey (keyArray kind) slot 0 k).wr (keyState kind) 1 slot).wr (keyGen kind) g slot
  let h := if kind = 0 then ((h.wr .CX_SA_suite suite slot).wr .CX_SA_exhausted 0 slot).setPn slot 0 (h.val .CX_IMPORT_PN)
    else if kind = 1 then h.wr .CX_SEALSLOT_spent 0 slot else h
  h.importEnd 1 g

/-- An import that ends (R321, R322). -/
def Dev.importDone (d : Dev) : Dev :=
  let h := d.hw
  if !h.on .CX_IMPORT_CMD_busy then d
  else
    let method := h.rd .CX_IMPORT_CMD_method
    let kind := h.rd .CX_IMPORT_CMD_kind
    let slot := h.rd .CX_IMPORT_CMD_slot
    let suite := h.rd .CX_IMPORT_CMD_suite
    let refusal := h.importRefusal method kind slot suite
    let h := if refusal = 0 then h.kekCheck method (h.rd .CX_IMPORT_CMD_kek_slot) else h
    if refusal ≠ 0 then { d with hw := h.importEnd refusal 0 }
    else match h.importKey method kind slot (h.rd .CX_IMPORT_CMD_kek_slot) with
      | .error r => { d with hw := h.importEnd r 0 }
      | .ok k =>
        let g := h.rd .CX_SA_generation slot
        if kind = 0 ∧ h.rd .CX_SA_state slot = 1 ∧ 0 < d.inFlight slot (fun b => b.gen == g) then
          if h.on .CX_SA_shadow slot then { d with hw := h.importEnd 5 0 }
          else
            let h := (h.setKey .A_SAK slot 1 (h.keyBytes .A_SAK slot 0)).wr .CX_SA_shadow 1 slot
            { d with hw := h.loadKey kind slot suite k }
        else { d with hw := h.loadKey kind slot suite k }

/-- KEY_IMPORT_DONE (R321). -/
def execKeyImportDone (s : State) : Host.Outcome State Fault Refusal := onDev Dev.importDone s

/-- SHADOW_RELEASE (R322): a shadow without frames in flight is zeroized. -/
def execShadowRelease (p : Fin 8192) (s : State) : Host.Outcome State Fault Refusal :=
  onDev (fun d =>
    let h := d.hw
    if h.on .CX_SA_shadow p && d.inFlight p (fun b => b.gen != h.rd .CX_SA_generation p) == 0 then
      { d with hw := (h.clearKey .A_SAK p 1).wr .CX_SA_shadow 0 p }
    else d) s

/-! ### Erase and zeroization (R323, R329) -/

/-- Every copy of a slot's key overwritten. -/
def Hw.wipe (h : Hw) (kind slot : Nat) : Hw :=
  let h := h.clearKey (keyArray kind) slot 0
  if kind = 0 then h.clearKey .A_SAK slot 1 else h
/-- A slot whose overwriting is verified: EMPTY, its generation kept. -/
def Hw.emptied (h : Hw) (kind slot : Nat) : Hw :=
  let h := h.wr (keyState kind) 0 slot
  if kind = 0 then h.wr .CX_SA_shadow 0 slot else h

/-- The key words of an SA slot and its shadow. -/
def Hw.slotKeys (h : Hw) (slot : Nat) : List (Nat × Nat × List Byte) :=
  [(slot, 0, h.keyBytes .A_SAK slot 0), (slot, 1, h.keyBytes .A_SAK slot 1)]

/-- CX_ERASE written with go: the slot's key and shadow are overwritten and the frames bound to it end. -/
def Hw.keyErase (h : Hw) (v : Nat) : Hw :=
  let kind := bits v 61 60
  let slot := bits v 12 0
  if h.on .CX_ERASE_busy || !bit v 62 || kind == 3 || decide (keySlots kind ≤ slot) then h
  else
    let keys := h.slotKeys slot
    let h := (h.setVal .CX_ERASE ((1 <<< 63) + (kind <<< 60) + slot)).wipe kind slot
    if kind = 0 then h.note (.keyGone (some slot) 0xA6 keys) else h

/-- KEY_ERASE (R323). -/
def execKeyErase (v : Word) (s : State) : Host.Outcome State Fault Refusal := onTx (fun h => h.keyErase v.toNat) s

/-- ERASE_VERIFIED (R323). -/
def execEraseVerified (s : State) : Host.Outcome State Fault Refusal :=
  onHw (fun h =>
    if h.on .CX_ERASE_busy then (h.emptied (h.rd .CX_ERASE_kind) (h.rd .CX_ERASE_slot)).wr .CX_ERASE_busy 0 else h) s

/-- The slots of a kind that are not EMPTY or hold key words. -/
def Hw.heldSlots (h : Hw) (kind : Nat) : List Nat :=
  let st := (h.words.filter (fun e => e.1.name = (keyState kind).reg)).map (fun e => e.1.ix)
  let ks := (h.words.filter (fun e => e.1.name = keyArray kind)).map (fun e => e.1.ix / 4)
  (st ++ ks).eraseDups

/-- Zeroization by an alarm source (R329), if it is enabled: every slot, shadow and cache, the key-bus key and the DRBG state. -/
def Hw.zeroize (h : Hw) (src : Nat) : Hw :=
  if src = 0 ∨ src = 1 ∨ src = 5 ∨ bit (h.rd .CX_ALARM_EN_enables) src = true then
    let keys := (h.heldSlots 0).flatMap h.slotKeys
    let h := ((h.setBit .CX_ALARM_sources src).wr .CX_STATUS_zeroizing 1).raise 0xA07 8
    let h := h.over [0, 1, 2] (fun h k => h.over (h.heldSlots k) (fun h s => (h.wipe k s).emptied k s))
    ({ h with cx := ⟨none, none⟩ } : Hw).note (.keyGone none 0xA6 keys)
  else h

/-- ZEROIZE (R329). -/
def execZeroize (src : Fin 8) (s : State) : Host.Outcome State Fault Refusal := onTx (fun h => h.zeroize src) s

/-- ZEROIZE_VERIFY (R329): the readback passes, a new key-bus key is drawn and the DRBG seeded; or the overwrite repeats with F-0xA06. -/
def execZeroizeVerify (ok : Bool) (s : State) : Host.Outcome State Fault Refusal :=
  onHw (fun h =>
    if !h.on .CX_STATUS_zeroizing then h
    else if ok then (((({ h with io := { h.io with zeroized := true } } : Hw).wr .CX_STATUS_zeroizing 0).wr .CX_STATUS_zeroized 1).cxEvent 2).drawKeys
    else
      let h := h.over [0, 1, 2] (fun h k => h.over (h.heldSlots k) (fun h s => h.wipe k s))
      ({ h with cx := ⟨none, none⟩ } : Hw).raise 0xA06 8) s

/-- KEY_SCRUB (R326): every LOADED master copy and shadow is checked. -/
def execKeyScrub (s : State) : Host.Outcome State Fault Refusal :=
  onTx (fun h =>
    h.over [0, 1, 2] (fun h k => h.over (h.heldSlots k) (fun h x =>
      if h.rd (keyState k) x = 1 ∧ (!h.good ⟨keyArray k, 0, 0, x⟩
          || (h.rd .CX_SA_shadow x == 1 && k == 0 && !h.good ⟨.A_SAK, 0, 1, x⟩)) = true then h.keyFailed k x else h))) s

/-- RNG_HEALTH_FAIL (R328). -/
def execRngHealthFail (s : State) : Host.Outcome State Fault Refusal :=
  onTx (fun h => ((h.wr .CX_STATUS_rng_ok 0).raise 0xA05 8).zeroize 6) s

/-- RNG_HEALTH_PASS (R328). -/
def execRngHealthPass (s : State) : Host.Outcome State Fault Refusal := onHw (fun h => h.wr .CX_STATUS_rng_ok 1) s

end Sys2Proof.Machine
end

