-- ==== Sys2Proof/Machine/Shogen.lean ====
section
/-! DEFINITION. The Shogen fabric: the member number, the header and its alive counter, links and hellos, the reach table and
the encapsulator (spec/20_shogen_fabric_and_twin_pair.md, R437 to R452). -/

namespace Sys2Proof.Machine

/-- The device's own member number (R437). -/
def Hw.member (h : Hw) : Nat := h.rd .SF_MEMBER_member
/-- A fabric port's link beside its registers. -/
def Hw.sf (h : Hw) (p : Nat) : SfLinkSt := FMap.get (fun _ => SfLinkSt.idle) h.links p
/-- The hardware with a fabric port's link replaced. -/
def Hw.setSf (h : Hw) (p : Nat) (x : SfLinkSt) : Hw :=
  { h with links := FMap.put natLt (fun _ => SfLinkSt.idle) h.links p x }
/-- SF_CNT advanced. -/
def Hw.sfCount (h : Hw) (c : Nat) (n : Nat := 1) : Hw := h.count .SF_CNT_count c 0 n

/-! ### The header (R438, R439) -/

/-- The fields of a Shogen header. -/
structure SfHeader where
  kind : Nat
  dst : Nat
  src : Nat
  tenant : Nat
  queue : Nat
  colour : Nat
  edition : Nat
  mirror : Bool
  hop : Nat
  time : Nat
  inPort : Nat
  deriving DecidableEq, Repr

/-- Bytes 0 to 13 of a header. -/
def SfHeader.bytes (x : SfHeader) : List Byte :=
  beBytes 1 (16 + x.kind) ++ beBytes 3 ((x.dst % 4096) * 4096 + x.src % 4096) ++ beBytes 2 x.tenant
    ++ beBytes 1 ((x.queue % 16) * 16 + (x.colour % 4) * 4 + (x.edition % 2) * 2 + ofBool x.mirror)
    ++ beBytes 1 ((x.hop % 64) * 4) ++ beBytes 4 x.time ++ beBytes 2 ((x.inPort % 1024) * 64)

/-- The header that bytes spell. -/
def sfHeader (d : List Byte) : SfHeader :=
  let q := byteAt d 6
  ⟨byteAt d 0 % 16, fieldAt d 1 3 / 4096, fieldAt d 1 3 % 4096, fieldAt d 4 2, q / 16, bits q 3 2, bits q 1 1, bit q 0,
    byteAt d 7 / 4, fieldAt d 8 4, fieldAt d 12 2 / 64⟩

/-- The check of header bytes 0 to 13 with a sender's member number and a counter folded (R335, R440). -/
def sfCheck (member counter : Nat) (d : List Byte) : Nat :=
  crcFold crc16 0x60 ((member % 4096) * 2 ^ 36 + counter % 2 ^ 32) (d.take 14)

/-- The outer Ethernet header of a frame that a port sends (R438). -/
def Hw.sfOuter (h : Hw) (p da : Nat) : List Byte :=
  beBytes 6 da ++ beBytes 6 ((h.rd .SF_BASEMAC_base + p) % 2 ^ 48) ++ beBytes 2 0x88B5

/-- The 30 bytes that go before a payload on a port: outer header, Shogen header, check under the port's counter. -/
def Hw.sfHead (h : Hw) (p da : Nat) (x : SfHeader) : List Byte :=
  let b := x.bytes
  h.sfOuter p da ++ b ++ beBytes 2 (sfCheck h.member (h.sf p).tx b)

/-- The destination address of frames other than hellos: the neighbour's. -/
def Hw.sfNeighbour (h : Hw) (p : Nat) : Nat := (h.sf p).da.getD 0

/-- A header of a frame that the device itself makes: what no rule states of it is a free value. -/
def Hw.ownHeader (h : Hw) (kind : Nat) (dst : Option Nat) (ed : Option Nat) : SfHeader × Hw :=
  let (r, h) := h.random
  (⟨kind, dst.getD (bits r 11 0), h.member, 0, bits r 15 12, bits r 17 16, ed.getD (bits r 18 18), bit r 19, 1,
    bits r 51 20, bits r 61 52⟩, h)

/-- A frame of a kind other than DATA sent on a fabric port. -/
def Hw.sendKind (h : Hw) (p kind : Nat) (dst ed : Option Nat) (payload : List Byte) : Hw :=
  let (x, h) := h.ownHeader kind dst ed
  h.sendOwn p ownEvidence (h.sfHead p (h.sfNeighbour p) x ++ payload)

/-! ### Pair links (R452) -/

/-- Whether a port is listed in TP_PAIR. -/
def Hw.listsPair (h : Hw) (p : Nat) : Bool :=
  (List.range 8).any (fun k => h.on .TP_PAIR_valid k && h.rd .TP_PAIR_port k == p)
/-- Whether a port is a pair link. -/
def Hw.pairLink (h : Hw) (p : Nat) : Bool :=
  h.on .TP_CTRL_enable && h.listsPair p && h.linkLive p && h.on .SF_LINK_pair p
    && h.rd .SF_LINK_nbr_member p == h.rd .TP_CTRL_partner
/-- The pair links, in rising order of port. -/
def Hw.pairLinks (h : Hw) : List Nat :=
  (List.range 768).filter (fun p => h.pairLink p)
/-- The sync link. -/
def Hw.syncLink (h : Hw) : Option Nat := h.pairLinks.head?
/-- The pair links counted against their number before a change: fewer than two raise pair_links_low. -/
def Hw.pairCheck (h : Hw) (before : Nat) : Hw :=
  let n := h.pairLinks.length
  if n < before ∧ n < 2 then (h.setBit .TP_EVENT_events 3).raise 0xC12 8 else h

/-! ### Link states (R442, R444, R445) -/

/-- Entry into SYNCING: a new transmit counter is drawn (R440). -/
def Hw.enterSyncing (h : Hw) (p : Nat) : Hw :=
  let (r, h) := h.random
  (h.setSf p { h.sf p with tx := r % 2 ^ 32, heard := 0 }).wr .SF_LINK_state 1 p

/-- A link enters LIVE (R444). -/
def Hw.enterLive (h : Hw) (p : Nat) : Hw :=
  (((h.wr .SF_LINK_state 2 p).setBit .SF_LINKLIVE_live (p % 64) (p / 64)).setBit .SF_LINKCHG_changed (p % 64)
    (p / 64)).setBit .SF_EVENT_events 0

/-- A link leaves LIVE for a state (R444, R445): while its port stays UP its queues are flushed with 0xC9. -/
def Hw.leaveLive (h : Hw) (p state : Nat) (portUp : Bool) : Hw :=
  let before := h.pairLinks.length
  let w := h.val .SF_LINKLIVE (p / 64)
  let h := (h.wr .SF_LINK_state state p).setVal .SF_LINKLIVE (if bit w (p % 64) then w - 2 ^ (p % 64) else w) (p / 64)
  let h := (h.setBit .SF_LINKCHG_changed (p % 64) (p / 64)).setBit .SF_EVENT_events 1
  let h := if portUp then h.flushPort p 0xC9 else h
  h.pairCheck before

/-- A port enters UP: a fabric port of a numbered member begins to synchronise (R442). -/
def Hw.sfPortUp (h : Hw) (p : Nat) : Hw :=
  if h.fabricPort p && h.on .SF_MEMBER_valid then h.enterSyncing p else h

/-- A port leaves UP, or its fabric mode or enable is cleared (R442). -/
def Hw.sfPortDown (h : Hw) (p : Nat) : Hw :=
  if h.linkLive p then h.leaveLive p 0 false else h.wr .SF_LINK_state 0 p

/-- LINK_DEAD (R442): the declaration. DEAD lasts one clock, after which the link synchronises anew. -/
def execLinkDead (p : Port) (s : State) : Host.Outcome State Fault Refusal :=
  onTx (fun h =>
    if h.linkLive p then (((h.leaveLive p 3 true).raise 0xC02 (portSl p) 15 p).sfCount 11).enterSyncing p else h) s

/-- A write of SF_MEMBER (R437): refused while a fabric port is enabled. -/
def Hw.sfMemberWrite (h : Hw) (v : Nat) : Hw :=
  if (List.range 768).any (fun p => h.fabricPort p && h.cfg .PT_CFG_enable p == 1) then h.wr .SF_STATUS_member_refused 1
  else h.setVal .SF_MEMBER (v &&& 0x8000000000000FFF)

/-- SF_MEMBER_WRITE (R437). -/
def execSfMemberWrite (v : Word) (s : State) : Host.Outcome State Fault Refusal := onHw (fun h => h.sfMemberWrite v.toNat) s

/-! ### Hellos (R441 to R443) -/

/-- The payload of a hello. -/
def Hw.helloPayload (h : Hw) (p : Nat) : List Byte :=
  leBytes 8 (h.val .GL_DEVICE_ID) ++ leBytes 2 p
    ++ leBytes 2 (ofBool (h.listsPair p) + 2 * ofBool (decide (0 < (h.sf p).heard)))
    ++ leBytes 4 (h.sf p).tx ++ leBytes 8 h.now ++ leBytes 8 0

/-- A hello sent (R441): the transmit counter advances first, and the hello carries and folds it. -/
def Hw.helloSend (h : Hw) (p : Nat) : Hw :=
  let st := h.rd .SF_LINK_state p
  if (st = 1 ∨ st = 2) ∧ h.link p = 5 ∧ h.silent p = false then
    let h := h.setSf p { h.sf p with tx := ((h.sf p).tx + 1) % 2 ^ 32 }
    let (x, h) := h.ownHeader 1 (some 0) none
    (h.sendOwn p ownEvidence (h.sfHead p (h.rd .SF_HELLO_DA_address) x ++ h.helloPayload p)).sfCount 0
  else h

/-- HELLO_SEND (R441). -/
def execHelloSend (p : Port) (s : State) : Host.Outcome State Fault Refusal := onTx (fun h => h.helloSend p) s

/-- A frame whose Shogen header fails its check (R448): 0xC0. -/
def Hw.sfBadCheck (h : Hw) (p : Nat) : Hw := (h.dropped (portSl p) 0xC0 0).raise 0xC01 (portSl p) 15 p

/-- A hello accepted: its counter adopted, its sender recorded (R440, R442). -/
def Hw.adopt (h : Hw) (p v : Nat) (member id nport : Nat) (pair : Bool) (da : Nat) : Hw :=
  let s := h.sf p
  let h := h.setSf p { s with prev := h.rd .SF_LINK_adopted p, heard := s.heard + 1, da := some da }
  let h := ((h.wr .SF_LINK_adopted v p).wr .SF_LINK_nbr_member member p).wr .SF_LINK_nbr_port nport p
  (((h.wr .SF_LINK_pair (ofBool pair) p).wr .SF_LINK_conflict 0 p).setVal .SF_NBRID id p).sfCount 1

/-- A hello received on a fabric port (R440 to R443): `d` is the frame from its destination address. -/
def Hw.helloRx (h : Hw) (p : Nat) (d : List Byte) : Hw :=
  let hd := sfHeader (d.drop 14)
  let pl := d.drop 30
  let v := leNat (slice pl 12 4)
  let id := leNat (slice pl 0 8)
  let flags := byteAt pl 10
  let st := h.rd .SF_LINK_state p
  if !h.fabricPort p || st == 0 then h
  else if d.length < 62 ∨ sfCheck hd.src v (d.drop 14) ≠ fieldAt d 28 2 then h.sfBadCheck p
  else if byteAt d 14 / 16 ≠ 1 then h.dropped (portSl p) 0xC1 0
  else
    let own := hd.src == h.member
    let changed := hd.src != h.rd .SF_LINK_nbr_member p || id != h.val .SF_NBRID p
    let h := if own then ((h.raise 0xC05 8).setBit .SF_EVENT_events 3).wr .SF_LINK_conflict 1 p else h
    let h := if st = 2 && changed then ((h.setBit .SF_EVENT_events 2).leaveLive p 1 true).enterSyncing p
      else if changed then h.setSf p { h.sf p with heard := 0 } else h
    if own then h
    else
      let old := h.rd .SF_LINK_adopted p
      let ahead := (v + 2 ^ 32 - old) % 2 ^ 32
      let before := h.pairLinks.length
      if h.rd .SF_LINK_state p = 2 then
        if 1 ≤ ahead ∧ ahead ≤ 3 then
          (h.adopt p v hd.src id (leNat (slice pl 8 2) % 1024) (bit flags 0) (fieldAt d 6 6)).pairCheck before
        else h.sfCount 3
      else
        let live := decide (0 < (h.sf p).heard) && ahead == 1 && bit flags 1 && h.on .SF_MEMBER_valid
        let h := h.adopt p v hd.src id (leNat (slice pl 8 2) % 1024) (bit flags 0) (fieldAt d 6 6)
        if live then h.enterLive p else h

/-- HELLO_RX (R442). -/
def execHelloRx (p : Port) (bytes : List Byte) (s : State) : Host.Outcome State Fault Refusal :=
  onTx (fun h => h.helloRx p bytes) s

/-- Whether the header of a received frame other than a hello passes its check (R440): either counter, the neighbour's number. -/
def Hw.sfPasses (h : Hw) (p : Nat) (d : List Byte) : Bool :=
  let m := h.rd .SF_LINK_nbr_member p
  decide (30 ≤ d.length) && (sfCheck m (h.rd .SF_LINK_adopted p) (d.drop 14) == fieldAt d 28 2
    || sfCheck m (h.sf p).prev (d.drop 14) == fieldAt d 28 2)

/-! ### The reach table (R446, R447) -/

/-- The 16 next hops of a member's entry: port and weight. -/
def Hw.hops (h : Hw) (m : Nat) : List (Nat × Nat) :=
  (List.range 16).map (fun j =>
    let x := bits (h.val .A_REACH (4 * m + j / 4)) (16 * (j % 4) + 15) (16 * (j % 4))
    (x / 64, x % 16))

/-- The next hop whose cumulative weight range, in ascending order, contains `x`. -/
def hopAt : List (Nat × Nat) → Nat → Option Nat
  | [], _ => none
  | (p, w) :: r, x => if x < w then some p else hopAt r (x - w)

/-- The link for a member (R446): the chosen port, or the reason for the drop. -/
def Hw.reach (h : Hw) (sl m g14 : Nat) : Except Nat Nat × Hw :=
  if m = h.member then (.error 0xC3, h)
  else if !h.good ⟨.A_REACH, sl, 0, m⟩ then (.error 0xC4, h.raise 0xC03 sl)
  else
    let hs := h.hops m
    let isLive (p : Nat) : Bool := bit (h.val .SF_LINKLIVE (p / 64)) (p % 64)
    let live := hs.map (fun x => (x.1, if isLive x.1 then x.2 else 0))
    let sum (l : List (Nat × Nat)) : Nat := (l.map (·.2)).foldl (· + ·) 0
    if sum live = 0 then (.error 0xC4, h)
    else match hopAt hs (bits g14 15 0 * sum hs / 65536) with
      | some p => if isLive p then (.ok p, h)
        else match hopAt live (bits g14 31 16 * sum live / 65536) with
          | some q => (.ok q, h)
          | none => (.error 0xC4, h)
      | none => (.error 0xC4, h)

/-- REACH_READ (R447). -/
def Hw.reachRead (h : Hw) : Hw :=
  if h.on .SF_REACH_CMD_busy then h
  else h.each 4 (fun h k => h.setVal .SF_REACH_W (h.val .A_REACH (4 * h.rd .SF_REACH_INDEX_member + k)) k)

/-- REACH_READ: the indexed entry into the staging words. -/
def execReachRead (s : State) : Host.Outcome State Fault Refusal :=
  onHw (fun h => h.reachRead) s

/-- REACH_WRITE (R447): refused if a next hop with a weight is no fabric port. -/
def Hw.reachWrite (h : Hw) : Hw :=
  let m := h.rd .SF_REACH_INDEX_member
  let ok := (List.range 16).all (fun j =>
    let x := bits (h.val .SF_REACH_W (j / 4)) (16 * (j % 4) + 15) (16 * (j % 4))
    x % 16 == 0 || (decide (x / 64 < 768) && h.fabricPort (x / 64)))
  if h.on .SF_REACH_CMD_busy then h
  else if !ok then h.wr .SF_STATUS_reach_refused 1
  else
    let h := h.each 4 (fun h k => h.setVal .A_REACH (h.val .SF_REACH_W k &&& 0xFFCFFFCFFFCFFFCF) (4 * m + k))
    h.each 8 (fun h n => h.mark ⟨.A_REACH, n, 0, m⟩ false)

/-- REACH_WRITE: the staging words into the indexed entry of every replica. -/
def execReachWrite (s : State) : Host.Outcome State Fault Refusal :=
  onHw (fun h => h.reachWrite) s

/-! ### The encapsulator (R450) -/

/-- The outgoing bytes of a copy for a fabric port, as the encapsulator makes them, or the reason for its drop. `ext` is the
copy's buffer header, `out` its bytes after the splice, FCS excluded. -/
def Hw.encapsulate (h : Hw) (p : Nat) (ext : List Byte) (clerk mirror : Bool) (tenant queue colour ed : Nat)
    (out : List Byte) : Except Nat (List Byte) :=
  let da := h.sfNeighbour p
  if mdKind ext = 2 ∧ mdFlag ext 6 = false then
    let x : SfHeader := ⟨0, mdDest ext, h.member, tenant, queue, colour, ed, mirror, 1, mdTime ext % 2 ^ 32, mdInPort ext⟩
    let d := h.sfHead p da x ++ out
    if 9996 < d.length then .error 0xC6 else .ok d
  else if mdKind ext = 2 then
    let r := sfHeader (out.drop 14)
    let x : SfHeader := ⟨0, mdDest ext, r.src, tenant, queue, colour, ed, mirror || r.mirror, r.hop + 1, r.time, r.inPort⟩
    .ok (h.sfHead p da x ++ out.drop 30)
  else if clerk then
    if etherType out ≠ 0x88B5 then .ok out
    else if byteAt out 14 % 16 ≠ 2 then .error 0xC1
    else
      let b := overwrite (overwrite (slice out 14 14) 1 (beBytes 3 (fieldAt out 15 3 / 4096 * 4096 + h.member))) 7
        (beBytes 1 (4 + byteAt out 21 % 4))
      .ok (h.sfOuter p da ++ b ++ beBytes 2 (sfCheck h.member (h.sf p).tx b) ++ out.drop 30)
  else .error 0xC8

end Sys2Proof.Machine
end

