-- ==== Sys2Proof/Machine/Editions.lean ====
section
/-! DEFINITION. The edition controller: flips, closing, drain markers, retirement and forced closing
(spec/09_editions.md, R215 to R225). -/

namespace Sys2Proof.Machine

/-- The state of the bit that is not current (R215): 0 RETIRED, 1 DRAINING, 2 CLOSED. -/
def Hw.otherState (h : Hw) : Nat := h.rd .ED_STATUS_other_state
/-- The state of an edition bit: 3 for CURRENT. -/
def Hw.bitState (h : Hw) (b : Nat) : Nat := if b = h.current then 3 else h.otherState
/-- An event of the edition controller. -/
def Hw.edEvent (h : Hw) (b : Nat) : Hw := h.setBit .ED_EVENT_events b
/-- ED_CNT advanced. -/
def Hw.edCount (h : Hw) (c : Nat) : Hw := h.count .ED_CNT_count c

/-- The drain counter of a bit (R217, R218): the sum over the slices of the larger copy. -/
def Hw.drainCount (h : Hw) (b : Nat) : Nat :=
  ((List.range 8).map (fun n => max (nth h.ed.parts (drainIx n b 0) 0) (nth h.ed.parts (drainIx n b 1) 0))).foldl (· + ·) 0

/-- Whether closing is permitted (R222). -/
def Hw.closePermitted (h : Hw) : Bool := h.on .ED_CTRL_auto_close || h.ed.permit

/-! ### The flip (R219, R220) -/

/-- The microwords of the next bank that name a nano-word not written since reset (R219): slice, engine, address, nano-word.
A microword at its reset value is exempt. -/
def Hw.missingNano (h : Hw) : List (Nat × Nat × Nat × Nat) :=
  (h.words.filter (fun e => e.1.name = .NS_UW ∧ e.1.bank = h.next
      ∧ !h.wrote.contains ⟨.NS_NW, e.1.sl, h.next, e.1.ix / 2048 * 1024 + e.2.toNat / 2 ^ 54⟩)).map
    (fun e => (e.1.sl, e.1.ix / 2048, e.1.ix % 2048, e.2.toNat / 2 ^ 54))

/-- The refusal cause of a flip, the lowest that holds (R219). -/
def Hw.flipCause (h : Hw) : Nat :=
  if h.otherState ≠ 0 then 1
  else if (List.range 8).any (fun n => h.on .PA_BANKCOPY_busy 0 n || h.on .SE_BANKCOPY_busy 0 n || h.on .FT_SYNC_busy 0 n) then 2
  else if !h.missingNano.isEmpty then 3
  else if h.on .ED_CMD_busy then 4
  else 0

/-- ED_FLIP (R219, R220): refused with a cause, or the next edition becomes current and the old bit drains. -/
def Hw.edFlip (h : Hw) : Hw :=
  let c := h.flipCause
  if c ≠ 0 then
    let h := (((h.wr .ED_STATUS_flip_refused 1).wr .ED_STATUS_cause c).edEvent 5).edCount 1
    if c = 3 then
      match h.missingNano.head? with
      | some (n, e, a, x) => h.setVal .ED_MISSING ((1 <<< 63) + (n <<< 40) + (e <<< 32) + (a <<< 16) + x)
      | none => h
    else h
  else
    let h := (h.wr .ED_STATUS_current h.next).wr .ED_STATUS_other_state 1
    let h := (((h.setVal .ED_FLIPTIME h.now).count .ED_FLIPS_flips).edEvent 0).edCount 0
    { h with ed := { h.ed with permit := false, slow := false, forced := none } }

/-- ED_FLIP (R220). -/
def execEdFlip (s : State) : Host.Outcome State Fault Refusal := onHw Hw.edFlip s

/-- ED_CLOSE (R222): closing is permitted until the next flip. -/
def Hw.edClose (h : Hw) : Hw :=
  if h.on .ED_CMD_busy then h else { h with ed := { h.ed with permit := true } }

/-- ED_CLOSE: closing permitted until the next flip. -/
def execEdClose (s : State) : Host.Outcome State Fault Refusal :=
  onHw (fun h => h.edClose) s

/-! ### Closing and retirement (R222, R223) -/

/-- The closed bit retires (R223). -/
def Hw.retire (h : Hw) : Hw :=
  let h := ((h.wr .ED_STATUS_other_state 0).wr .ED_STATUS_markwait 0).edEvent 2
  ({ h with ed := { h.ed with await := [] } } : Hw).edCount 6

/-- The awaited ports set; with none left a closed bit retires. -/
def Hw.awaitMarkers (h : Hw) (ps : List Nat) : Hw :=
  let h := ({ h with ed := { h.ed with await := ps } } : Hw).wr .ED_STATUS_markwait ps.length
  if ps.isEmpty && h.otherState == 2 then h.retire else h

/-- The fabric-mode ports that are UP. -/
def Hw.fabricUp (h : Hw) : List Nat := (List.range 768).filter (fun p => h.fabricPort p && h.link p == 5)

/-- The drain markers of a closed bit sent (R222). -/
def Hw.sendMarkers (h : Hw) (b : Nat) : Hw :=
  h.over (h.fabricUp.filter (fun p => !h.silent p)) (fun h p => (h.sendKind p 5 none (some b) []).edCount 4)

/-- A partial count whose copies disagree raises F-0x502 (R218). -/
def Hw.drainCopies (h : Hw) (b : Nat) : Hw :=
  h.each 8 (fun h n =>
    if nth h.ed.parts (drainIx n b 0) 0 ≠ nth h.ed.parts (drainIx n b 1) 0 then h.raise 0x502 n else h)

/-- EDITION_CLOSE (R222): a DRAINING bit whose drain counter is zero closes where closing is permitted. -/
def Hw.editionClose (h : Hw) : Hw :=
  if h.otherState ≠ 1 then h
  else
    let b := h.next
    let h := (h.drainCopies b).drainCopies h.current
    if h.drainCount b = 0 ∧ h.closePermitted = true then
      let h := ((h.wr .ED_STATUS_other_state 2).edEvent 1).sendMarkers b
      h.awaitMarkers h.fabricUp
    else h

/-- EDITION_CLOSE (R222). -/
def execEditionClose (s : State) : Host.Outcome State Fault Refusal := onTx Hw.editionClose s

/-- An awaited port that needs no further marker: its marker came, or it left UP. -/
def Hw.edPortDone (h : Hw) (p : Nat) : Hw :=
  if h.otherState = 2 ∧ h.ed.await.contains p = true then h.awaitMarkers (h.ed.await.filter (· != p)) else h

/-- A drain marker received on a port for a bit (R222). -/
def Hw.drainMarker (h : Hw) (p b : Nat) : Hw :=
  let h := h.edCount 5
  if b = h.next then h.edPortDone p else h

/-- DRAIN_MARKER_RX (R222). -/
def execDrainMarkerRx (p : Port) (b : Fin 2) (s : State) : Host.Outcome State Fault Refusal :=
  onHw (fun h => h.drainMarker p b) s

/-- MARKER_WAIT_TIMEOUT (R223). -/
def execMarkerWaitTimeout (s : State) : Host.Outcome State Fault Refusal :=
  onHw (fun h => if h.otherState = 2 then (h.edEvent 4).retire else h) s

/-- DRAIN_SLOW (R225): once after each flip. -/
def execDrainSlow (s : State) : Host.Outcome State Fault Refusal :=
  onHw (fun h =>
    if h.otherState = 1 ∧ h.ed.slow = false then ({ h with ed := { h.ed with slow := true } } : Hw).edEvent 3 else h) s

/-! ### Forced closing (R225) -/

/-- ED_FORCE_CLOSE (R225): queued frames of the old bit are discarded, and closing is permitted. -/
def Hw.forceClose (h : Hw) : Hw :=
  if h.on .ED_CMD_busy || h.otherState == 0 then h
  else
    let b := h.next
    let h := h.each 8 (fun h n => h.over (h.busyQueues n) (fun h q => h.flushQueue n q 0x7F (some b)))
    { h with ed := { h.ed with
        permit := true
        forced := if h.otherState = 1 then some (h.ctxs.map (·.id) ++ h.formers.filterMap (·.ctx)) else none } }

/-- ED_FORCE_CLOSE (R225). -/
def execEdForceClose (s : State) : Host.Outcome State Fault Refusal := onTx Hw.forceClose s

/-- FORCE_CLOSE_ZERO_COUNTS (R225): the contexts held at the command are released. -/
def execForceCloseZeroCounts (s : State) : Host.Outcome State Fault Refusal :=
  onHw (fun h =>
    match h.ed.forced with
    | none => h
    | some ids =>
      if ids.any (fun c => h.ctxs.any (fun x => x.id == c) || h.formers.any (fun f => f.ctx == some c)) then h
      else
        let b := h.next
        let p := (List.range 8).foldl (fun p n => setNth (setNth p (drainIx n b 0) 0) (drainIx n b 1) 0) h.ed.parts
        { h with ed := { h.ed with parts := p, forced := none } }) s

end Sys2Proof.Machine
end

