-- ==== Sys2Proof/Machine/Cams.lean ====
section
/-! DEFINITION. The rule TCAM and the Guard CAM (spec/07_rule_tcam_and_guard_cam.md): searches, enforced verdicts,
commands, scrubbing, banked registers. -/

namespace Sys2Proof.Machine

/-! ### Rule TCAM entries (R163 to R167) -/

/-- The ten value words of an entry. -/
def Hw.clValue (h : Hw) (n i : Nat) : List Nat := (List.range 10).map (fun w => h.val .A_CLV (10 * i + w) n)
/-- The ten mask words of an entry. -/
def Hw.clMask (h : Hw) (n i : Nat) : List Nat := (List.range 10).map (fun w => h.val .A_CLM (10 * i + w) n)

/-- The check of an entry (R165): value, mask, A0 without failed and A1[63:16], the index folded in. -/
def clCheck (i : Nat) (value mask : List Nat) (a0 a1 : Nat) : Nat :=
  crcFold crc16 0x22 i ((value ++ mask ++ [setBits a0 60 60 0]).flatMap (beBytes 8) ++ beBytes 6 (a1 >>> 16))

/-- The words of an entry as a shadow holds them: values, masks, A0, A1. -/
def Hw.clWords (h : Hw) (n i : Nat) : List Nat :=
  h.clValue n i ++ h.clMask n i ++ [h.val .A_CLA0 i n, h.val .A_CLA1 i n]

/-- Whether 22 words of an entry pass their check. -/
def clGood (i : Nat) (ws : List Nat) : Bool :=
  bits (nth ws 21 0) 15 0 == clCheck i (ws.take 10) (slice ws 10 10) (nth ws 20 0) (nth ws 21 0)

/-- An entry's words written to the array, the check as given; the count of failed entries follows (CL_CNT[7]). -/
def Hw.clSet (h : Hw) (n i : Nat) (ws : List Nat) : Hw :=
  let was := ofBool (bit (h.val .A_CLA0 i n) 60)
  let h := h.wr .CL_CNT_count (h.rd .CL_CNT_count 7 n + ofBool (bit (nth ws 20 0) 60) - was) 7 n
  let h := h.each 10 (fun h w => h.setVal .A_CLV (nth ws w 0) (10 * i + w) n)
  let h := h.each 10 (fun h w => h.setVal .A_CLM (nth ws (10 + w) 0) (10 * i + w) n)
  (h.setVal .A_CLA1 (nth ws 21 0) i n).setVal .A_CLA0 (nth ws 20 0) i n

/-- 22 words with their check computed and failed 0. -/
def clSealed (i : Nat) (ws : List Nat) : List Nat :=
  let a0 := setBits (nth ws 20 0) 60 60 0
  let a1 := nth ws 21 0
  ws.take 20 ++ [a0, setBits a1 15 0 (clCheck i (ws.take 10) (slice ws 10 10) a0 a1)]

/-- The address of an entry's shadow (R178). -/
def Hw.clShadow (h : Hw) (n i : Nat) : Nat := h.rd .CL_SHADOW_BASE_base 0 n + 256 * i

/-- The shadow of an entry written: the 22 words and ten zero words. -/
def Hw.clShadowSet (h : Hw) (n i : Nat) (ws : List Nat) : Hw :=
  h.storeWords 4 (h.clShadow n i) (ws ++ List.replicate 10 0)

/-- The first match of a list (R163): the lowest index in range whose entry is valid, valid in the edition, and matches
the key under its mask. Entries that the array does not list are not valid (R515). -/
def Hw.clFirst (h : Hw) (n ed sub : Nat) (key : List Byte) : Option Nat :=
  let first := h.rd .CL_LIST_first sub n ed
  let cnt := h.rd .CL_LIST_count sub n ed
  let k := padTo 80 key
  lowest ((h.listed .A_CLA0 n).filter (fun i =>
    let a0 := h.val .A_CLA0 i n
    decide (512 * first ≤ i) && decide (i < 512 * (first + cnt)) && bit a0 63 && bit a0 (61 + ed)
      && (List.range 10).all (fun w =>
        (fieldAt k (8 * w) 8 &&& h.val .A_CLM (10 * i + w) n) == h.val .A_CLV (10 * i + w) n)))

/-- The data of a hit (R166). -/
def clData (a0 a1 : Nat) : Nat :=
  (bits a1 63 32 <<< 80) + (bits a1 31 16 <<< 64) + (bits a0 59 58 <<< 62) + (bits a0 57 57 <<< 61)
    + (bits a0 56 56 <<< 60) + (bits a0 55 50 <<< 54) + (bits a0 49 49 <<< 53) + (bits a0 48 44 <<< 48)
    + (bits a0 43 40 <<< 44) + (bits a0 39 28 <<< 32) + (bits a0 27 27 <<< 31) + (bits a0 26 23 <<< 27)

/-- A number added to a list that has it at most once. -/
def addOnce (l : List Nat) (x : Nat) : List Nat := if l.contains x then l else l ++ [x]

/-- What a CL hit in an ingress stage records with its frame (R172). -/
def Verdicts.addCl (v : Verdicts) (ord a0 : Nat) : Verdicts :=
  if bit a0 57 then
    let v := if bits a0 59 58 = 1 then { v with drop := true } else v
    let v := if bits a0 59 58 = 2 then
        (let f := some (ord, bits a0 43 40, bits a0 39 28, if bit a0 27 then some (bits a0 26 23) else none)
         match v.fwd with
         | some (o, _, _, _) => if o < ord then { v with fwd := f } else v
         | none => { v with fwd := f })
      else v
    let v := if bit a0 56 then { v with punts := addOnce v.punts (bits a0 55 50) } else v
    if bit a0 49 then { v with mirrors := addOnce v.mirrors (bits a0 48 44) } else v
  else v

/-- A search of the rule TCAM (R163, R167, R172). -/
def clSearch (n : Nat) (h : Hw) (x : Ctx) (l : Launch) : Hw × Ctx × BitVec 128 × Nat :=
  let h := h.count .CL_CNT_count 0 n
  match h.clFirst n (mdEdition x.pmd) l.sub l.key with
  | none => (h, x, result false false false 0, 0)
  | some i =>
    let a0 := h.val .A_CLA0 i n
    let h := h.count .CL_CNT_count 1 n
    if bit a0 60 || !clGood i (h.clWords n i) then
      (h.raise 0x401 n, x, result true true false 0, 0x42)
    else
      let x := if l.land < 12 then { x with verdicts := x.verdicts.addCl l.ord a0 } else x
      (h, x, result true false false (clData a0 (h.val .A_CLA1 i n)), 0)

/-- CL_LOOKUP (R163): the rule TCAM answers a context's oldest CL launch. -/
def execClLookup (n : Slice) (c : Nat) (s : State) : Host.Outcome State Fault Refusal :=
  onHw (fun h => h.search n c 3 (clSearch n)) s

/-! ### Rule TCAM commands (R174, R175) -/

/-- A CL command refused with a cause (R174): it sets cmd_refused and records the cause. -/
def Hw.clRefuse (h : Hw) (n cause : Nat) : Hw :=
  (h.wr .CL_STATUS_cmd_refused 1 0 n).wr .CL_STATUS_cause cause 0 n

/-- The staged entry: CL_VALUE, CL_MASK, CL_A0, CL_A1. -/
def Hw.clStaged (h : Hw) (n : Nat) : List Nat :=
  (List.range 10).map (fun w => h.val .CL_VALUE w n) ++ (List.range 10).map (fun w => h.val .CL_MASK w n)
    ++ [h.val .CL_A0 0 n, h.val .CL_A1 0 n]

/-- A reserved or inconsistent field of an A0 word (R165): verdict 3, a FORWARD without a kind of 1 to 3, another verdict
with a kind, or a nonzero reserved field. -/
def clReserved (a0 : Nat) : Bool :=
  let k := bits a0 43 40
  bits a0 59 58 == 3 || (if bits a0 59 58 = 2 then k == 0 || decide (3 < k) else k != 0) || bits a0 22 0 != 0

/-- Whether a valid entry lies strictly between two indexes. -/
def Hw.clBetween (h : Hw) (n i d : Nat) : Bool :=
  (h.listed .A_CLA0 n).any (fun k => decide (min i d < k) && decide (k < max i d) && bit (h.val .A_CLA0 k n) 63)

/-- The cause that refuses a CL command, in the order of R174; 0 for none. -/
def Hw.clCause (h : Hw) (n op : Nat) : Nat :=
  let i := h.rd .CL_INDEX_index 0 n
  let d := h.rd .CL_INDEX_dst 0 n
  let st := h.clStaged n
  let base := h.rd .CL_SHADOW_BASE_base 0 n
  let vi := bit (h.val .A_CLA0 i n) 63
  let vd := bit (h.val .A_CLA0 d n) 63
  if op = 0 ∨ 5 < op ∨ (op = 2 ∧ clReserved (nth st 20 0)) then 8
  else if op = 2 ∧ !bit (nth st 20 0) 63 then 10
  else if base = 0 then 2
  else if !h.stackActive base then 3
  else if (op = 2 ∧ vi) ∨ (op = 5 ∧ vd) then 4
  else if (op = 4 ∨ op = 5) ∧ !vi then 5
  else if op = 5 ∧ h.clBetween n i d then 6
  else if op = 2 ∧ (List.range 10).any (fun w => (nth st w 0 &&& (2 ^ 64 - 1 - nth st (10 + w) 0)) != 0) then 7
  else 0

/-- The 22 words with failed as given. -/
def clFailed (ws : List Nat) (failed : Bool) : List Nat :=
  ws.take 20 ++ [setBits (nth ws 20 0) 60 60 (ofBool failed), nth ws 21 0]

/-- An entry's A0 replaced, its check computed with it, then its shadow (R174). A failed entry stays failed unless the new A0 clears
it (R179). -/
def Hw.clChange (h : Hw) (n i a0 : Nat) : Hw :=
  let ws := clSealed i ((h.clWords n i).take 20 ++ [a0, h.val .A_CLA1 i n])
  (h.clSet n i (clFailed ws (bit a0 60))).clShadowSet n i ws

/-! ### Entries that a command writes (R179) -/

/-- Whether a command is writing an entry of a slice's table: of the Guard CAM, or of the rule TCAM. -/
def Hw.camWriting (h : Hw) (guardCam : Bool) (n i : Nat) : Bool :=
  h.cam.any (fun x => x.guardCam == guardCam && x.sl == n && x.ix == i)

/-- The scrubber passes over an entry that a command is writing: it is to be read again after the command. -/
def Hw.camSkip (h : Hw) (guardCam : Bool) (n i : Nat) : Hw :=
  { h with cam := h.cam.map (fun x =>
      if x.guardCam == guardCam && x.sl == n && x.ix == i then { x with skipped := true } else x) }

/-- The entries of a slice's table that the scrubber has still to read once the command is done. -/
def Hw.camSkipped (h : Hw) (guardCam : Bool) (n : Nat) : List Nat :=
  (h.cam.filter (fun x => x.guardCam == guardCam && x.sl == n && x.skipped)).map (·.ix)

/-- A command accepted: busy is set, and the entries that it writes are known. -/
def Hw.camStart (h : Hw) (guardCam : Bool) (n : Nat) (ixs : List Nat) : Hw :=
  ({ h with cam := h.cam ++ ixs.map (fun i => ⟨guardCam, n, i, false⟩) } : Hw).wr
    (if guardCam then .GC_CMD_busy else .CL_CMD_busy) 1 0 n

/-- A command done: busy clears, and it writes no entry more. -/
def Hw.camEnd (h : Hw) (guardCam : Bool) (n : Nat) : Hw :=
  ({ h with cam := h.cam.filter (fun x => !(x.guardCam == guardCam && x.sl == n)) } : Hw).wr
    (if guardCam then .GC_CMD_busy else .CL_CMD_busy) 0 0 n

/-- A CL command (R174): refused with a cause, or done with busy set until CL_CMD_DONE. A MOVE leaves both copies valid;
its last step is CL_CMD_DONE's (R175). -/
def Hw.clCmd (h : Hw) (n op ed : Nat) : Hw :=
  if h.on .CL_CMD_busy 0 n then h
  else
    let cause := h.clCause n op
    if cause ≠ 0 then h.clRefuse n cause
    else
      let i := h.rd .CL_INDEX_index 0 n
      let d := h.rd .CL_INDEX_dst 0 n
      let a0 := h.val .A_CLA0 i n
      let h := match op with
        | 1 =>
          let ws := h.clWords n i
          let h := h.each 10 (fun h w => h.setVal .CL_VALUE (nth ws w 0) w n)
          let h := h.each 10 (fun h w => h.setVal .CL_MASK (nth ws (10 + w) 0) w n)
          (h.setVal .CL_A0 a0 0 n).setVal .CL_A1 (nth ws 21 0) 0 n
        | 2 =>
          let ws := clSealed i (h.clStaged n)
          (h.clShadowSet n i ws).clSet n i ws
        | 3 => h.clChange n i (setBits (setBits a0 63 63 0) 60 60 0)
        | 4 => h.clChange n i (setBits a0 62 61 ed)
        | _ =>
          let ws := clSealed d (h.clWords n i)
          ({ h with moves := h.moves ++ [(n, i)] }.clShadowSet n d ws).clSet n d ws
      h.camStart false n (if op = 1 then [] else if op = 5 then [i, d] else [i])

/-- CL_READ (R174). -/
def execClRead (n : Slice) (s : State) : Host.Outcome State Fault Refusal := onHw (fun h => h.clCmd n 1 0) s
/-- CL_WRITE (R174). -/
def execClWrite (n : Slice) (s : State) : Host.Outcome State Fault Refusal := onHw (fun h => h.clCmd n 2 0) s
/-- CL_INVALIDATE (R174). -/
def execClInvalidate (n : Slice) (s : State) : Host.Outcome State Fault Refusal := onHw (fun h => h.clCmd n 3 0) s
/-- CL_EDBITS (R174). -/
def execClEdbits (n : Slice) (ed : Fin 4) (s : State) : Host.Outcome State Fault Refusal :=
  onHw (fun h => h.clCmd n 4 ed) s
/-- CL_MOVE (R175). -/
def execClMove (n : Slice) (s : State) : Host.Outcome State Fault Refusal := onHw (fun h => h.clCmd n 5 0) s

/-! ### Scrubbing (R179) -/

/-- What the scrubber finds of a word or entry and its shadow, and does (the table of R179). -/
inductive ScrubAct
  | nothing | fromShadow | markDiffer | toShadow | markBoth
  deriving DecidableEq, Repr

/-- The row of R179's table: does the entry pass, does the shadow pass, are they equal. -/
def scrubRow (entryOk shadowOk equal : Bool) : ScrubAct :=
  match entryOk, shadowOk, equal with
  | true, true, true => .nothing
  | false, true, _ => .fromShadow
  | true, true, false => .markDiffer
  | true, false, _ => .toShadow
  | false, false, _ => .markBoth

/-- The rule TCAM's scrubber at one entry (R179). A failed bit differs from no shadow: it is not compared. -/
def Hw.clScrubOne (h : Hw) (n i : Nat) : Hw :=
  let ws := h.clWords n i
  let sh := h.loadWords (h.clShadow n i) 22
  let (ok, h) := h.fetch 4 (h.clShadow n i) 176
  let clean := clFailed ws false
  let setFailed (h : Hw) : Hw := h.clSet n i (clFailed ws true)
  match scrubRow (clGood i ws) (ok && clGood i sh) (clean == sh) with
  | .nothing => h
  | .fromShadow =>
    ((h.clSet n i (clSealed i sh)).raise 0x402 n).count .CL_CNT_count 6 n
  | .markDiffer => (setFailed h).raise 0x402 n
  | .toShadow => ((h.clShadowSet n i clean).raise 0x402 n).count .CL_CNT_count 6 n
  | .markBoth => (setFailed h).raise 0x401 n

/-- One scrub period of the rule TCAM: every entry is compared, or, its shadow's stack not being ACTIVE, the table is
skipped and F-0x405 raised. An entry that a command writes is read after the command. -/
def Hw.clScrub (h : Hw) (n : Nat) : Hw :=
  if h.stackActive (h.rd .CL_SHADOW_BASE_base 0 n) then
    h.each 32768 (fun h i =>
      if h.camWriting false n i then h.camSkip false n i else h.clScrubOne n i)
  else h.raise 0x405 n

/-- CL_SCRUB (R179). -/
def execClScrub (n : Slice) (s : State) : Host.Outcome State Fault Refusal := onHw (fun h => h.clScrub n) s

/-- The last steps of a CL command: a MOVE invalidates its source and the source's shadow (R175), busy clears, and the scrubber reads
the entries that it passed over (R179). -/
def Hw.clDone (h : Hw) (n : Nat) : Hw :=
  if h.on .CL_CMD_busy 0 n then
    let h := match h.moves.find? (fun m => m.1 == n) with
      | some (_, i) =>
        { h with moves := h.moves.filter (fun m => m.1 != n) }.clChange n i
          (setBits (setBits (h.val .A_CLA0 i n) 63 63 0) 60 60 0)
      | none => h
    let again := h.camSkipped false n
    let h := (h.camEnd false n).count .CL_CNT_count 5 n
    if h.stackActive (h.rd .CL_SHADOW_BASE_base 0 n) then h.over again (fun h i => h.clScrubOne n i) else h
  else h

/-- CL_CMD_DONE (R175). -/
def execClCmdDone (n : Slice) (s : State) : Host.Outcome State Fault Refusal := onHw (fun h => h.clDone n) s

/-! ### Guard CAM (R168 to R171) -/

/-- The check of a Guard CAM entry (R169). -/
def gcCheck (i word attr : Nat) : Nat :=
  crcFold crc16 0x23 i (beBytes 8 word ++ beBytes 6 (setBits attr 60 60 0 >>> 16))

/-- Whether an entry passes its check. -/
def gcGood (i word attr : Nat) : Bool := bits attr 15 0 == gcCheck i word attr

/-- An attribute word with its check computed and failed 0. -/
def gcSealed (i word attr : Nat) : Nat :=
  let a := setBits attr 60 60 0
  setBits a 15 0 (gcCheck i word a)

/-- The entries eligible for a search (R168), with the probe that matched each. -/
def Hw.gcEligible (h : Hw) (n ed p key : Nat) : List (Nat × Nat) :=
  let mask := h.val .GC_PROBE_MASK p n ed
  let two := h.on .GC_PROBE_CFG_probe1_en p n ed
  (h.listed .A_GCA n).filterMap (fun i =>
    let a := h.val .A_GCA i n
    let w := h.val .A_GCW i n
    if bit a 63 && bit a (61 + ed) then
      if w = key then some (i, 0) else if two && w == (key &&& mask) then some (i, 1) else none
    else none)

/-- A search of the Guard CAM (R168, R170 to R172). -/
def gcSearch (n : Nat) (h : Hw) (x : Ctx) (l : Launch) : Hw × Ctx × BitVec 128 × Nat :=
  let ed := mdEdition x.pmd
  let h := h.count .GC_CNT_count 0 n
  let es := h.gcEligible n ed l.sub (beNat (padTo 8 l.key))
  let prio (i : Nat) : Nat := bits (h.val .A_GCA i n) 55 44
  let top := (es.map (fun e => prio e.1)).foldl max 0
  let best := es.filter (fun e => prio e.1 == top)
  match lowest (best.map (·.1)) with
  | none =>
    let x := if l.land < 12 && h.on .GC_PROBE_CFG_miss_deny l.sub n ed then
        { x with verdicts := { x.verdicts with denyMiss := true } } else x
    (h, x, result false false false 0, 0)
  | some i =>
    let a := h.val .A_GCA i n
    let tie := decide (1 < best.length)
    let h := h.count .GC_CNT_count 1 n
    let h := if tie then h.count .GC_CNT_count 2 n else h
    if bit a 60 || !gcGood i (h.val .A_GCW i n) a then
      (h.raise 0x403 n, x, result true true tie 0, 0x43)
    else
      let probe := ((best.find? (fun e => e.1 == i)).map (·.2)).getD 0
      let x := if l.land < 12 && bit a 57 && bits a 59 58 == 2 then
          { x with verdicts := { x.verdicts with deny := true } } else x
      (h, x, result true false tie ((i <<< 48) + (bits a 55 44 <<< 36) + (bits a 59 58 <<< 34)
        + (bits a 57 57 <<< 33) + (probe <<< 32) + bits a 39 16), 0)

/-- GC_LOOKUP (R168): the Guard CAM answers a context's oldest GC launch. -/
def execGcLookup (n : Slice) (c : Nat) (s : State) : Host.Outcome State Fault Refusal :=
  onHw (fun h => h.search n c 2 (gcSearch n)) s

/-! ### Guard CAM commands (R176) -/

/-- The staged word and attribute of a half. -/
def Hw.gcStaged (h : Hw) (n : Nat) (b : Bool) : Nat × Nat :=
  if b then (h.val .GC_B_WORD 0 n, h.val .GC_B_ATTR 0 n) else (h.val .GC_A_WORD 0 n, h.val .GC_A_ATTR 0 n)

/-- The index of a half. -/
def Hw.gcIndex (h : Hw) (n : Nat) (b : Bool) : Nat := if b then h.rd .GC_INDEX_index_b 0 n else h.rd .GC_INDEX_index_a 0 n

/-- A reserved or inconsistent attribute field (R169). -/
def gcReserved (a : Nat) : Bool :=
  bits a 59 58 == 3 || (bit a 57 && bits a 59 58 != 2) || bit a 56 || bits a 43 40 != 0

/-- The cause that refuses a Guard CAM command, in the order of R174; 0 for none. -/
def Hw.gcCause (h : Hw) (n opA opB : Nat) : Nat :=
  let ia := h.gcIndex n false
  let ib := h.gcIndex n true
  let base := h.rd .GC_SHADOW_BASE_base 0 n
  let va := bit (h.val .A_GCA ia n) 63
  let vb := bit (h.val .A_GCA ib n) 63
  if 4 < opA ∨ 4 < opB ∨ opB = 1 ∨ (opA = 2 ∧ gcReserved (h.gcStaged n false).2)
      ∨ (opB = 2 ∧ gcReserved (h.gcStaged n true).2) then 8
  else if opA ≠ 0 ∧ opB ≠ 0 ∧ ia = ib then 9
  else if (opA = 2 ∧ !bit (h.gcStaged n false).2 63) ∨ (opB = 2 ∧ !bit (h.gcStaged n true).2 63) then 10
  else if base = 0 then 2
  else if !h.stackActive base then 3
  else if (opA = 2 ∧ va) ∨ (opB = 2 ∧ vb) then 4
  else if (opA = 4 ∧ !va) ∨ (opB = 4 ∧ !vb) then 5
  else 0

/-- The word and attribute that a half's operation gives its entry (R176). Edition bits leave a failed entry failed (R179). -/
def Hw.gcNew (h : Hw) (n : Nat) (b : Bool) (op ed : Nat) : Nat × Nat :=
  let i := h.gcIndex n b
  let w := h.val .A_GCW i n
  let a := h.val .A_GCA i n
  match op with
  | 2 => let (w, a) := h.gcStaged n b; (w, gcSealed i w a)
  | 3 => (w, gcSealed i w (setBits a 63 63 0))
  | _ => (w, setBits (gcSealed i w (setBits a 62 61 ed)) 60 60 (bits a 60 60))

/-- The shadow of a Guard CAM entry written (R178), with failed 0. -/
def Hw.gcShadowSet (h : Hw) (n i w a : Nat) : Hw :=
  h.storeWords 4 (h.rd .GC_SHADOW_BASE_base 0 n + 16 * i) [w, setBits a 60 60 0]

/-- An entry's word and attribute written; the count of failed entries follows (GC_CNT[7]). -/
def Hw.gcSet (h : Hw) (n i w a : Nat) : Hw :=
  let was := ofBool (bit (h.val .A_GCA i n) 60)
  let h := h.wr .GC_CNT_count (h.rd .GC_CNT_count 7 n + ofBool (bit a 60) - was) 7 n
  (h.setVal .A_GCW w i n).setVal .A_GCA a i n

/-- A Guard CAM command (R176): nothing when both halves are NONE, refused with a cause, or done, both halves' changes in
one array cycle, with busy set until GC_CMD_DONE. -/
def Hw.gcCmd (h : Hw) (n v : Nat) : Hw :=
  let opA := bits v 2 0
  let opB := bits v 6 4
  if h.on .GC_CMD_busy 0 n ∨ (opA = 0 ∧ opB = 0) then h
  else
    let cause := h.gcCause n opA opB
    if cause ≠ 0 then (h.wr .GC_STATUS_cmd_refused 1 0 n).wr .GC_STATUS_cause cause 0 n
    else
      let ia := h.gcIndex n false
      let ib := h.gcIndex n true
      let na := h.gcNew n false opA (bits v 9 8)
      let nb := h.gcNew n true opB (bits v 13 12)
      let rd := (h.val .A_GCW ia n, h.val .A_GCA ia n)
      let h := if opA ≥ 2 then h.gcShadowSet n ia na.1 na.2 else h
      let h := if opB ≥ 2 then h.gcShadowSet n ib nb.1 nb.2 else h
      let h := if opA = 1 then (h.setVal .GC_A_WORD rd.1 0 n).setVal .GC_A_ATTR rd.2 0 n else h
      let h := if opA ≥ 2 then h.gcSet n ia na.1 na.2 else h
      let h := if opB ≥ 2 then h.gcSet n ib nb.1 nb.2 else h
      h.camStart true n ((if opA ≥ 2 then [ia] else []) ++ (if opB ≥ 2 then [ib] else []))

/-- GC_READ (R176): half A reads; half B's operation is the written word's. -/
def execGcRead (n : Slice) (v : Word) (s : State) : Host.Outcome State Fault Refusal :=
  onHw (fun h => h.gcCmd n (setBits v.toNat 2 0 1)) s
/-- A GC_CMD word with the operation of one half set. -/
def gcWord (v : Word) (halfB : Bool) (op : Nat) : Nat :=
  if halfB then setBits v.toNat 6 4 op else setBits v.toNat 2 0 op
/-- GC_WRITE (R176): one half writes. -/
def execGcWrite (n : Slice) (halfB : Bool) (v : Word) (s : State) : Host.Outcome State Fault Refusal :=
  onHw (fun h => h.gcCmd n (gcWord v halfB 2)) s
/-- GC_INVALIDATE (R176): one half invalidates. -/
def execGcInvalidate (n : Slice) (halfB : Bool) (v : Word) (s : State) : Host.Outcome State Fault Refusal :=
  onHw (fun h => h.gcCmd n (gcWord v halfB 3)) s
/-- GC_EDBITS (R176): one half sets edition bits. -/
def execGcEdbits (n : Slice) (halfB : Bool) (v : Word) (s : State) : Host.Outcome State Fault Refusal :=
  onHw (fun h => h.gcCmd n (gcWord v halfB 4)) s
/-- The Guard CAM's scrubber at one entry (R179). -/
def Hw.gcScrubOne (h : Hw) (n i : Nat) : Hw :=
  let w := h.val .A_GCW i n
  let a := h.val .A_GCA i n
  let sh := h.loadWords (h.rd .GC_SHADOW_BASE_base 0 n + 16 * i) 2
  let (ok, h) := h.fetch 4 (h.rd .GC_SHADOW_BASE_base 0 n + 16 * i) 16
  let clean := setBits a 60 60 0
  match scrubRow (gcGood i w a) (ok && gcGood i (nth sh 0 0) (nth sh 1 0)) ([w, clean] == sh) with
  | .nothing => h
  | .fromShadow => ((h.gcSet n i (nth sh 0 0) (gcSealed i (nth sh 0 0) (nth sh 1 0))).raise 0x404 n).count .GC_CNT_count 6 n
  | .markDiffer => (h.gcSet n i w (setBits a 60 60 1)).raise 0x404 n
  | .toShadow => ((h.gcShadowSet n i w clean).raise 0x404 n).count .GC_CNT_count 6 n
  | .markBoth => (h.gcSet n i w (setBits a 60 60 1)).raise 0x403 n

/-- One scrub period of the Guard CAM (R179). -/
def Hw.gcScrub (h : Hw) (n : Nat) : Hw :=
  if h.stackActive (h.rd .GC_SHADOW_BASE_base 0 n) then
    h.each 65536 (fun h i =>
      if h.camWriting true n i then h.camSkip true n i else h.gcScrubOne n i)
  else h.raise 0x405 n

/-- GC_SCRUB (R179). -/
def execGcScrub (n : Slice) (s : State) : Host.Outcome State Fault Refusal := onHw (fun h => h.gcScrub n) s

/-- A Guard CAM command done: busy clears, and the scrubber reads the entries that it passed over (R176, R179). -/
def Hw.gcDone (h : Hw) (n : Nat) : Hw :=
  let again := h.camSkipped true n
  let h := h.camEnd true n
  if h.stackActive (h.rd .GC_SHADOW_BASE_base 0 n) then h.over again (fun h i => h.gcScrubOne n i) else h

/-- GC_CMD_DONE (R176). -/
def execGcCmdDone (n : Slice) (s : State) : Host.Outcome State Fault Refusal := onHw (fun h => h.gcDone n) s

/-! ### Banked registers (R180) -/

/-- A write to CL_LIST (R180): to the next bank, or refused with BANK_BUSY. A first + count above 64 stores count 0. -/
def Hw.clListWrite (h : Hw) (n l v : Nat) : Hw :=
  let (b, busy) := h.writeBank n
  if busy then (h.wr .CL_STATUS_write_refused 1 0 n).wr .CL_STATUS_cause 1 0 n
  else
    let first := bits v 5 0
    let cnt := bits v 14 8
    (h.wr .CL_LIST_first first l n b).wr .CL_LIST_count (if 64 < first + cnt then 0 else cnt) l n b

/-- A write to GC_PROBE_MASK or GC_PROBE_CFG (R180). -/
def Hw.gcProbeWrite (h : Hw) (n : Nat) (cfg : Bool) (p v : Nat) : Hw :=
  let (b, busy) := h.writeBank n
  if busy then (h.wr .GC_STATUS_write_refused 1 0 n).wr .GC_STATUS_cause 1 0 n
  else if cfg then h.setVal .GC_PROBE_CFG (v % 4) p n b else h.setVal .GC_PROBE_MASK v p n b

/-- CL_GC_BANKED_WRITE (R180): a write at an offset of the CL or GC block. An offset of no banked register is not this
command's register: nothing changes. -/
def execClGcBankedWrite (n : Slice) (gc : Bool) (off : BitVec 20) (v : Word) (s : State) :
    Host.Outcome State Fault Refusal :=
  onHw (fun h =>
    let o := off.toNat
    if o % 8 ≠ 0 then h
    else if gc then
      if 0x1000 ≤ o ∧ o < 0x1080 then h.gcProbeWrite n false ((o - 0x1000) / 8) v.toNat
      else if 0x1080 ≤ o ∧ o < 0x1100 then h.gcProbeWrite n true ((o - 0x1080) / 8) v.toNat
      else h
    else if 0x1000 ≤ o ∧ o < 0x1200 then h.clListWrite n ((o - 0x1000) / 8) v.toNat else h) s

end Sys2Proof.Machine
end

