-- ==== Sys2Proof/Machine/Tables.lean ====
section
/-! DEFINITION. The forwarding tables TC, LP, EX and HX: their words, lookups, writes, replicas, shadows and scrubbing
(spec/08_forwarding_tables_and_learning.md, R183 to R202). -/

namespace Sys2Proof.Machine

/-! ### The words of a replica (R186, R187, R191, R192, R197) -/

/-- The memories of a replica, with the code of FT_TARGET.table. -/
inductive FtTab
  | tc | root | slot | leaf | ex
  deriving DecidableEq, Repr

/-- The memory that FT_TARGET.table names. -/
def ftTab (c : Nat) : FtTab := match c with
  | 0 => .tc | 1 => .root | 2 => .slot | 3 => .leaf | _ => .ex

/-- The items of a memory. -/
def FtTab.size : FtTab → Nat
  | .tc => 1048576 | .root => 131072 | .slot => 4194304 | .leaf => 2097152 | .ex => 1048576

/-- The array words of an item, in the order of its shadow. -/
def FtTab.regs (t : FtTab) (n half i : Nat) : List Reg := match t with
  | .tc => [⟨.A_TC, n, 0, 2 * i⟩, ⟨.A_TC, n, 0, 2 * i + 1⟩]
  | .root => [⟨.A_ROOT, n, 0, 2 * i + half⟩]
  | .slot => [⟨.A_SLOT, n, 0, i⟩]
  | .leaf => [⟨.A_LEAF, n, 0, 2 * i + 1⟩, ⟨.A_LEAF, n, 0, 2 * i⟩]
  | .ex => [⟨.A_EX, n, 0, 2 * i⟩, ⟨.A_EX, n, 0, 2 * i + 1⟩]

/-- Where an item's shadow lies in the replica's 128 MiB (R186). -/
def FtTab.shadowOff (t : FtTab) (half i : Nat) : Nat := match t with
  | .tc => 16 * i
  | .ex => 0x1000000 + 16 * i
  | .root => 0x2000000 + 16 * i + 8 * half
  | .leaf => 0x4000000 + 16 * i
  | .slot => 0x6000000 + 8 * i

/-- An item's words without the failed bit. -/
def FtTab.clean (t : FtTab) (ws : List Nat) : List Nat := match t with
  | .tc => [setBits (nth ws 0 0) 60 60 0, nth ws 1 0]
  | .ex => [nth ws 0 0, setBits (nth ws 1 0) 60 60 0]
  | _ => ws

/-- The word of an item whose bits [15:0] hold the check. -/
def FtTab.checkAt : FtTab → Nat
  | .tc => 1 | .ex => 1 | _ => 0

/-- The check of an item (R187, R191, R192, R197 with R334, R335 and R337). -/
def FtTab.check (t : FtTab) (half i : Nat) (ws : List Nat) : Nat :=
  let c := t.clean ws
  let a := nth c 0 0
  let b := nth c 1 0
  match t with
  | .tc => crcFold crc16 0x20 i (beBytes 8 a ++ beBytes 6 (b >>> 16))
  | .ex => crcFold crc16 0x27 i (beBytes 8 a ++ beBytes 6 (b >>> 16))
  | .root => crcFold crc16 0x24 (2 * i + half) (beBytes 6 (a >>> 16))
  | .slot => crcFold crc16 0x25 i (beBytes 6 (a >>> 16))
  | .leaf => crcFold crc16 0x26 i (beBytes 8 b ++ beBytes 6 (a >>> 16))

/-- Whether an item's words pass their check. -/
def FtTab.good (t : FtTab) (half i : Nat) (ws : List Nat) : Bool :=
  bits (nth ws t.checkAt 0) 15 0 == t.check half i ws

/-- An item's words as hardware writes them: failed 0, the check computed. -/
def FtTab.sealed (t : FtTab) (half i : Nat) (ws : List Nat) : List Nat :=
  let c := t.clean ws
  setNth c t.checkAt (setBits (nth c t.checkAt 0) 15 0 (t.check half i ws))

/-- An item's words in a replica. -/
def Hw.ftWords (h : Hw) (t : FtTab) (n half i : Nat) : List Nat := (t.regs n half i).map (fun r => (h.reg r).toNat)

/-- The mark of an LP word that its scrubber has marked failed: its layout has no bit for it. -/
def FtTab.markReg (t : FtTab) (n half i : Nat) : Reg := match t with
  | .root => ⟨.A_ROOT, n, 1, 2 * i + half⟩
  | .slot => ⟨.A_SLOT, n, 1, i⟩
  | _ => ⟨.A_LEAF, n, 1, i⟩

/-- Whether an item is marked failed. -/
def Hw.ftFailed (h : Hw) (t : FtTab) (n half i : Nat) : Bool := match t with
  | .tc => bit (h.val .A_TC (2 * i) n) 60
  | .ex => bit (h.val .A_EX (2 * i + 1) n) 60
  | _ => !h.good (t.markReg n half i)

/-- An item that a lookup can use: not marked failed and its check passes. -/
def Hw.ftSound (h : Hw) (t : FtTab) (n half i : Nat) : Bool :=
  !h.ftFailed t n half i && t.good half i (h.ftWords t n half i)

/-- An item's words written in one array cycle, its failed mark gone. FT_CNT[13] counts the words now marked. -/
def Hw.ftSet (h : Hw) (t : FtTab) (n half i : Nat) (ws : List Nat) : Hw :=
  let h := if h.ftFailed t n half i then
      (h.wr .FT_CNT_count (h.rd .FT_CNT_count 13 n - 1) 13 n).mark (t.markReg n half i) false else h
  h.over ((t.regs n half i).zip (t.sealed half i ws)) (fun h e => h.setReg e.1 (BitVec.ofNat 64 e.2))

/-- An item marked failed. -/
def Hw.ftMark (h : Hw) (t : FtTab) (n half i : Nat) : Hw :=
  if h.ftFailed t n half i then h
  else
    let h := h.wr .FT_CNT_count (h.rd .FT_CNT_count 13 n + 1) 13 n
    match t with
    | .tc => h.setVal .A_TC (setBits (h.val .A_TC (2 * i) n) 60 60 1) (2 * i) n
    | .ex => h.setVal .A_EX (setBits (h.val .A_EX (2 * i + 1) n) 60 60 1) (2 * i + 1) n
    | _ => h.mark (t.markReg n half i) true

/-- The address of an item's shadow. -/
def Hw.ftShadow (h : Hw) (t : FtTab) (n half i : Nat) : Nat := h.rd .FT_SHADOW_BASE_base 0 n + t.shadowOff half i

/-- An item written to the shadow and then to the array of a replica (R184, R186). -/
def Hw.ftPut (h : Hw) (t : FtTab) (n half i : Nat) (ws : List Nat) : Hw :=
  (h.storeWords 4 (h.ftShadow t n half i) (t.sealed half i ws)).ftSet t n half i ws

/-! ### Lookups -/

/-- A usable TC entry read by index and edition (R188): an error, a miss, or the tenant and context. -/
inductive TcRead
  | error | miss | found (tenant context : Nat)
  deriving DecidableEq, Repr

/-- The TC entry at an index for a frame of an edition (R188). -/
def Hw.tcRead (h : Hw) (n ed i : Nat) : TcRead :=
  let w := h.val .A_TC (2 * i) n
  if !h.ftSound .tc n 0 i then .error
  else if bit w 63 && bit w (61 + ed) then .found (bits w 59 44) (bits (h.val .A_TC (2 * i + 1) n) 63 32)
  else .miss

/-- A lookup's error: no hit, no data (R126). -/
def lookupError : BitVec 128 := result false true false 0

/-- A TC lookup from a stage (R188). -/
def tcSearch (n : Nat) (h : Hw) (x : Ctx) (l : Launch) : Hw × Ctx × BitVec 128 × Nat :=
  let h := h.count .FT_CNT_count 0 n
  match h.tcRead n (mdEdition x.pmd) (beNat l.key % 2 ^ 20) with
  | .error => (h.raise 0x410 n, x, lookupError, 0x44)
  | .miss => (h, x, result false false false 0, 0)
  | .found t c => (h, x, result true false false ((t <<< 32) + c), 0)

/-- TC_LOOKUP (R188). -/
def execTcLookup (n : Slice) (c : Nat) (s : State) : Host.Outcome State Fault Refusal :=
  onHw (fun h => h.search n c 1 (tcSearch n)) s

/-- The stride of a level in a profile word (R190). -/
def stride (profile k : Nat) : Nat := if k = 0 ∨ 11 < k then 0 else bits profile (4 * k - 1) (4 * k - 4)

/-- The trie walk of R193 from a slot at level `k` with `pos` address bits used: none on an error, else the last leaf
named on the path. -/
def Hw.lpWalk (h : Hw) (n profile width addr : Nat) : Nat → Nat → Nat → Option Nat → Nat → Option (Option Nat)
  | 0, _, _, _, _ => none
  | fuel + 1, k, pos, cand, slot =>
    let cand := if bit slot 62 then some (bits slot 39 19) else cand
    if bit slot 63 then
      let k := k + 1
      let s := stride profile k
      let b := bits slot 61 56
      let off := bits slot 55 40 + (addr >>> (width - (pos + s))) % 2 ^ s
      if s = 0 ∨ width < pos + s ∨ h.rd .FT_LP_BANKMAP_level b ≠ k ∨ 65535 < off then none
      else if h.ftSound .slot n 0 (65536 * b + off) then
        h.lpWalk n profile width addr fuel k (pos + s) cand (h.val .A_SLOT (65536 * b + off) n)
      else none
    else some cand

/-- Whether an LP leaf's first `len` prefix bits equal the address's. -/
def prefixEq (width len a b : Nat) : Bool := decide (len ≤ width) && (a >>> (width - len)) == (b >>> (width - len))

/-- The leaf at an index for a key (R192, R193): its length and data, or none when it is not sound or not the key's. -/
def Hw.lpLeaf (h : Hw) (n f domain addr i : Nat) : Option (Nat × Nat) :=
  let hi (k : Nat) : Nat := h.val .A_LEAF (2 * (i + k)) n
  let lo := h.val .A_LEAF (2 * i + 1) n
  if f = 0 then
    let len := bits (hi 0) 15 8
    if h.ftSound .leaf n 0 i && !bit (hi 0) 7 && bits (hi 0) 63 48 == domain && prefixEq 32 len (bits (hi 0) 47 16) addr
    then some (len, bits lo 63 16) else none
  else
    let len := bits (hi 0) 47 40
    if (List.range 4).all (fun k => h.ftSound .leaf n 0 (i + k)) && bit (hi 0) 39 && bits (hi 0) 63 48 == domain
      && prefixEq 128 len (hi 1 * 2 ^ 64 + hi 2) addr
    then some (len, bits lo 63 16) else none

/-- An LP lookup (R189 to R193). -/
def lpSearch (n : Nat) (h : Hw) (x : Ctx) (l : Launch) : Hw × Ctx × BitVec 128 × Nat :=
  let h := h.count .FT_CNT_count 2 n
  let f := l.sub % 2
  let ed := mdEdition x.pmd
  let key := padTo 18 l.key
  let domain := fieldAt key 0 2
  let width := if f = 0 then 32 else 128
  let addr := fieldAt key 2 (width / 8)
  let root := 2 * domain + f
  let walk := if h.ftSound .root n ed root then
      h.lpWalk n (h.val .FT_LP_PROFILE f 0 ed) width addr 12 0 0 none (h.val .A_ROOT (2 * root + ed) n) else none
  let bad : Hw × Ctx × BitVec 128 × Nat := (h.raise 0x411 n, x, lookupError, 0x45)
  match walk with
  | none => bad
  | some none => (h, x, result false false false 0, 0)
  | some (some i) =>
    match h.lpLeaf n f domain addr i with
    | none => bad
    | some (len, data) => (h.count .FT_CNT_count 3 n, x, result true false false ((len <<< 64) + data), 0)

/-- LP_LOOKUP (R193). -/
def execLpLookup (n : Slice) (c : Nat) (s : State) : Host.Outcome State Fault Refusal :=
  onHw (fun h => h.search n c 4 (lpSearch n)) s

/-- The four candidate indexes of an EX key (R198). -/
def Hw.exCands (h : Hw) (sub key : Nat) : List Nat :=
  (List.range 4).map (fun j =>
    crc crc32c (h.rd .FT_CH_SEED_seed j) (BitVec.ofNat 8 sub :: beBytes 8 key) % 262144 * 4 + j)

/-- What two equal matches agree in (R198): contested, learned, pinned and data, as the result data place them. -/
def exData (w1 : Nat) : Nat :=
  (bits w1 57 57 <<< 34) + (bits w1 59 59 <<< 33) + (bits w1 58 58 <<< 32) + bits w1 47 16

/-- An EX lookup (R198). -/
def exSearch (n : Nat) (h : Hw) (x : Ctx) (l : Launch) : Hw × Ctx × BitVec 128 × Nat :=
  let h := h.count .FT_CNT_count 5 n
  let ed := mdEdition x.pmd
  let key := beNat (padTo 8 l.key)
  let cs := h.exCands l.sub key
  let bad := cs.filter (fun i => !h.ftSound .ex n 0 i)
  let hits := (cs.filter (fun i =>
    let w1 := h.val .A_EX (2 * i + 1) n
    h.ftSound .ex n 0 i && bit w1 63 && bit w1 (61 + ed) && bits w1 55 50 == l.sub
      && h.val .A_EX (2 * i) n == key)).map (fun i => exData (h.val .A_EX (2 * i + 1) n))
  let h := h.over bad (fun h _ => h.raise 0x412 n)
  match hits with
  | [] => if bad.isEmpty then (h, x, result false false false 0, 0) else (h, x, lookupError, 0x46)
  | d :: r => if r.all (· == d) then (h.count .FT_CNT_count 6 n, x, result true false false d, 0)
    else (h.raise 0x412 n, x, lookupError, 0x46)

/-- EX_LOOKUP (R198). -/
def execExLookup (n : Slice) (c : Nat) (s : State) : Host.Outcome State Fault Refusal :=
  onHw (fun h => h.search n c 5 (exSearch n)) s

/-- The check of an HX entry at an address (R200). -/
def hxCheck (a : Nat) (ws : List Nat) : Nat :=
  crcFold crc16 0x28 a ((ws.take 3).flatMap (beBytes 8) ++ beBytes 6 (nth ws 3 0 >>> 16))

/-- The four entries of a bucket, each with its address. -/
def Hw.hxBucket (h : Hw) (a : Nat) : List (Nat × List Nat) :=
  (List.range 4).map (fun k => (a + 32 * k, h.loadWords (a + 32 * k) 4))

/-- An HX lookup (R200, R201): two buckets, each one 128-byte HBM access. -/
def hxSearch (n : Nat) (h : Hw) (x : Ctx) (l : Launch) : Hw × Ctx × BitVec 128 × Nat :=
  let h := h.count .FT_CNT_count 8 n
  let ed := mdEdition x.pmd
  let t := l.sub % 8
  if !h.on .FT_HX_DESC_valid t 0 ed then (h, x, result false false false 0, 0)
  else
    let key := padTo 20 l.key
    let base := h.rd .FT_HX_DESC_base t 0 ed
    let addr (j : Nat) : Nat := base + 128 * (crc crc32c j key % 2 ^ h.rd .FT_HX_DESC_log2_buckets t 0 ed)
    if !h.stackActive (addr 0) || !h.stackActive (addr 1) then (h, x, lookupError, 0x48)
    else
      let (ok0, h) := h.fetch 1 (addr 0) 128
      let (ok1, h) := h.fetch 1 (addr 1) 128
      if !ok0 || !ok1 then (h, x, lookupError, 0x47)
      else
        let found := (h.hxBucket (addr 0) ++ h.hxBucket (addr 1)).filter (fun e =>
          let w (k : Nat) : Nat := nth e.2 k 0
          bit (w 3) 63 && bit (w 3) (61 + ed) && beBytes 8 (w 0) ++ beBytes 8 (w 1) ++ beBytes 4 (w 2 >>> 32) == key)
        let h1 := h.raise 0x413 n
        match found with
        | [] => (h, x, result false false false 0, 0)
        | e :: r =>
          let data (e : Nat × List Nat) : Nat := nth e.2 2 0 % 2 ^ 32
          if found.any (fun e => bits (nth e.2 3 0) 15 0 != hxCheck e.1 e.2) then (h1, x, lookupError, 0x47)
          else if r.all (fun f => data f == data e) then
            (h.count .FT_CNT_count 9 n, x, result true false false (data e), 0)
          else (h1, x, lookupError, 0x47)

/-- Whether a context's HX lookup waits for a tracker or for tokens of the stack that holds its table (R346, R348). -/
def Hw.hxWaits (h : Hw) (c : Nat) : Bool :=
  match (h.lookupOf c).bind (fun x => (x.launch? 6).map (fun l => (x, l))) with
  | none => false
  | some (x, l) =>
    let base := h.rd .FT_HX_DESC_base (l.sub % 8) 0 (mdEdition x.pmd)
    h.stackActive base && !h.mayAccess (stackOf base) 1 4

/-- HX_LOOKUP (R201). -/
def execHxLookup (n : Slice) (c : Nat) (s : State) : Host.Outcome State Fault Refusal :=
  onHw (fun h => if h.hxWaits c then h else h.search n c 6 (hxSearch n)) s

/-! ### Table commands (R184, R185) -/

/-- Whether a slice's replica takes writes (R185): it is not stale and its slice neither in RETENTION nor OFF, or a sync
into it runs. -/
def Hw.receives (h : Hw) (n : Nat) : Bool :=
  h.on .FT_SYNC_busy 0 n || (!h.on .FT_STATUS_stale 0 n && decide (2 ≤ h.slicePower n))

/-- Why a replica refuses a write for want of its shadow (R186): 2 no base, 3 stack not ACTIVE; 0 it does not. -/
def Hw.shadowCause (h : Hw) (n : Nat) : Nat :=
  let base := h.rd .FT_SHADOW_BASE_base 0 n
  if base = 0 then 2 else if !h.stackActive base then 3 else 0

/-- The first cause among replicas, in ascending slice order. -/
def Hw.shadowCauses (h : Hw) (ns : List Nat) : Nat :=
  ((ns.map h.shadowCause).find? (· != 0)).getD 0

/-- A write skips the replicas that do not receive it: the first such write sets stale (R185). -/
def Hw.skip (h : Hw) (ns : List Nat) : Hw :=
  h.over (ns.filter (fun n => !h.receives n)) (fun h n => h.wr .FT_STATUS_stale 1 0 n)

/-- A refused FT command: it changes nothing but the refusal and its cause (R212). -/
def Hw.ftRefuse (h : Hw) (n cause : Nat) : Hw := (h.wr .FT_STATUS_cmd_refused 1 0 n).wr .FT_STATUS_cause cause 0 n
/-- A refused banked FT write. -/
def Hw.ftWriteRefuse (h : Hw) (n cause : Nat) : Hw :=
  (h.wr .FT_STATUS_write_refused 1 0 n).wr .FT_STATUS_cause cause 0 n

/-- Slices named by the bits of a mask, ascending. -/
def slicesOf (mask : Nat) : List Nat := (List.range 8).filter (bit mask)

/-- Whether a leaf word fits the layout of an IPv4 leaf (R192). -/
def leafFitsV4 (hi : Nat) : Bool := bits hi 7 0 == 0 && decide (bits hi 15 8 ≤ 32)

/-- Whether a leaf word at an index fits the layout of that word of an IPv6 leaf (R192). -/
def leafFitsV6 (i hi lo : Nat) : Bool :=
  match i % 4 with
  | 0 => bit hi 39 && bits hi 38 0 == 0 && decide (bits hi 47 40 ≤ 128)
  | 3 => hi == 0 && bits lo 63 16 == 0
  | _ => bits lo 63 16 == 0

/-- Whether the staged words set a reserved field (R187, R191, R192). Whether a leaf word belongs to an IPv4 or an IPv6 leaf the hardware
does not know: one that fits neither layout is refused (DEDUCED, log entry 88). -/
def ftReserved (t : FtTab) (i hi lo : Nat) : Bool := match t with
  | .tc => bits hi 43 0 != 0 || bits lo 31 16 != 0
  | .root | .slot => bits lo 18 16 != 0
  | .leaf => !leafFitsV4 hi && !leafFitsV6 i hi lo
  | .ex => false

/-- FT_CMD op READ (R184): a word of this slice's replica into FT_DATA_HI and FT_DATA_LO; a 64-bit item leaves
FT_DATA_HI. busy stays set until FT_CMD_DONE. -/
def Hw.ftRead (h : Hw) (n : Nat) : Hw :=
  if h.on .FT_CMD_busy 0 n then h
  else
    let t := ftTab (h.rd .FT_TARGET_table 0 n)
    let i := h.rd .FT_TARGET_index 0 n
    if t.size ≤ i then h.ftRefuse n 4
    else
      let h := match t, h.ftWords t n (h.rd .FT_TARGET_half 0 n) i with
        | .leaf, [lo, hi] => (h.setVal .FT_DATA_HI hi 0 n).setVal .FT_DATA_LO lo 0 n
        | _, [a, b] => (h.setVal .FT_DATA_HI a 0 n).setVal .FT_DATA_LO b 0 n
        | _, [a] => h.setVal .FT_DATA_LO a 0 n
        | _, _ => h
      h.wr .FT_CMD_busy 1 0 n

/-- FT_READ (R184). -/
def execFtRead (n : Slice) (s : State) : Host.Outcome State Fault Refusal := onHw (fun h => h.ftRead n) s

/-- FT_CMD op WRITE (R184 to R186): the shadow and then the array of each named replica that receives writes; a named
replica that does not becomes stale. -/
def Hw.ftWrite (h : Hw) (n mask : Nat) : Hw :=
  if h.on .FT_CMD_busy 0 n then h
  else
    let t := ftTab (h.rd .FT_TARGET_table 0 n)
    let half := h.rd .FT_TARGET_half 0 n
    let i := h.rd .FT_TARGET_index 0 n
    let hi := h.val .FT_DATA_HI 0 n
    let lo := h.val .FT_DATA_LO 0 n
    let named := slicesOf mask
    let targets := named.filter h.receives
    let cause := h.shadowCauses targets
    if t.size ≤ i then h.ftRefuse n 4
    else if t = .ex then h.ftRefuse n 5
    else if ftReserved t i hi lo then h.ftRefuse n 4
    else if cause ≠ 0 then h.ftRefuse n cause
    else
      let ws := match t with
        | .tc | .ex => [hi, lo]
        | .leaf => [lo, hi]
        | _ => [lo]
      let h := h.skip named
      let h := h.over targets (fun h k => h.ftPut t k half i ws)
      h.wr .FT_CMD_busy 1 0 n

/-- FT_WRITE (R184). -/
def execFtWrite (n : Slice) (replicas : BitVec 8) (s : State) : Host.Outcome State Fault Refusal :=
  onHw (fun h => h.ftWrite n replicas.toNat) s

/-- FT_CMD_DONE (R184): busy clears. -/
def execFtCmdDone (n : Slice) (s : State) : Host.Outcome State Fault Refusal :=
  onHw (fun h => if h.on .FT_CMD_busy 0 n then (h.wr .FT_CMD_busy 0 0 n).count .FT_CNT_count 14 n else h) s

/-- The word arrays that a sync copies (R185). -/
def syncArrays : List RegName := [.A_TC, .A_EX, .A_ROOT, .A_SLOT, .A_LEAF]

/-- A replica's listed words replaced by another's, the failed marks of LP words with them (R185). -/
def Hw.copyReplica (h : Hw) (src dst : Nat) : Hw :=
  let h := h.over syncArrays (fun h a =>
    let h := h.over (h.listed a dst) (fun h i => h.setVal a (resetWord ⟨a, dst, 0, i⟩) i dst)
    h.over (h.listed a src) (fun h i => h.setVal a (h.val a i src) i dst))
  let marks := h.bad.filter (fun r => syncArrays.contains r.name ∧ r.sl = src)
  let h := { h with bad := h.bad.filter (fun r => !(decide (r.sl = dst) && syncArrays.contains r.name)) }
  let h := h.over marks (fun h r => h.mark { r with sl := dst } true)
  h.wr .FT_CNT_count (h.rd .FT_CNT_count 13 src) 13 dst

/-- A replica's whole shadow rewritten to match its words (R185). -/
def Hw.shadowReplica (h : Hw) (n : Nat) : Hw :=
  let all (t : FtTab) (halves : Nat) (h : Hw) : Hw :=
    h.each t.size (fun h i => h.each halves (fun h b =>
      h.storeWords 4 (h.ftShadow t n b i) (t.clean (h.ftWords t n b i))))
  all .slot 1 (all .leaf 1 (all .root 2 (all .ex 1 (all .tc 1 h))))

/-- A write to FT_SYNC (R185): src is stored; a go copies the source's words, rewrites the shadow and sets busy until
FT_SYNC_DONE, or is refused. A go while busy starts nothing. -/
def Hw.ftSync (h : Hw) (n v : Nat) : Hw :=
  let h := if h.on .FT_SYNC_busy 0 n then h else h.wr .FT_SYNC_src (v % 8) 0 n
  let src := h.rd .FT_SYNC_src 0 n
  if !bit v 63 || h.on .FT_SYNC_busy 0 n then h
  else if src = n ∨ h.on .FT_STATUS_stale 0 src = true then h.ftRefuse n 7
  else
    let cause := h.shadowCause n
    if cause ≠ 0 then h.ftRefuse n cause
    else ((h.copyReplica src n).shadowReplica n).wr .FT_SYNC_busy 1 0 n

/-- FT_SYNC (R185). -/
def execFtSync (n : Slice) (v : Word) (s : State) : Host.Outcome State Fault Refusal :=
  onHw (fun h => h.ftSync n v.toNat) s

/-- FT_SYNC_DONE (R185): stale clears, sync_done sets. -/
def execFtSyncDone (n : Slice) (s : State) : Host.Outcome State Fault Refusal :=
  onHw (fun h => if h.on .FT_SYNC_busy 0 n then
    ((h.wr .FT_SYNC_busy 0 0 n).wr .FT_STATUS_stale 0 0 n).wr .FT_STATUS_sync_done 1 0 n else h) s

/-- The LP launches of a slice's contexts that have not landed. -/
def Hw.lpFlying (h : Hw) (n : Nat) : List (Nat × Nat) :=
  (h.ctxs.filter (fun x => x.sl == n)).flatMap (fun x =>
    (x.launches.filter (fun l => l.table == 4 && l.done.isNone)).map (fun l => (x.id, l.ord)))

/-- LP_FENCE (R195): busy sets until the walks launched so far in the named replicas have landed. -/
def Hw.lpFence (h : Hw) (n replicas : Nat) : Hw :=
  let fly := (slicesOf replicas).flatMap h.lpFlying
  { h.wr .FT_LP_FENCE_busy 1 0 n with fences := h.fences ++ fly.map (fun f => (n, f.1, f.2)) }

/-- LP_FENCE: the fence begun. -/
def execLpFence (n : Slice) (replicas : BitVec 8) (s : State) : Host.Outcome State Fault Refusal :=
  onHw (fun h => h.lpFence n replicas.toNat) s

/-- Whether a walk that a fence of a slice waits for is still flying. -/
def Hw.fenced (h : Hw) (n : Nat) : Bool :=
  h.fences.any (fun f => f.1 == n && (List.range 8).any (fun k => (h.lpFlying k).contains f.2))

/-- LP_FENCE_DONE (R195): busy clears once every walk launched before the go has landed, and not before. -/
def execLpFenceDone (n : Slice) (s : State) : Host.Outcome State Fault Refusal :=
  onHw (fun h => if h.fenced n then h
    else { h.wr .FT_LP_FENCE_busy 0 0 n with fences := h.fences.filter (fun f => f.1 != n.val) }) s

/-! ### Scrubbing (R186) -/

/-- The check fault of a memory. -/
def FtTab.fault : FtTab → Nat
  | .tc => 0x410 | .ex => 0x412 | _ => 0x411

/-- A replica's scrubber at one item (R179, R186). -/
def Hw.ftScrubOne (h : Hw) (t : FtTab) (n half i : Nat) : Hw :=
  let ws := h.ftWords t n half i
  let a := h.ftShadow t n half i
  let sh := h.loadWords a ws.length
  let (ok, h) := h.fetch 4 a (8 * ws.length)
  match scrubRow (t.good half i ws) (ok && t.good half i sh) (t.clean ws == t.clean sh) with
  | .nothing => h
  | .fromShadow => ((h.ftSet t n half i sh).raise 0x414 n).count .FT_CNT_count 12 n
  | .markDiffer => (h.ftMark t n half i).raise 0x414 n
  | .toShadow => ((h.storeWords 4 a (t.clean ws)).raise 0x414 n).count .FT_CNT_count 12 n
  | .markBoth => (h.ftMark t n half i).raise t.fault n

/-- One scrub period of a replica (R186). -/
def Hw.ftScrub (h : Hw) (n : Nat) : Hw :=
  if h.stackActive (h.rd .FT_SHADOW_BASE_base 0 n) then
    let all (t : FtTab) (halves : Nat) (h : Hw) : Hw :=
      h.each t.size (fun h i => h.each halves (fun h b => h.ftScrubOne t n b i))
    all .slot 1 (all .leaf 1 (all .root 2 (all .ex 1 (all .tc 1 h))))
  else h.raise 0x405 n

/-- FT_SCRUB (R186). -/
def execFtScrub (n : Slice) (s : State) : Host.Outcome State Fault Refusal := onHw (fun h => h.ftScrub n) s

/-! ### Device-wide banked registers (R190, R200) -/

/-- The strides of a profile before its first 0. -/
def strides (v : Nat) : List Nat := ((List.range 11).map (fun k => stride v (k + 1))).takeWhile (· != 0)

/-- The refusal cause of a profile value (R190, R212): 4 a stride of 13 to 15, 6 a sum that is not 32 or 128, 0 none. -/
def profileCause (f v : Nat) : Nat :=
  if (List.range 11).any (fun k => decide (12 < stride v (k + 1))) then 4
  else if (strides v).foldl (· + ·) 0 ≠ (if f = 0 then 32 else 128) then 6 else 0

/-- A write to FT_LP_PROFILE[f] (R190). -/
def Hw.lpProfileWrite (h : Hw) (n f v : Nat) : Hw :=
  if h.bankBusy then h.ftWriteRefuse n 1
  else
    let v := v % 2 ^ 44
    let c := profileCause f v
    if c ≠ 0 then h.ftWriteRefuse n c else h.setVal .FT_LP_PROFILE v f 0 h.next

/-- A write to FT_HX_DESC[t] (R200): the base bits below the table's size are stored as 0. -/
def Hw.hxDescWrite (h : Hw) (n t v : Nat) : Hw :=
  let k := bits v 60 56
  if h.bankBusy then h.ftWriteRefuse n 1
  else if k < 10 ∨ 22 < k then h.ftWriteRefuse n 4
  else
    let base := bits v 39 0 / 2 ^ (7 + k) * 2 ^ (7 + k)
    h.setVal .FT_HX_DESC ((bits v 63 63 <<< 63) + (k <<< 56) + base) t 0 h.next

/-- FT_BANKED_WRITE (R190): a write at an offset of FT_LP_PROFILE or FT_HX_DESC; another offset is not this
command's register. -/
def execFtBankedWrite (n : Slice) (off : BitVec 20) (v : Word) (s : State) : Host.Outcome State Fault Refusal :=
  onHw (fun h =>
    let o := off.toNat
    if o % 8 ≠ 0 then h
    else if 0x300 ≤ o ∧ o < 0x310 then h.lpProfileWrite n ((o - 0x300) / 8) v.toNat
    else if 0x400 ≤ o ∧ o < 0x440 then h.hxDescWrite n ((o - 0x400) / 8) v.toNat
    else h) s

/-! ### HX commands (R202) -/

/-- The address of the entry that FT_HX_TARGET names, by the descriptor bank that FT_CTRL.read_bank selects, and whether
the bucket is one of the table's. -/
def Hw.hxTarget (h : Hw) (n : Nat) : Nat × Bool :=
  let b := if h.on .FT_CTRL_read_bank 0 n then h.current else h.next
  let t := h.rd .FT_HX_TARGET_table 0 n
  let k := h.rd .FT_HX_TARGET_bucket 0 n
  (h.rd .FT_HX_DESC_base t 0 b + 128 * k + 32 * h.rd .FT_HX_TARGET_slot 0 n,
   decide (k < 2 ^ h.rd .FT_HX_DESC_log2_buckets t 0 b))

/-- The cause that refuses an HX command: 4 a bucket that the table lacks, 3 a stack that is not ACTIVE (R357). -/
def Hw.hxCause (h : Hw) (n : Nat) : Nat :=
  let (a, ok) := h.hxTarget n
  if !ok then 4 else if !h.stackActive a then 3 else 0

/-- HX_READ (R202): one entry into FT_HX_ENTRY. -/
def Hw.hxRead (h : Hw) (n : Nat) : Hw :=
  let c := h.hxCause n
  if c ≠ 0 then h.ftRefuse n c
  else
    let a := (h.hxTarget n).1
    let (_, h) := h.fetch 1 a 32
    let ws := h.loadWords a 4
    (h.each 4 (fun h w => h.setVal .FT_HX_ENTRY (nth ws w 0) w n)).count .FT_CNT_count 14 n

/-- HX_READ: one entry into FT_HX_ENTRY, or refused. -/
def execHxRead (n : Slice) (s : State) : Host.Outcome State Fault Refusal :=
  onHw (fun h => h.hxRead n) s

/-- HX_WRITE (R202): the staged entry with its check, one HBM access; refused where a reserved field of word 3 is not zero (R200). -/
def Hw.hxWrite (h : Hw) (n : Nat) : Hw :=
  let c := if bits (h.val .FT_HX_ENTRY 3 n) 60 16 ≠ 0 then 4 else h.hxCause n
  if c ≠ 0 then h.ftRefuse n c
  else
    let a := (h.hxTarget n).1
    let ws := (List.range 4).map (fun w => h.val .FT_HX_ENTRY w n)
    let ws := setNth ws 3 (setBits (nth ws 3 0) 15 0 (hxCheck a ws))
    (h.storeWords 1 a ws).count .FT_CNT_count 14 n

/-- HX_WRITE: one entry written from FT_HX_ENTRY, or refused. -/
def execHxWrite (n : Slice) (s : State) : Host.Outcome State Fault Refusal :=
  onHw (fun h => h.hxWrite n) s

end Sys2Proof.Machine
end

