-- ==== Sys2Proof/Machine/ClearingHouse.lean ====
section
/-! DEFINITION. The clearing house: learn requests, relocation, aging, commands and notifications
(spec/08_forwarding_tables_and_learning.md, R203 to R210), and the records it queues for the twin partner (R453, R454). -/

namespace Sys2Proof.Machine

/-! ### Twin records (R453) -/

/-- A record with a type byte, byte 1, bytes 2 and 3, its sequence, and bytes 8 to 63. -/
def twinRecord (kind sub port seq : Nat) (rest : List Byte) : List Byte :=
  padTo 64 ([BitVec.ofNat 8 kind, BitVec.ofNat 8 sub] ++ leBytes 2 port ++ leBytes 4 seq ++ rest)

/-- A record queued for the partner: it takes the next sequence; a full queue discards it (R453). -/
def Hw.twinQueue (h : Hw) (kind sub port : Nat) (rest : List Byte) : Hw :=
  let seq := h.rd .TP_TXSEQ_seq
  let h := h.wr .TP_TXSEQ_seq (seq + 1)
  if h.twin.queue.length < 4096 then
    { h with twin := { h.twin with queue := h.twin.queue ++ [twinRecord kind sub port seq rest] } }
  else (h.wr .TP_STATUS_overflow 1).count .TP_CNT_count 2

/-- A station record for the partner when learning is shared (R454). -/
def Hw.twinStation (h : Hw) (kind sub port key data : Nat) : Hw :=
  if h.on .TP_CTRL_enable && h.on .TP_CTRL_learn_share then
    h.twinQueue kind sub port (leBytes 8 key ++ leBytes 4 data) else h

/-! ### Stamps and the view of EX (R205, R207) -/

/-- Slice number under which the clearing house keeps its own view of EX. -/
def chView : Nat := 8

/-- The current time in units of 8 µs. -/
def Hw.now8 (h : Hw) : Nat := h.up / 6400 % 65536

/-- The current age tick (R208). -/
def Hw.ageTick (h : Hw) : Nat :=
  (h.ch.tick0 + (h.up - h.ch.mark) / (h.rd .FT_CH_CTRL_age_tick_ms * 800000)) % 65536

/-- A stamp record. -/
structure Stamp where
  seen : Nat
  changed : Nat
  settled : Bool
  port : Nat
  deriving DecidableEq, Repr

/-- The stamp record of an entry. One that fails its check is reset to now and settled, and F-0x415 raised (R207). -/
def Hw.stamp (h : Hw) (i : Nat) : Stamp × Hw :=
  let r : Reg := ⟨.A_STAMP, 0, 0, i⟩
  if h.good r then
    let v := (h.reg r).toNat
    (⟨bits v 63 48, bits v 47 32, bit v 31, bits v 25 16⟩, h)
  else
    let s : Stamp := ⟨h.ageTick, h.now8, true, bits (h.reg r).toNat 25 16⟩
    let v := (s.seen <<< 48) + (s.changed <<< 32) + (1 <<< 31) + (s.port <<< 16)
    (s, ((h.setVal .A_STAMP v i).mark r false).raise 0x415 8)

/-- A stamp record written. -/
def Hw.setStamp (h : Hw) (i : Nat) (s : Stamp) : Hw :=
  (h.setVal .A_STAMP ((s.seen <<< 48) + (s.changed <<< 32) + (ofBool s.settled <<< 31) + (s.port <<< 16)) i).mark
    ⟨.A_STAMP, 0, 0, i⟩ false

/-- The stamp record of a fresh change from a port. -/
def Hw.freshStamp (h : Hw) (settled : Bool) (port : Nat) : Stamp := ⟨h.ageTick, h.now8, settled, port⟩

/-- Word 1 of an entry of the clearing house's view. -/
def Hw.chWord1 (h : Hw) (i : Nat) : Nat := h.val .A_EX (2 * i + 1) chView
/-- Whether an entry of the view is in use. -/
def Hw.chValid (h : Hw) (i : Nat) : Bool := bit (h.chWord1 i) 63

/-- The entry that holds a key of a sub-table. -/
def Hw.chFind (h : Hw) (sub key : Nat) : Option Nat :=
  (h.exCands sub key).find? (fun i =>
    h.chValid i && bits (h.chWord1 i) 55 50 == sub && h.val .A_EX (2 * i) chView == key)

/-- EX entries in use (FT_CH_STATUS.occupancy). -/
def Hw.chOccupancy (h : Hw) : Nat := ((h.listed .A_EX chView).filter (fun k => k % 2 == 1 && h.chValid (k / 2))).length

/-- All slices. -/
def slices : List Nat := List.range 8

/-- A change of an entry in the view and in every replica that receives writes, shadow first (R207). -/
def Hw.chPut (h : Hw) (i w0 w1 : Nat) : Hw :=
  let ws := [w0, w1]
  let h := h.skip slices
  let h := h.over (slices.filter h.receives) (fun h n => h.ftPut .ex n 0 i ws)
  h.ftSet .ex chView 0 i ws

/-- Why a change of EX cannot be written: 2 or 3 as R186, 0 it can. -/
def Hw.chCause (h : Hw) : Nat := h.shadowCauses (slices.filter h.receives)

/-! ### Notifications (R210) -/

/-- Kinds of notification. -/
inductive Kind
  | learned | moved | contested | aged | full
  deriving DecidableEq, Repr

/-- The code of a kind. -/
def Kind.code : Kind → Nat
  | .learned => 1 | .moved => 2 | .contested => 3 | .aged => 4 | .full => 5

/-- A notification record written to the ring, or counted when there is none or it is full (R210). -/
def Hw.chNotify (h : Hw) (k : Kind) (sub newPort oldPort ix key old new : Nat) : Hw :=
  let base := h.rd .FT_CH_RING_base
  let size := 2 ^ h.rd .FT_CH_RING_log2_size
  let prod := h.rd .FT_CH_RING_PROD_prod
  let used := (prod + 2 ^ 32 - h.rd .FT_CH_RING_CONS_cons) % 2 ^ 32
  if base = 0 ∨ size ≤ used then (h.count .FT_CH_CNT_count 11).wr .FT_CH_STATUS_resync 1
  else
    let w0 := (k.code <<< 56) + (sub <<< 50) + ((newPort % 1024) <<< 40) + ((oldPort % 1024) <<< 30) + ix
    let w2 := ((old % 2 ^ 32) <<< 32) + new % 2 ^ 32
    (h.storeWords 5 (base + 32 * (prod % size)) [w0, key, w2, h.now]).wr .FT_CH_RING_PROD_prod (prod + 1)

/-! ### Places and relocations (R199, R206) -/

/-- The first free place among the ends of paths, each extended by a candidate of the entry at its end; and, where none
is free, the extended paths. -/
def Hw.chExtend (h : Hw) (paths : List (List Nat)) : Option (List Nat) × List (List Nat) :=
  let next := paths.flatMap (fun p =>
    let e := p.getLastD 0
    let cs := h.exCands (bits (h.chWord1 e) 55 50) (h.val .A_EX (2 * e) chView)
    (cs.filter (fun c => !p.contains c)).map (fun c => p ++ [c]))
  (next.find? (fun p => !h.chValid (p.getLastD 0)), next)

/-- The path that gives a new key a place: a free candidate, or at most three relocations (R206). -/
def Hw.chPlace (h : Hw) (sub key : Nat) : Option (List Nat) :=
  let p0 := (h.exCands sub key).map (fun c => [c])
  match p0.find? (fun p => !h.chValid (p.getLastD 0)) with
  | some p => some p
  | none => match h.chExtend p0 with
    | (some p, _) => some p
    | (none, p1) => match h.chExtend p1 with
      | (some p, _) => some p
      | (none, p2) => (h.chExtend p2).1

/-- One relocation (R199): the copy is written first, then the original invalidated and its stamp record moved. -/
def Hw.chRelocate (h : Hw) (a b : Nat) : Hw :=
  let w0 := h.val .A_EX (2 * a) chView
  let w1 := h.chWord1 a
  let h := (h.chPut b w0 w1).chPut a w0 (setBits w1 63 63 0)
  let (s, h) := h.stamp a
  ((h.setStamp b s).setStamp a ⟨0, 0, false, 0⟩).count .FT_CH_CNT_count 12

/-- The relocations of a path, from its free end backwards. -/
def Hw.chRelocateAll (h : Hw) : List Nat → Hw
  | a :: b :: r => (h.chRelocateAll (b :: r)).chRelocate a b
  | _ => h

/-- A new entry put in place, or none. -/
def Hw.chInsertNew (h : Hw) (sub key w1 : Nat) (s : Stamp) : Option (Nat × Hw) :=
  match h.chPlace sub key with
  | some (i :: r) => some (i, ((h.chRelocateAll (i :: r)).chPut i key w1).setStamp i s)
  | _ => none

/-- Word 1 of an entry in use. -/
def exWord1 (ed : Nat) (learned pinned contested : Bool) (sub data : Nat) : Nat :=
  (1 <<< 63) + ((ed % 4) <<< 61) + (ofBool learned <<< 59) + (ofBool pinned <<< 58) + (ofBool contested <<< 57)
    + ((sub % 64) <<< 50) + ((data % 2 ^ 32) <<< 16)

/-! ### Requests (R203 to R208) -/

/-- A LEARN that can be written, processed as the table of R205. -/
def Hw.chLearn (h : Hw) (sub key value port : Nat) (twin : Bool) : Hw :=
  let share (h : Hw) (k : Kind) (data : Nat) : Hw :=
    if twin then h else h.twinStation (k.code + 1) sub port key data
  match h.chFind sub key with
  | none =>
    match h.chInsertNew sub key (exWord1 (h.rd .FT_CH_CTRL_learn_ed) true false false sub value)
        (h.freshStamp false port) with
    | some (i, h) => share ((h.count .FT_CH_CNT_count 3).chNotify .learned sub port 0 i key 0 value) .learned value
    | none => (h.count .FT_CH_CNT_count 9).chNotify .full sub port 0 0 key 0 value
  | some i =>
    let w1 := h.chWord1 i
    let data := bits w1 47 16
    let (s, h) := h.stamp i
    if bit w1 58 then h.count .FT_CH_CNT_count 10
    else if data = value then
      let old := (h.ageTick + 65536 - s.seen) % 65536
      let h := (h.setStamp i { s with seen := h.ageTick }).count .FT_CH_CNT_count 4
      if h.rd .FT_CH_CTRL_age_limit / 2 ≤ old then h.twinStation 4 sub port key data else h
    else if !s.settled && decide ((h.now8 + 65536 - s.changed) % 65536 < h.rd .FT_CH_CTRL_move_hold) then
      let h := h.count .FT_CH_CNT_count 6
      if bit w1 57 then h
      else (h.chPut i key (setBits w1 57 57 1)).chNotify .contested sub port s.port i key data value
    else
      let h := (h.chPut i key (setBits (setBits w1 57 57 0) 47 16 value)).setStamp i (h.freshStamp false port)
      share ((h.count .FT_CH_CNT_count 5).chNotify .moved sub port s.port i key data value) .moved value

/-- An entry invalidated in every replica and AGED notified (R208). -/
def Hw.chAged (h : Hw) (i sub key : Nat) (twin : Bool) : Hw :=
  let w1 := h.chWord1 i
  let data := bits w1 47 16
  let (s, h) := h.stamp i
  let h := (h.chPut i key (setBits w1 63 63 0)).setStamp i ⟨0, 0, false, 0⟩
  let h := (h.count .FT_CH_CNT_count 8).chNotify .aged sub 0 s.port i key data data
  if twin then h else h.twinStation 5 sub s.port key data

/-- A refused clearing-house command (R209). -/
def Hw.chRefuse (h : Hw) (cause : Nat) : Hw := (h.wr .FT_CH_STATUS_cmd_refused 1).wr .FT_CH_STATUS_cause cause

/-- A command of FT_CH_CMD processed (R209); `data` is FT_CH_DATA as written with it. A reserved op is refused. -/
def Hw.chCommand (h : Hw) (op sub key data : Nat) : Hw :=
  let h := (h.wr .FT_CH_CMD_busy 0).count .FT_CH_CNT_count 13
  let found := h.chFind sub key
  if op = 0 ∨ 5 < op then h.chRefuse 4
  else if op = 1 then
    match found with
    | none => h.setVal .FT_CH_RESULT 0
    | some i =>
      let (_, h) := h.stamp i
      ((h.setVal .FT_CH_RESULT ((1 <<< 63) + i)).setVal .FT_CH_WORD1 (h.chWord1 i)).setVal .FT_CH_STAMP (h.val .A_STAMP i)
  else if h.chCause ≠ 0 then h.chRefuse h.chCause
  else if op = 2 then
    let w1 := exWord1 (bits data 62 61) false (bit data 63) false sub data
    match found with
    | some i => (h.chPut i key w1).setStamp i (h.freshStamp true 0)
    | none => match h.chInsertNew sub key w1 (h.freshStamp true 0) with
      | some (_, h) => h
      | none => h.chRefuse 8
  else
    match found with
    | none => h.chRefuse 9
    | some i =>
      let w1 := h.chWord1 i
      if op = 3 then (h.chPut i key (setBits w1 63 63 0)).setStamp i ⟨0, 0, false, 0⟩
      else if op = 4 then
        let (s, h) := h.stamp i
        (h.chPut i key (setBits w1 57 57 0)).setStamp i { s with settled := true }
      else h.chPut i key (setBits w1 62 61 (bits data 62 61))

/-- One request processed (R205, R208, R209, R454). A LEARN or an aging that a replica's shadow would refuse is not
applied. -/
def Hw.chApply (h : Hw) (r : ChReq) : Hw :=
  match r with
  | .learn sub key value port _ _ _ twin =>
    if h.chCause ≠ 0 then h.count .FT_CH_CNT_count 14 else h.chLearn sub key value port twin
  | .age _ sub key seen =>
    match h.chFind sub key with
    | none => h
    | some i =>
      let w1 := h.chWord1 i
      let (s, h) := h.stamp i
      if s.seen = seen ∧ bit w1 59 = true ∧ bit w1 58 = false ∧ h.chCause = 0 then h.chAged i sub key false else h
  | .twinAged sub key value =>
    match h.chFind sub key with
    | none => h.count .TP_CNT_count 6
    | some i =>
      if bits (h.chWord1 i) 47 16 = value % 2 ^ 32 ∧ h.chCause = 0 then
        (h.chAged i sub key true).count .TP_CNT_count 5
      else h.count .TP_CNT_count 6
  | .cmd op sub key data => h.chCommand op sub key data

/-- A request appended to the queue. A command or a partner's request that finds the queue of 4,096 full waits in the places behind
them (R204; DESIGN CHOICE, log entry 86). -/
def Hw.chEnqueue (h : Hw) (r : ChReq) : Hw := { h with ch := { h.ch with queue := h.ch.queue ++ [r] } }

/-- A learn request that reaches the queue (R203, R204): discarded, merged, shed or queued. -/
def Hw.chArrive (h : Hw) (r : ChReq) : Hw :=
  let h := h.count .FT_CH_CNT_count 0
  match r with
  | .learn sub key value _ tenant _ _ _ =>
    let same (q : ChReq) : Bool := match q with
      | .learn s k v _ _ _ _ _ => s == sub && k == key && v == value
      | _ => false
    if !h.on .FT_CH_CTRL_learn_en || bit (h.val .FC_TFROZEN (tenant / 64)) (tenant % 64) || h.chCause != 0 then
      h.count .FT_CH_CNT_count 14
    else if h.ch.queue.any same then h.count .FT_CH_CNT_count 1
    else if 4096 ≤ h.ch.queue.length then h.count .FT_CH_CNT_count 2
    else h.chEnqueue r
  | _ => h.chEnqueue r

/-- LEARN_REQUEST (R203): the first request on its way that waits for no tail status reaches the queue. -/
def execLearnRequest (s : State) : Host.Outcome State Fault Refusal :=
  onHw (fun h =>
    match h.ch.coming.find? (fun c => c.1.isNone) with
    | none => h
    | some (_, r) =>
      ({ h with ch := { h.ch with coming := delFirst (fun c => c.1.isNone) h.ch.coming } } : Hw).chArrive r) s

/-- CH_REQUEST_PROCESS (R205): the request at the front of the queue is applied. -/
def execChRequestProcess (s : State) : Host.Outcome State Fault Refusal :=
  onHw (fun h =>
    match h.ch.queue with
    | [] => h
    | r :: q => ({ h with ch := { h.ch with queue := q } } : Hw).chApply r) s

/-- A command written to FT_CH_CMD (R203, R209): applied at once by an idle clearing house, else queued behind the
requests before it, with busy set until it is processed. -/
def Hw.chCmdWrite (h : Hw) (op sub : Nat) : Hw :=
  if h.on .FT_CH_CMD_busy then h
  else
    let h := h.count .FT_CH_CNT_count 0
    let r := ChReq.cmd op sub (h.val .FT_CH_KEY) (h.val .FT_CH_DATA)
    if h.ch.queue.isEmpty then h.chApply r else (h.chEnqueue r).wr .FT_CH_CMD_busy 1

/-- CH_LOOKUP (R209). -/
def execChLookup (sub : Fin 64) (s : State) : Host.Outcome State Fault Refusal := onHw (fun h => h.chCmdWrite 1 sub) s
/-- CH_INSERT (R209). -/
def execChInsert (sub : Fin 64) (s : State) : Host.Outcome State Fault Refusal := onHw (fun h => h.chCmdWrite 2 sub) s
/-- CH_DELETE (R209). -/
def execChDelete (sub : Fin 64) (s : State) : Host.Outcome State Fault Refusal := onHw (fun h => h.chCmdWrite 3 sub) s
/-- CH_CLEAR_CONTESTED (R209). -/
def execChClearContested (sub : Fin 64) (s : State) : Host.Outcome State Fault Refusal :=
  onHw (fun h => h.chCmdWrite 4 sub) s
/-- CH_SET_ED (R209). -/
def execChSetEd (sub : Fin 64) (s : State) : Host.Outcome State Fault Refusal := onHw (fun h => h.chCmdWrite 5 sub) s

/-- The aging scanner at an index (R208): it sets settled on an old change, and submits an AGE request when the queue
has room for it. -/
def Hw.agingScan (h : Hw) (i : Nat) : Hw :=
  if h.chValid i then
    let w1 := h.chWord1 i
    let (s, h) := h.stamp i
    let s := if 32768 ≤ (h.now8 + 65536 - s.changed) % 65536 then { s with settled := true } else s
    let h := h.setStamp i s
    if h.on .FT_CH_CTRL_age_en && bit w1 59 && !bit w1 58
        && decide (h.rd .FT_CH_CTRL_age_limit ≤ (h.ageTick + 65536 - s.seen) % 65536)
        && decide (h.ch.queue.length < 4096) then
      (h.count .FT_CH_CNT_count 0).chEnqueue (.age i (bits w1 55 50) (h.val .A_EX (2 * i) chView) s.seen)
    else h
  else h

/-- AGING_SCAN (R208). -/
def execAgingScan (i : Fin 1048576) (s : State) : Host.Outcome State Fault Refusal := onHw (fun h => h.agingScan i) s

/-- The ring's place in clerk shared memory (R19). -/
def inShared (a n : Nat) : Bool := decide (0x10000000 ≤ a) && decide (a + n ≤ 0x11000000)

/-- A write to FT_CH_RING (R210). -/
def Hw.chRingWrite (h : Hw) (v : Nat) : Hw :=
  let k := bits v 63 60
  let size := 2 ^ (5 + k)
  let base := bits v 39 0 / size * size
  if k < 6 ∨ (base ≠ 0 ∧ !inShared base size) then h
  else h.setVal .FT_CH_RING ((k <<< 60) + base)

/-- CH_RING_WRITE (R210). -/
def execChRingWrite (v : Word) (s : State) : Host.Outcome State Fault Refusal := onHw (fun h => h.chRingWrite v.toNat) s

end Sys2Proof.Machine
end

