-- ==== Sys2Proof/Machine/Gates.lean ====
section
/-! DEFINITION. Counted length, gate control lists and the minute calendar (spec/11_queues_scheduling_and_policing.md, R264,
R273 to R277, R281). -/

namespace Sys2Proof.Machine

/-- The index of a gate list entry. -/
def gclIx (p b e : Nat) : Nat := (portIx p * 2 + b) * 1024 + e
/-- The operative bank of a port. -/
def Hw.operBank (h : Hw) (p : Nat) : Nat := h.rd .TM_GCLCMD_oper_bank (portIx p) (portSl p)
/-- The gate mask of an entry of the operative list. -/
def Hw.gateMask (h : Hw) (p e : Nat) : Nat := h.rd .TM_GCL_gates (gclIx p (h.operBank p) e) (portSl p)
/-- Microseconds in 1.25 ns units. -/
def usUnits (us : Nat) : Nat := 800 * us
/-- The interval of an entry of a bank, in 1.25 ns units. -/
def Hw.gateSpan (h : Hw) (p b e : Nat) : Nat := usUnits (h.rd .TM_GCL_interval_us (gclIx p b e) (portSl p))
/-- The cycle of the first `n` entries of a bank, in 1.25 ns units. -/
def Hw.cycle (h : Hw) (p b n : Nat) : Nat := ((List.range n).map (h.gateSpan p b)).foldl (· + ·) 0

/-- The calendar slot of a queue for a minute of the TAI day (R274). -/
def Hw.calSlot (h : Hw) (p q m : Nat) : Bool :=
  let s := m % 1440
  bit (h.val .TM_CAL (23 * portQ p q + s / 64) (portSl p)) (s % 64)
/-- Whether the calendar word of a queue for a minute passes its check. -/
def Hw.calGood (h : Hw) (p q m : Nat) : Bool := h.good ⟨.TM_CAL, portSl p, 0, 23 * portQ p q + m % 1440 / 64⟩

/-- Whether a gated queue is open under a slot and a gate mask (R275). -/
def Hw.openUnder (h : Hw) (p q : Nat) (slot : Bool) (mask : Nat) : Bool :=
  if slot then bit mask q else h.on .TM_QCFG_cal_off_open (portQ p q) (portSl p)

/-- Whether a queue is gated. -/
def Hw.gated (h : Hw) (p q : Nat) : Bool := h.on .TM_QCFG_gate_en (portQ p q) (portSl p)

/-- Whether a gated queue is open now (R275, R281). -/
def Hw.gateOpen (h : Hw) (p q : Nat) : Bool :=
  let s := h.sched p
  !s.shutEntry && !bit s.shut q && h.openUnder p q (bit s.slots q) (h.gateMask p s.entry)

/-- The next minute mark after an instant. -/
def nextMark (t : Nat) : Nat := (t / (60 * unitsPerSecond) + 1) * (60 * unitsPerSecond)

/-- Whether a gated queue is open under the calendar word of a minute and an entry of the operative list: a word that fails its check
closes it whatever cal_off_open says (R281). `slot` is none for a calendar word that fails. -/
def Hw.openIn (h : Hw) (p q : Nat) (slot : Option Bool) (e : Nat) : Bool :=
  h.good ⟨.TM_GCL, portSl p, 0, gclIx p (h.operBank p) e⟩
    && (match slot with | some b => h.openUnder p q b (h.gateMask p e) | none => false)

/-- The window end of R276: the first closing instant from entry `e`, which began at `st`, on, through `n` more entries; `mark` is
the next minute mark, `cur` and `nxt` the slots before and after it. -/
def Hw.windowEnd (h : Hw) (p q mark : Nat) (cur nxt : Option Bool) (e st : Nat) : Nat → Nat
  | 0 => st
  | n + 1 =>
    let fin := st + h.gateSpan p (h.operBank p) e
    if !h.openIn p q (if st < mark then cur else nxt) e then st
    else if st < mark ∧ mark < fin ∧ h.openIn p q nxt e = false then mark
    else h.windowEnd p q mark cur nxt ((e + 1) % max 1 (h.sched p).len) fin n

/-- The window end of an open queue at an instant (R276). -/
def Hw.gateEnd (h : Hw) (p q t : Nat) : Nat :=
  let s := h.sched p
  let mark := nextMark t
  let m := mark / (60 * unitsPerSecond)
  h.windowEnd p q mark (if bit s.shut q then none else some (bit s.slots q))
    (if h.calGood p q m then some (h.calSlot p q m) else none) s.entry s.start 17

/-- Whether a head of a gated, open queue fits its window now. -/
def Hw.fits (h : Hw) (p q len : Nat) : Bool :=
  decide (h.now + h.txTime p (h.counted (portSl p) (portQ p q) len) ≤ h.gateEnd p q h.now)

/-- The heads of a queue that has just opened and that can never fit its window dropped with 0x6D (R277). -/
def Hw.dropUnfit (h : Hw) (p q : Nat) : Nat → Hw
  | 0 => h
  | n + 1 =>
    match (h.queue (portSl p) (portQ p q)).die with
    | [] => h
    | c :: _ => if h.fits p q c.size then h else (h.discardCopy (portSl p) (portQ p q) c 0x6D).dropUnfit p q n

/-- A change of the gates of a port: the queues that it opens are tested (R277). -/
def Hw.regate (h : Hw) (p : Nat) (f : Hw → Hw) : Hw :=
  let was := (List.range 16).filter (fun q => h.gated p q && h.gateOpen p q)
  let h := f h
  h.over ((List.range 16).filter (fun q => h.gated p q && h.gateOpen p q && !was.contains q))
    (fun h q => h.dropUnfit p q (h.queue (portSl p) (portQ p q)).die.length)

/-- The entry in force at an offset from the start of a cycle, with its start. -/
def Hw.entryAt (h : Hw) (p b : Nat) (e st off : Nat) : Nat → Nat × Nat
  | 0 => (e, st)
  | n + 1 =>
    let x := h.gateSpan p b e
    if off < x then (e, st) else h.entryAt p b (e + 1) (st + x) (off - x) n

/-- The entry in force at the present time taken (R273), its check with it (R281). -/
def Hw.syncEntry (h : Hw) (p : Nat) : Hw :=
  let s := h.sched p
  let b := h.operBank p
  let cyc := max 1 (h.cycle p b s.len)
  let off := (((h.now : Int) - s.base) % (cyc : Int)).toNat
  let (e, st) := h.entryAt p b 0 (h.now - off) off (s.len - 1)
  let bad := !h.good ⟨.TM_GCL, portSl p, 0, gclIx p b e⟩
  let h := h.setSched p { s with entry := e, start := st, shutEntry := bad }
  if bad then h.raise 0x703 (portSl p) else h

/-- GCL_GO (R273): a write of TM_GCLCMD. -/
def Hw.gclGo (h : Hw) (p v : Nat) : Hw :=
  let n := portSl p
  let i := portIx p
  let len := bits v 42 32
  if bit v 63 ∧ h.on .TM_GCLCMD_pending i n = true then h.tmRefuse n 3 (0x2008 + 16 * i)
  else if len = 0 ∨ 1024 < len then h.tmRefuse n 4 (0x2008 + 16 * i)
  else
    let h := h.wr .TM_GCLCMD_admin_len len i n
    if !bit v 63 then h
    else
      let b := 1 - h.operBank p
      let cyc := max 1 (h.cycle p b len)
      let base := h.val .TM_GCLBASE i n
      let least := h.now + usUnits 10
      let start := if least ≤ base then base else base + ceilDiv (least - base) cyc * cyc
      (h.setSched p { h.sched p with newLen := len, newStart := start }).wr .TM_GCLCMD_pending 1 i n

/-- GCL_GO (R273). -/
def execGclGo (p : Port) (v : Word) (s : State) : Host.Outcome State Fault Refusal := onHw (fun h => h.gclGo p v.toNat) s

/-- The calendars sampled at a minute mark for a port (R274, R281). -/
def Hw.samplePort (h : Hw) (p m : Nat) : Hw :=
  h.regate p (fun h =>
    let mask (f : Nat → Bool) : Nat := ((List.range 16).filter f).foldl (fun a q => a + 2 ^ q) 0
    let shut := mask (fun q => !h.calGood p q m)
    let h := if shut ≠ 0 then h.raise 0x703 (portSl p) else h
    h.setSched p { h.sched p with slots := mask (fun q => h.calSlot p q m), shut := shut })

/-- The ports whose calendars hold, or held at the last mark, a slot. -/
def Hw.calendarPorts (h : Hw) : List Nat :=
  let port (r : Reg) : List Nat := if r.name = .TM_CAL then [96 * r.sl + r.ix / 23 / 16] else []
  (h.words.flatMap (fun e => port e.1) ++ h.bad.flatMap port ++ h.scheds.map (·.1)).eraseDups

/-- The calendars sampled at a minute mark (R274). -/
def Hw.sampleCalendars (h : Hw) : Hw := h.over h.calendarPorts (fun h p => h.samplePort p h.minute)

end Sys2Proof.Machine
end

