-- ==== Sys2Proof/Machine/Ledger.lean ====
section
/-! DEFINITION. The ledger: books, settling, the close of a minute, folios and their seals, the chain and its enabling, the
twin witness, and the cut of last-gasp (spec/12_ledger.md, R284 to R311). -/

namespace Sys2Proof.Machine

/-- The ledger's state replaced. -/
def Hw.setLg (h : Hw) (f : LgSt → LgSt) : Hw := { h with lg := f h.lg }
/-- LG_CNT advanced. -/
def Hw.lgCount (h : Hw) (c : Nat) (n : Nat := 1) : Hw := h.count .LG_CNT_count c 0 n
/-- A ledger event. -/
def Hw.lgEvent (h : Hw) (b : Nat) : Hw := h.setBit .LG_EVENT_events b
/-- Whether a chain runs. -/
def Hw.chain (h : Hw) : Bool := h.on .LG_STATUS_chain

/-! ### Book records (R292, R295) -/

/-- The counts of a book record, whether it is flagged suspect, and whether its check passes. -/
structure BookRec where
  pkts : Nat
  subPkts : Nat
  bytes : Nat
  subBytes : Nat
  suspect : Bool
  good : Bool
  deriving DecidableEq, Repr

/-- The HBM address of a book record. -/
def Hw.bookAddr (h : Hw) (bank a : Nat) : Nat := h.rd .LG_BOOK_BASE_base + bank * bookSize + 32 * a

/-- A book record read, and its check verified. -/
def Hw.bookRead (h : Hw) (addr : Nat) : BookRec :=
  let d := h.view8 addr 32
  ⟨leNat (slice d 4 6), leNat (slice d 10 6), leNat (slice d 16 8), leNat (slice d 24 8), bit (byteAt d 2) 0,
    h.readable addr 32 && leNat (slice d 0 2) == bookCheck addr d⟩

/-- A book record written with a correct check. -/
def Hw.bookWrite (h : Hw) (addr : Nat) (r : BookRec) : Hw :=
  let d := [BitVec.ofNat 8 (ofBool r.suspect), 0#8] ++ leBytes 6 r.pkts ++ leBytes 6 r.subPkts ++ leBytes 8 r.bytes
    ++ leBytes 8 r.subBytes
  let d := leBytes 2 (bookCheck addr (0#8 :: 0#8 :: d)) ++ d
  (h.store addr d).granules 3 addr 32

/-- A book zeroed, every record with the check of its zero counts (R284, R289, R292): the ledger writes all of it. -/
def Hw.zeroBook (h : Hw) (bank : Nat) : Hw :=
  let b := h.bookAddr bank 0
  let h : Hw := { h with
    mem := h.mem.filter (fun c => !(decide (b ≤ c.1) && decide (c.1 < b + bookSize)))
    poison := h.poison.filter (fun s => !(decide (b ≤ 64 * s) && decide (64 * s < b + bookSize)))
    lg := { h.lg with blank := (h.lg.blank.filter (· != b)) ++ [b] } }
  h.granules 3 b bookSize

/-- One charge added to a book (R295). -/
def Hw.bookCharge (h : Hw) (bank : Nat) (c : Charge) : Hw :=
  let addr := h.bookAddr bank (16 * c.tenant + c.line)
  let (ok, h) := h.fetch 3 addr 32
  let r := h.bookRead addr
  let ok := ok && r.good
  let r := if c.err then { r with subPkts := r.subPkts + c.pkts, subBytes := r.subBytes + c.bytes }
    else { r with pkts := r.pkts + c.pkts, bytes := r.bytes + c.bytes }
  let h := h.bookWrite addr { r with suspect := r.suspect || !ok }
  if ok then h else (h.raise 0xB01 8).lgCount 3

/-- Charges that the accumulators add to a book, or hold, or lose, as the books' stack is (R293). -/
def Hw.accumulate (h : Hw) (bank : Nat) (origin : Nat) (c : Charge) : Hw :=
  if h.stackActive (h.rd .LG_BOOK_BASE_base) then h.bookCharge bank c
  else if (h.lg.accum.filter (fun x => x.2.1 == origin)).length < Config.accumulatorDepth then
    h.setLg (fun l => { l with accum := l.accum ++ [(bank, origin, c)] })
  else
    (((h.setLg (fun l => { l with lost := setNth l.lost bank true })).lgCount 7).wr .LG_STATUS_accum_loss 1).raise 0xB0B 8

/-- Held charges flushed once the stack is ACTIVE again. -/
def Hw.flushAccum (h : Hw) : Hw :=
  if h.lg.accum.isEmpty || !h.stackActive (h.rd .LG_BOOK_BASE_base) then h
  else (h.over h.lg.accum (fun h x => h.bookCharge x.1 x.2.2)).setLg (fun l => { l with accum := [] })

/-! ### Updates (R284, R288, R290, R294, R296, R297) -/

/-- A tally list with `n` added at an index. -/
def tallyAdd (t : List Nat) (i n : Nat) : List Nat := setNth t i (nth t i 0 + n)
/-- The tally index of a charge: packets; bytes follow. -/
def Charge.ix (c : Charge) : Nat := if c.err then 32 else 2 * c.line
/-- The tallies of a parity with an update added. -/
def LgUpdate.tally (u : LgUpdate) (t : List Nat) : List Nat :=
  let t := u.charges.foldl (fun t c => tallyAdd (tallyAdd t c.ix c.pkts) (c.ix + 1) c.bytes) t
  tallyAdd (tallyAdd t 34 u.tnew) 35 u.tother
/-- Packets of an update. -/
def LgUpdate.packets (u : LgUpdate) : Nat := (u.charges.map (·.pkts)).foldl (· + ·) 0

/-- The parity of the book that an update goes to, and whether it is late (R288, R290). -/
def Hw.bookOf (h : Hw) (parity : Nat) : Nat × Bool :=
  if parity = h.openParity then (parity, false)
  else match h.lg.closing with
    | some c => if c.parity = parity ∧ c.settling = true then (parity, false) else (h.openParity, true)
    | none => (h.openParity, true)

/-- LG_HELD shows the held count. -/
def Hw.showHeld (h : Hw) : Hw := h.setVal .LG_HELD (unsigned 48 (h.lg.base + nth h.lg.dh 0 0 + nth h.lg.dh 1 0))

/-- An update reaches the ledger (R284 to R297, R309). One whose check fails is discarded, also after the cut. -/
def Hw.applyUpdate (h : Hw) (u : LgUpdate) (checkOk : Bool) : Hw :=
  if u.postCut then
    if checkOk then h.setLg (fun l => { l with postCut := l.postCut + u.packets }) else (h.raise 0xB05 u.origin).lgCount 4
  else
    let (p, late) := h.bookOf u.parity
    let on := nth h.lg.bookOn p false
    let h := h.flushAccum
    let h := h.setLg (fun l => { l with
      dh := setNth l.dh p (nth l.dh p 0 + u.h)
      tallyA := if on then setNth l.tallyA p (u.tally (nth l.tallyA p tallyZero)) else l.tallyA
      tallyB := if on then setNth l.tallyB p (u.tally (nth l.tallyB p tallyZero)) else l.tallyB
      late := if late && on then setNth l.late p (nth l.late p 0 + u.packets) else l.late })
    let h := if late && on && decide (0 < u.packets) then
        let h := h.lgCount 1 u.packets
        if h.lg.lateRaised then h else (h.raise 0xB04 8).setLg (fun l => { l with lateRaised := true })
      else h
    let h := if !checkOk then (h.raise 0xB05 u.origin).lgCount 4
      else if on then h.over u.charges (fun h c => h.accumulate p u.origin c) else h
    h.showHeld

/-- LEDGER_UPDATE (R294): the update that was sent first arrives. -/
def execLedgerUpdate (checkOk : Bool) (s : State) : Host.Outcome State Fault Refusal :=
  onHw (fun h =>
    match h.lgq with
    | [] => h
    | u :: r => ({ h with lgq := r } : Hw).applyUpdate u checkOk) s

/-! ### The witness (R307) -/

/-- The digest record of a folio queued for the partner. -/
def Hw.sendDigest (h : Hw) (minute kind tflags seq : Nat) (tag prev : List Byte) : Hw :=
  if h.on .LG_CTRL_twin_en && h.on .TP_CTRL_enable then
    (h.twinQueue 6 0 0 (leBytes 8 minute ++ leBytes 1 kind ++ leBytes 1 (tflags % 16) ++ List.replicate 6 0#8
      ++ leBytes 8 seq ++ tag ++ prev)).setLg (fun l => { l with awaiting := true })
  else h

/-- A witness mismatch (R307). -/
def Hw.witnessFault (h : Hw) : Hw :=
  ((h.setLg (fun l => { l with mismatch := true })).lgEvent 3).raise 0xB08 8

/-- A digest record received (R307). -/
def Hw.digestRx (h : Hw) (d : Digest) : Hw :=
  if !h.on .LG_CTRL_twin_en then h
  else
    let chainOk := match h.lg.lastDigest with
      | some x => x.seq + 1 != d.seq || d.prev == x.mac
      | none => true
    let ok := h.lg.lastPlaced == some d.minute && chainOk
    let h := (h.setLg (fun l => { l with witness := some d, lastDigest := some d, awaiting := false })).lgCount 5
    if ok then h else h.witnessFault

/-- The prev_seal of a partner's last-gasp folio compared with the seal of its latest digest record, if that carried the sequence one
below (R307, R454). The segment header holds the low 32 bits of the sequence (R306). -/
def Hw.gaspWitness (h : Hw) (seq : Nat) (prev : List Byte) : Hw :=
  match h.lg.lastDigest with
  | some x => if h.on .LG_CTRL_twin_en && (x.seq + 1) % 2 ^ 32 == seq && x.mac != prev then h.witnessFault else h
  | none => h

/-- WITNESS_WAIT_TIMEOUT (R307). -/
def execWitnessWaitTimeout (s : State) : Host.Outcome State Fault Refusal :=
  onHw (fun h =>
    if h.lg.awaiting then
      ((h.setLg (fun l => { l with awaiting := false, witness := none })).lgEvent 4).raise 0xB09 8
    else h) s

/-! ### Folios (R295 to R305) -/

/-- The addresses and values of the records of a book that memory lists, in rising account order. -/
def Hw.bookLines (h : Hw) (bank : Nat) : List (Nat × BookRec) :=
  let b := h.bookAddr bank 0
  let touched : List Nat := h.mem.map (fun c => c.1) ++ h.poison.flatMap (fun s => [64 * s, 64 * s + 32])
  let ix := (touched.filterMap
    (fun a => if b ≤ a ∧ a < b + bookSize then some ((a - b) / 32) else none)).eraseDups
  (ix.mergeSort (fun a b => decide (a ≤ b))).map (fun a => (a, h.bookRead (b + 32 * a)))

/-- A folio line (R300). -/
def folioLine (a : Nat) (r : BookRec) : List Byte :=
  leBytes 2 (a / 16) ++ [BitVec.ofNat 8 (a % 16), BitVec.ofNat 8 (ofBool (r.suspect || !r.good))] ++ leBytes 6 r.pkts
    ++ leBytes 6 r.subPkts ++ leBytes 8 r.bytes ++ leBytes 8 r.subBytes

/-- The sums over the walked lines (R296): packets and bytes of each line and of the error sub-count. -/
def walkSums (ls : List (Nat × BookRec)) : List Nat :=
  ls.foldl (fun t x =>
    let i := 2 * (x.1 % 16)
    tallyAdd (tallyAdd (tallyAdd (tallyAdd t i x.2.pkts) (i + 1) x.2.bytes) 32 x.2.subPkts) 33 x.2.subBytes) tallyZero

/-- The header of a folio (R299). -/
def Hw.folioHeader (h : Hw) (kind minute start fin post parity : Nat) (hs he : Int) (prev : List Byte) : List Byte :=
  let first := h.val .LG_SEQ == 0
  let late := nth h.lg.late parity 0
  let slot := h.rd .LG_CTRL_seal_slot
  let flags := ofBool first + 2 * ofBool (decide (0 < late)) + 4 * ofBool h.lg.witness.isSome + 8 * ofBool h.lg.mismatch
    + 16 * ofBool (kind == 2) + 32 * ofBool (nth h.lg.lost parity false)
  let w := h.lg.witness
  leBytes 2 1 ++ leBytes 1 kind ++ leBytes 1 flags ++ leBytes 2 h.member
    ++ leBytes 2 (slot + (h.rd .CX_SEALSLOT_generation slot % 4096) * 16) ++ leBytes 8 minute ++ leBytes 8 (h.val .LG_SEQ)
    ++ leBytes 8 (h.val .GL_DEVICE_ID) ++ leBytes 8 start ++ leBytes 8 fin ++ leBytes 8 (unsigned 64 hs)
    ++ leBytes 8 (unsigned 64 he) ++ leBytes 8 late ++ leBytes 8 post ++ prev
    ++ (match w with | some d => d.mac | none => List.replicate 16 0#8)
    ++ leBytes 8 (match w with | some d => d.minute | none => 0)
    ++ leBytes 2 (match w with | some d => d.member | none => 0) ++ List.replicate 6 0#8

/-- The residual of a minute (R297) from the walker's sums and the tallies. -/
def residual (hs he : Int) (sums tally : List Nat) : Int :=
  let g (l : List Nat) (i : Nat) : Int := (nth l i 0 : Nat)
  (he - hs) - (g sums 0 + g tally 34) + (g sums 2 + g sums 10 + g sums 6 + g sums 20 + g tally 35)

/-- A folio made of a book (R298 to R303): its bytes, whether it is sealed, and the hardware with the book read under class LEDGER and
zeroed, the faults of its checks raised, the seal registers advanced and the digest record of R307 queued. -/
def Hw.makeFolio (h : Hw) (kind p minute start fin post : Nat) : List Byte × Bool × Hw :=
  let h := h.sweep 3 (h.bookAddr p 0) bookSize
  let lines := h.bookLines p
  let bad := lines.filter (fun x => x.2.suspect || !x.2.good)
  let h := h.over (lines.filter (fun x => !x.2.good)) (fun h _ => (h.raise 0xB01 8).lgCount 3)
  let sums := walkSums lines
  let ta := nth h.lg.tallyA p tallyZero
  let tb := nth h.lg.tallyB p tallyZero
  let hs := h.lg.base
  let he := h.lg.base + nth h.lg.dh p 0
  let tallyFault := ta != tb || sums.take 34 != ta.take 34
  let res := residual hs he sums ta
  let slot := h.rd .LG_CTRL_seal_slot
  let h := if h.rd .CX_SEALSLOT_state slot = 1 ∧ h.good ⟨.A_SEAL, 0, 0, slot⟩ = false then h.keyFailed 1 slot else h
  let keyed := h.rd .CX_SEALSLOT_state slot == 1 && !(h.on .CX_ERASE_busy && h.rd .CX_ERASE_kind == 1 && h.rd .CX_ERASE_slot == slot)
  let ordered := !h.lg.sealedAny || decide (h.val .LG_LAST_MINUTE < minute)
  let sealed := keyed && ordered
  let prev := if h.lg.sealedAny then leBytes 8 (h.val .LG_LAST_SEAL 0) ++ leBytes 8 (h.val .LG_LAST_SEAL 1)
    else List.replicate 16 0#8
  let tflags := ofBool tallyFault + 2 * ofBool (!bad.isEmpty) + 4 * ofBool (res != 0) + 8 * ofBool (!sealed)
  let head := h.folioHeader kind minute start fin post p hs he prev
  let shown := lines.filter (fun x => x.2.suspect || !x.2.good || x.2.pkts != 0 || x.2.bytes != 0 || x.2.subPkts != 0
    || x.2.subBytes != 0)
  let body := shown.flatMap (fun x => folioLine x.1 x.2)
  let tr := leBytes 4 shown.length ++ leBytes 1 tflags ++ List.replicate 3 0#8 ++ leBytes 8 (unsigned 64 res)
  let iv := leBytes 8 minute ++ leBytes 1 kind ++ leBytes 2 h.member ++ [0#8]
  let tag := if sealed then gcmTag (roundKeys (h.keyBytes .A_SEAL slot 0)) iv (head ++ body ++ tr) []
    else List.replicate 16 0#8
  let h := if tallyFault then h.raise 0xB02 8 else h
  let h := if res ≠ 0 then h.raise 0xB03 8 else h
  let h := if keyed then h else h.raise 0xB0A 8
  let h := if ordered then h else h.raise 0xB06 8
  let h := if sealed then
      let h := (h.setVal .LG_LAST_MINUTE minute).wr .CX_SEALSLOT_spent 1 slot
      let h := (h.setVal .LG_LAST_SEAL (leNat (tag.take 8)) 0).setVal .LG_LAST_SEAL (leNat (tag.drop 8)) 1
      (h.lgCount 0).setLg (fun l => { l with sealedAny := true })
    else h
  let seq := h.val .LG_SEQ
  let h := if tflags ≠ 0 ∨ h.lg.mismatch ∨ nth h.lg.lost p false = true then h.lgEvent 2 else h
  let h := h.setVal .LG_SEQ (seq + 1)
  let h := h.zeroBook p
  let h := h.setLg (fun l => { l with
    base := he, dh := setNth l.dh p 0, tallyA := setNth l.tallyA p tallyZero, tallyB := setNth l.tallyB p tallyZero
    late := setNth l.late p 0, lost := setNth l.lost p false, mismatch := false, bookOn := setNth l.bookOn p false
    lastPlaced := some minute })
  let h := h.sendDigest minute kind tflags seq tag prev
  (head ++ body ++ tr ++ tag, sealed, h)

/-- A folio placed in the ring, or overrun (R304, R305). -/
def Hw.placeFolio (h : Hw) (seq : Nat) (d : List Byte) (sealed : Bool) : Hw :=
  let k := h.rd .LG_RING_log2_slots
  let prod := h.rd .LG_RING_PROD_prod
  let used := (prod + 2 ^ 32 - h.rd .LG_RING_CONS_cons) % 2 ^ 32
  let h := h.wr .LG_RING_PROD_prod (prod + 1)
  if used < 2 ^ k then
    let a := h.rd .LG_RING_base + seq % 2 ^ k * 0x4000000
    let h := ((h.store a d).granules 3 a d.length).setLg (fun l => { l with
      ring := l.ring.filter (fun x => x.2.1 != a) ++ [(prod, a, d.length)] })
    if sealed then h.lgEvent 0 else h
  else (((h.wr .LG_STATUS_overrun 1).lgEvent 1).raise 0xB07 8).lgCount 2

/-- The book that closes walked and its folio placed; a book of no chain only ends its share of the held count. -/
def Hw.finishClose (h : Hw) : Hw :=
  match h.lg.closing with
  | none => h
  | some c =>
    let h := (h.setLg (fun l => { l with closing := none })).wr .LG_STATUS_walking 0
    if c.on then
      let seq := h.val .LG_SEQ
      let (d, sealed, h) := h.makeFolio 1 c.parity c.minute c.start c.fin 0
      h.placeFolio seq d sealed
    else h.setLg (fun l => { l with base := l.base + nth l.dh c.parity 0, dh := setNth l.dh c.parity 0 })

/-! ### The close of a minute (R289) -/

/-- SETTLE_END (R289): settling ends. A book of no chain closes at once. -/
def execSettleEnd (s : State) : Host.Outcome State Fault Refusal :=
  onHw (fun h =>
    match h.lg.closing with
    | none => h
    | some c =>
      if c.on then h.setLg (fun l => { l with closing := some { c with settling := false } }) else h.finishClose) s

/-- BOOK_CLOSE (R289): the flush completes and the walk begins. -/
def execBookClose (s : State) : Host.Outcome State Fault Refusal :=
  onHw (fun h =>
    match h.lg.closing with
    | some c => if c.settling then h else h.flushAccum.wr .LG_STATUS_walking 1
    | none => h) s

/-- FOLIO_PLACE (R304): the walk completes. -/
def execFolioPlace (s : State) : Host.Outcome State Fault Refusal :=
  onHw (fun h => if h.on .LG_STATUS_walking then h.finishClose else h) s

/-- The parity of the minute that begins at a mark (R288, R289): that of its number. Where TAI time was stepped to a minute of the
parity in force, the table of R289 stands while a chain's book is open: the other book opens (log entry 89). -/
def Hw.nextParity (h : Hw) : Nat :=
  let p := h.openParity
  if h.minute % 2 = p ∧ nth h.lg.bookOn p false = true then 1 - p else h.minute % 2

/-- The ledger's part of a minute mark (R288, R289, R291): the open book starts to settle and the other opens; a chain
starts or ends. Between chains a minute of the parity in force goes on in the same, uncounted book. -/
def Hw.ledgerMark (h : Hw) : Hw :=
  let h := h.finishClose
  let p := h.openParity
  let q := h.nextParity
  let starts := h.on .LG_CTRL_enable && !h.chain
  let ends := h.chain && !h.on .LG_CTRL_enable
  let c : Closing := ⟨p, nth h.lg.bookOn p false, true, h.lg.openStart / (60 * unitsPerSecond), h.lg.openStart, h.now⟩
  let h := (h.wr .LG_STATUS_open_parity q).setLg (fun l => { l with
    closing := if p = q then none else some c, openStart := h.now, lateRaised := false
    base := if p = q then l.base + nth l.dh p 0 else l.base
    dh := if p = q then setNth l.dh p 0 else l.dh })
  let h := if starts then
      ((h.wr .LG_STATUS_chain 1).setVal .LG_SEQ 0).setLg (fun l => { l with sealedAny := false })
    else if ends then ((h.wr .LG_STATUS_chain 0).wr .LG_CTRL_lg_arm 0).lgEvent 5
    else h
  if h.chain then
    let h := if starts then (h.zeroBook 0).zeroBook 1 else h
    h.setLg (fun l => { l with bookOn := setNth l.bookOn q true })
  else h

/-- A minute mark of the timebase (R478, R274, R288): TB_TIME has just reached a multiple of 60 s. After the cut of last-gasp marks
are no longer acted on (R309). -/
def Hw.minuteMark (h : Hw) : Hw :=
  if h.on .LG_STATUS_lastgasp then h
  else
  let h := ((h.setVal .TB_LASTMARK h.now).setBit .TB_EVENT_events 2).count .TB_CNT_count 0
  h.ledgerMark.sampleCalendars

/-! ### LG_CTRL (R291, R308) -/

/-- Whether a last-gasp port entry can serve (R308). -/
def Hw.lgPortOk (h : Hw) (k : Nat) : Bool :=
  let p := h.rd .LG_LGPORT_port k
  let m := h.laneMode p
  let n := h.rd .LG_LGPORT_tmpl_len k
  decide (p < 768) && decide (1 ≤ m) && decide (m ≤ 3) && decide (14 ≤ n) && decide (n ≤ 64)
    && inShared (h.rd .LG_LGPORT_tmpl_addr k) n

/-- Whether last-gasp can be armed (R308). -/
def Hw.canArm (h : Hw) : Bool :=
  let v := (List.range 4).filter (fun k => h.on .LG_LGPORT_valid k)
  h.chain && !v.isEmpty && v.all h.lgPortOk

/-- A write of LG_CTRL (R3, R291, R308): ignored whole where a field is out of range (R516); a refused enable or arm leaves its bit 0. -/
def Hw.lgCtrlWrite (h : Hw) (v : Nat) : Hw :=
  let settle := bits v 47 32
  let lg := bits v 31 24
  let wait := bits v 15 0
  if settle < 1100 ∨ 10000 < settle ∨ lg < 5 ∨ 200 < lg ∨ wait < 100 ∨ 30000 < wait then h
  else
  let h := (h.wr .LG_CTRL_twin_en (bits v 61 61)).wr .LG_CTRL_settle_us settle
  let h := (h.wr .LG_CTRL_lg_settle_us lg).wr .LG_CTRL_witness_wait_ms wait
  let h := if h.chain then h else h.wr .LG_CTRL_seal_slot (bits v 19 16)
  let s := h.rd .LG_CTRL_seal_slot
  let h := if !bit v 63 then h.wr .LG_CTRL_enable 0
    else if h.on .LG_CTRL_enable then h
    else if h.rd .LG_BOOK_BASE_base = 0 ∨ h.rd .LG_RING_base = 0 ∨ h.rd .CX_SEALSLOT_state s ≠ 1 ∨ h.on .CX_SEALSLOT_spent s = true
    then h.wr .LG_STATUS_enable_refused 1
    else h.wr .LG_CTRL_enable 1
  if !bit v 62 then h.wr .LG_CTRL_lg_arm 0
  else if h.on .LG_CTRL_lg_arm then h
  else if h.canArm then h.wr .LG_CTRL_lg_arm 1 else h.wr .LG_STATUS_arm_refused 1

/-- LG_ENABLE (R291). -/
def execLgEnable (v : Word) (s : State) : Host.Outcome State Fault Refusal := onHw (fun h => h.lgCtrlWrite v.toNat) s
/-- LG_DISABLE (R291). -/
def execLgDisable (v : Word) (s : State) : Host.Outcome State Fault Refusal := onHw (fun h => h.lgCtrlWrite v.toNat) s
/-- LG_ARM (R308). -/
def execLgArm (v : Word) (s : State) : Host.Outcome State Fault Refusal := onHw (fun h => h.lgCtrlWrite v.toNat) s

/-! ### The cut (R309) -/

/-- The cut of last-gasp: from here on updates are stamped as falling after it. Ports that are not designated transmit idles:
their frames in transmission are cut off. -/
def Hw.lastGaspCut (h : Hw) : Hw :=
  if h.on .LG_CTRL_lg_arm && !h.on .LG_STATUS_lastgasp then
    let keep := (List.range 4).filterMap (fun k => if h.on .LG_LGPORT_valid k then some (h.rd .LG_LGPORT_port k) else none)
    let h := (h.wr .LG_STATUS_lastgasp 1).setLg (fun l => { l with cut := h.now })
    h.over ((List.range 768).filter (fun p => h.configured p && !keep.contains p)) (fun h p => h.note (.cutOff p))
  else h

/-- LG_SETTLE_END (R309): the book that was closing is walked into its folio, then the open book into the LAST_GASP folio, which
ends the chain (R311). -/
def execLgSettleEnd (s : State) : Host.Outcome State Fault Refusal :=
  onHw (fun h =>
    if h.on .LG_STATUS_lastgasp && h.lg.gasp.isNone then
      let h := h.flushAccum.finishClose
      let p := h.openParity
      if nth h.lg.bookOn p false then
        let (d, _, h) := h.makeFolio 2 p (h.lg.openStart / (60 * unitsPerSecond)) h.lg.openStart h.lg.cut h.lg.postCut
        let h := h.setLg (fun l => { l with gasp := some d })
        ((h.wr .LG_STATUS_chain 0).wr .LG_CTRL_lg_arm 0).lgEvent 5
      else h
    else h) s

end Sys2Proof.Machine
end

