-- ==== Sys2Proof/Machine/Twin.lean ====
section
/-! DEFINITION. The twin pair: records sent and received, heartbeats, partner loss
(spec/20_shogen_fabric_and_twin_pair.md, R452 to R455). -/

namespace Sys2Proof.Machine

/-- TP_CNT advanced. -/
def Hw.tpCount (h : Hw) (c : Nat) (n : Nat := 1) : Hw := h.count .TP_CNT_count c 0 n

/-- Queued records sent in one TWIN_SYNC frame on the sync link (R453): up to 15 after an 8-byte sync header of zeros. -/
def Hw.twinSend (h : Hw) : Hw :=
  match h.syncLink with
  | none => h
  | some p =>
    if h.twin.queue.isEmpty || h.link p != 5 || h.silent p || h.on .LG_STATUS_lastgasp then h
    else
      let rs := h.twin.queue.take 15
      let h := { h with twin := { h.twin with queue := h.twin.queue.drop 15 } }
      (h.sendKind p 3 (some (h.rd .TP_CTRL_partner)) none (List.replicate 8 0#8 ++ rs.flatten)).tpCount 0 rs.length

/-- TWIN_RECORD_SEND (R453). -/
def execTwinRecordSend (s : State) : Host.Outcome State Fault Refusal := onTx Hw.twinSend s

/-- TWIN_HEARTBEAT (R453): a HEARTBEAT record is queued. -/
def execTwinHeartbeat (s : State) : Host.Outcome State Fault Refusal :=
  onHw (fun h =>
    if h.on .TP_CTRL_enable then
      h.twinQueue 1 0 0 (leBytes 8 (h.val .TP_HOSTWORD) ++ leBytes 1 (h.current + 2 * h.rd .ED_STATUS_other_state)
        ++ List.replicate 7 0#8 ++ leBytes 8 (h.val .GL_DEVICE_ID))
    else h) s

/-- The value that a station record of the partner maps to (R454). -/
def Hw.twinValue (h : Hw) (port data : Nat) : Nat :=
  if h.on .TP_CTRL_map_en then
    let e := bits (h.val .TP_PORTMAP (port / 2)) (32 * (port % 2) + 31) (32 * (port % 2))
    let x := if bit e 31 then e % 65536 else h.rd .TP_CTRL_via_partner
    data / 65536 * 65536 + x
  else data

/-- A request from the partner on its way to the clearing house. -/
def Hw.twinAsk (h : Hw) (r : ChReq) : Hw := { h with ch := { h.ch with coming := h.ch.coming ++ [(none, r)] } }

/-- What a record of each type does (R453, R454, R307). -/
def Hw.twinApply (h : Hw) (p : Nat) (r : List Byte) : Hw :=
  let sub := byteAt r 1
  let port := leNat (slice r 2 2) % 1024
  let key := leNat (slice r 8 8)
  let value := h.twinValue port (leNat (slice r 16 4))
  match byteAt r 0 with
  | 1 =>
    let h := h.setVal .TP_PEERWORD key
    let st := byteAt r 16
    (h.wr .TP_PEERSTAT_current (st % 2)).wr .TP_PEERSTAT_other_state (bits st 2 1)
  | 2 => (h.twinAsk (.learn sub key value p 0 h.current h.now true)).tpCount 4
  | 3 => (h.twinAsk (.learn sub key value p 0 h.current h.now true)).tpCount 4
  | 4 => (h.twinAsk (.learn sub key value p 0 h.current h.now true)).tpCount 4
  | 5 => h.twinAsk (.twinAged sub key value)
  | 6 => h.digestRx ⟨key, byteAt r 16, byteAt r 17 % 16, leNat (slice r 24 8), slice r 32 16, slice r 48 16,
      h.rd .TP_CTRL_partner⟩
  | _ => h

/-- A record received on a pair link (R453, R455). -/
def Hw.twinRx (h : Hw) (p : Nat) (r : List Byte) : Hw :=
  if !h.pairLink p then h
  else
    let h := h.tpCount 1
    let h := if h.on .TP_STATUS_partner_up then h else (h.wr .TP_STATUS_partner_up 1).setBit .TP_EVENT_events 0
    let seq := leNat (slice r 4 4)
    let ahead := (seq + 2 ^ 32 - h.rd .TP_PEERSTAT_rx_seq) % 2 ^ 32
    if 2 ^ 31 ≤ ahead then h.tpCount 3
    else
      let h := if ahead = 0 then h else ((h.wr .TP_STATUS_sync_gap 1).setBit .TP_EVENT_events 2).raise 0xC11 8
      (h.wr .TP_PEERSTAT_rx_seq (seq + 1)).twinApply p r

/-- TWIN_RECORD_RX (R453). -/
def execTwinRecordRx (p : Port) (rec : List Byte) (s : State) : Host.Outcome State Fault Refusal :=
  onHw (fun h => h.twinRx p (padTo 64 rec)) s

/-- The records of a TWIN_SYNC frame received on a port: `d` is the frame from its destination address, FCS included. -/
def Hw.twinFrame (h : Hw) (p : Nat) (d : List Byte) : Hw :=
  let recs := chunks 64 15 (slice d 38 (d.length - 42))
  h.over (recs.filter (fun r => r.length == 64 && byteAt r 0 != 0)) (fun h r => h.twinRx p r)

/-- TWIN_PARTNER_LOST (R455). -/
def execTwinPartnerLost (s : State) : Host.Outcome State Fault Refusal :=
  onHw (fun h =>
    if h.on .TP_STATUS_partner_up then ((h.wr .TP_STATUS_partner_up 0).setBit .TP_EVENT_events 1).raise 0xC10 8 else h) s

end Sys2Proof.Machine
end

