-- ==== Sys2Proof/Machine/Parser.lean ====
section
/-! DEFINITION. The parser: the walk of the parse graph, tenant derivation, the metadata, and the admission of received,
recirculated, clerk-injected and fabric frames (spec/04_parser.md, R89 to R108; R448 of 20). -/

namespace Sys2Proof.Machine

/-! ### The walk (R90 to R96, R99) -/

/-- The `w` bits of a frame that start at a bit offset, in network order (R91): a byte beyond the frame reads a free value. -/
def frameBits (d : List Byte) (at_ w : Nat) : Nat :=
  let n := (at_ % 8 + w + 7) / 8
  let b := (List.range n).map (fun i =>
    match d[at_ / 8 + i]? with
    | some x => x
    | none => Config.parserBeyond (at_ / 8 + i))
  bits (beNat b) (8 * n - 1 - at_ % 8) (8 * n - at_ % 8 - w)

/-- How a walk ends. -/
inductive WalkEnd
  | accept | reject | limit | conflict | check
  deriving DecidableEq, Repr

/-- A walk in progress or ended: how, the state it stands at or ended in, the offset, span end (none while it is not known),
headers consumed, whether the span is narrower than the frame, present bits, marks, HV, and the TC index. -/
structure Walk where
  fin : Option WalkEnd
  st : Nat
  off : Nat
  span : Option Nat
  hdrs : Nat
  pad : Bool
  present : Nat
  marks : List Nat
  hv : List Byte
  key : Option Nat
  deriving DecidableEq, Repr

/-- The header length of a state at the current header (R91). -/
def headerLen (d : List Byte) (o w1 : Nat) : Nat :=
  let f := frameBits d (8 * o + bits w1 52 42) (bits w1 41 37) &&& bits w1 33 18
  let base := bits w1 61 53
  match bits w1 63 62 with
  | 1 => base + f * 2 ^ bits w1 36 34
  | 2 => base + ((List.range 16).filter (f.testBit)).length * 2 ^ bits w1 36 34
  | _ => base

/-- One extraction into the HV (R93): bytes beyond the header are zero. -/
def extract (d : List Byte) (o len src n dst : Nat) (hv : List Byte) : List Byte :=
  if n = 0 then hv
  else overwrite hv dst ((List.range n).map (fun i => if src + i < len then nth d (o + src + i) 0#8 else 0#8))

/-- The word names of the two kinds of graph entry. -/
def paStateNames : List RegName := [.PA_STATE0, .PA_STATE1, .PA_STATE2, .PA_STATE3]
/-- The word names of a transition entry. -/
def paTransNames : List RegName := [.PA_TRANS0, .PA_TRANS1]

/-- A word of a parse state in a bank. -/
def Hw.paState (h : Hw) (n bank s w : Nat) : Nat := h.val (nth paStateNames w .PA_STATE0) s n bank
/-- The next state by the transition entries (R92): the first of the state that matches the key, or whether one fails its check. DESIGN
CHOICE, log entry 84: of the entries that the search passes, the lane reads those that are valid and name the state. -/
def Hw.transition (h : Hw) (n bank st key : Nat) : Except Unit (Option Nat) :=
  let ix := ((h.words.filter (fun e => e.1.name = .PA_TRANS1 ∧ e.1.sl = n ∧ e.1.bank = bank
      ∧ e.2.toNat.testBit 63 = true ∧ bits e.2.toNat 15 8 = st)).map (fun e => e.1.ix))
  match lowest (ix.filter (fun t =>
      let w := h.val .PA_TRANS0 t n bank
      !h.good ⟨.PA_TRANS0, n, bank, t⟩ || (key &&& bits w 31 0) == (bits w 63 32 &&& bits w 31 0))) with
  | none => .ok none
  | some t => if h.good ⟨.PA_TRANS0, n, bank, t⟩ then .ok (some (bits (h.val .PA_TRANS1 t n bank) 7 0)) else .error ()

/-- The TC index of a tenant key (R99): `ed` is the bank of the key maps, `i` the port's slice-local index. -/
def Hw.tenantKey (h : Hw) (n ed i k : Nat) (d : List Byte) (o : Nat) : Nat :=
  let w := h.val .PA_TKMAP k n ed
  let fw := bits w 28 24
  (bits w 63 44 + frameBits d (8 * o + bits w 42 32) fw + (if bit w 20 then i * 2 ^ fw else 0)) % 2 ^ 20

/-- One header: the limits and checks of R94 and R95, then its consumption (R91 to R93, R99). -/
def Hw.walkStep (h : Hw) (n ed copy i : Nat) (d : List Byte) (keys : Bool) (x : Walk) : Walk :=
  let s := x.st
  let bank := ed + 2 * copy
  if s = 254 then { x with fin := some .accept }
  else if s = 255 then { x with fin := some .reject }
  else if !h.good ⟨.PA_STATE0, n, bank, s⟩ then { x with fin := some .check }
  else
    let w0 := h.paState n bank s 0
    let w1 := h.paState n bank s 1
    let w2 := h.paState n bank s 2
    let w3 := h.paState n bank s 3
    let o := x.off
    let len := headerLen d o w1
    let tot := bit w2 63
    let t := frameBits d (8 * o + bits w2 62 52) (bits w2 51 47) + bits w2 46 38
    let beyond (v : Nat) : Bool := match x.span with | some e => decide (e < o + v) | none => false
    if 16 ≤ x.hdrs ∨ 512 < o + len then { x with fin := some .limit }
    else if len < bits w1 17 9 ∨ beyond len = true ∨ (tot ∧ (t < len ∨ beyond t = true)) then { x with fin := some .conflict }
    else
      let hv := extract d o len (bits w0 63 55) (bits w0 54 47) (bits w0 46 38) x.hv
      let hv := extract d o len (bits w0 37 29) (bits w0 28 21) (bits w0 20 12) hv
      let narrower := match x.span with | some e => decide (o + t < e) | none => false
      let y : Walk := { x with
        off := o + len, hdrs := x.hdrs + 1, hv := hv
        span := if tot then some (o + t) else x.span
        pad := x.pad || (tot && narrower)
        present := if bit w2 27 then x.present ||| 2 ^ bits w2 32 28 else x.present
        marks := if bit w2 24 then setNth x.marks (bits w2 26 25) (0x8000 + o) else x.marks
        key := if keys && bit w2 37 then some (h.tenantKey n ed i (bits w2 36 33) d o) else x.key }
      let dflt := bits w0 11 4
      if bits w3 52 47 = 0 then { y with st := dflt }
      else match h.transition n bank s (frameBits d (8 * o + bits w3 63 53) (bits w3 52 47)) with
        | .error _ => { y with fin := some .check }
        | .ok none => { y with st := dflt }
        | .ok (some z) => { y with st := z }

/-- The walk from its start to its end: at most 16 headers are consumed. -/
def Hw.walk (h : Hw) (n ed copy i : Nat) (d : List Byte) (keys : Bool) (x : Walk) : Nat → Walk
  | 0 => x
  | k + 1 => if x.fin.isSome then x else h.walk n ed copy i d keys (h.walkStep n ed copy i d keys x) k

/-- A walk about to begin: at a state, an offset, with headers already counted. -/
def Walk.start (st off hdrs : Nat) (span : Option Nat) : Walk :=
  ⟨none, st, off, span, hdrs, false, 0, [0, 0, 0, 0], List.replicate 512 0#8, none⟩

/-! ### Metadata (R105) -/

/-- What of the metadata does not come from the walk: tenant, tag, edition, carried, fabric, early, ingress port, timestamp,
frame length (0 when deferred), whether the length is deferred, TC index and context, the default TC index in use. -/
structure MdIn where
  tenant : Nat
  tag : Nat
  ed : Nat
  cls : Nat
  carried : Bool
  fabric : Bool
  early : Bool
  dflt : Bool
  inPort : Nat
  ts : Nat
  len : Nat
  tcIndex : Nat
  context : Nat
  deriving DecidableEq, Repr

/-- MD bytes 0 to 63 as the parser writes them (R105): the program area is zero. -/
def mdBytes (m : MdIn) (x : Walk) : List Byte :=
  let flags := 128 * ofBool m.carried + 64 * ofBool m.fabric + 32 * ofBool m.early + 16 * ofBool m.dflt
    + 8 * ofBool x.pad + 4 * ofBool m.early
  let fin := if x.fin = some .accept then 254 else x.st
  padTo 64 (beBytes 2 m.tenant ++ beBytes 2 m.tag ++ beBytes 1 (128 * m.ed + 32 * m.cls) ++ beBytes 1 flags
    ++ beBytes 2 m.inPort ++ beBytes 8 m.ts ++ beBytes 2 m.len ++ beBytes 2 (x.hdrs * 1024 + x.off)
    ++ beBytes 4 x.present ++ x.marks.flatMap (beBytes 2) ++ beBytes 3 m.tcIndex ++ beBytes 1 fin ++ beBytes 4 m.context)

/-! ### Admission (R89, R97, R98, R101 to R104) -/

/-- PA_CNT advanced. -/
def Hw.paCount (h : Hw) (n c : Nat) : Hw := h.count .PA_CNT_count c n

/-- Whether a pipeline of a slice is in service and accepts frames (R50, R52). -/
def Hw.serving (h : Hw) (n pipe : Nat) : Bool :=
  h.rd .FC_STRIP_strip n != pipe && !bit (h.rd .FC_STRIP_retired n) pipe
    && (nth h.fc.strip n StripSt.reset).phase != .draining pipe

/-- Whether a slice is on its way to QUIESCENT or not ACTIVE (R464). -/
def Hw.inactive (h : Hw) (n : Nat) : Bool :=
  h.slicePower n != 3 || (h.on .PW_SLICECMD_busy n && decide (h.rd .PW_SLICECMD_state n < 3))

/-- Whether the parser lane of a pipeline admits a frame now (R44, R143, R144, R309, R464). -/
def Hw.admits (h : Hw) (n pipe : Nat) : Bool :=
  h.serving n pipe && !h.inactive n && !h.sliceFrozen n && !h.on .LG_STATUS_lastgasp
    && decide (h.ingressHeld n pipe < 224)
    && decide ((h.ctxs.filter (fun x => x.sl == n && x.pipe == pipe && x.engine == 0 && x.ph == .ready)).length < 8)

/-- A frame dropped by the parser of a slice: counted and charged to the error sub-count of a tenant. -/
def Hw.paDrop (h : Hw) (n pipe reason tenant bytes : Nat) : Hw :=
  (h.dropped n reason tenant pipe).errCharge n tenant bytes

/-- A frame that the parser sends to a punt class in place of forwarding it (R97, R98). -/
def Hw.paPunt (h : Hw) (n cls tenant ed : Nat) (md bytes : List Byte) (wait : Option Nat) : Hw :=
  { h with punts := h.punts ++ [⟨cls, .parser, n, tenant, ed, md, bytes, wait⟩] }

/-- A frame taken by a parser lane, counted (R89, the PA_CNT table): every one, whether or not the parser then drops it. -/
def Hw.paAdmit (h : Hw) (n pipe : Nat) (early carried : Bool) : Hw :=
  let h := h.paCount n 0
  let h := if early then h.paCount n 5 else h
  let h := if carried then h.paCount n 6 else h
  h.pm n 0x10 1 none pipe

/-- A walked frame with its tenant: its outcome decided (R97, R98), or its context handed to I0. -/
def Hw.paOutcome (h : Hw) (n pipe : Nat) (m : MdIn) (w : Walk) (bytes : List Byte) (tail : Option Nat) (info : FrInfo) : Hw :=
  let len := if m.early then h.cfg .PT_CFG_max_len m.inPort else bytes.length
  let pol := h.val .PA_POLICY 0 n m.ed
  let cls := match w.fin with | some .limit => 1 | some .conflict => 2 | _ => if m.carried then 3 else 0
  let m := { m with cls := cls }
  let md := mdBytes m w
  let h := if cls = 1 then (h.paCount n 1).pm n 0x12 1 (some 1) pipe (some m.tenant)
    else if cls = 2 then (h.paCount n 2).pm n 0x12 1 (some 2) pipe (some m.tenant) else h
  let h := if info.recirc = 0 then h.edUp n m.ed else h
  let held := decide (0 < info.recirc)
  let drop (h : Hw) (reason tenant : Nat) : Hw :=
    let h := h.dropped n reason tenant pipe
    (if held then h.errHeld n tenant len else h.errCharge n tenant len).edDown n m.ed
  let wait := if m.early ∧ tail.isNone then some info.fid else none
  let go (h : Hw) : Hw :=
    let (id, h) := h.fresh
    let c : Ctx := ⟨id, n, pipe, 0, .ready, w.hv, md, md, List.replicate 16 0#32, List.replicate 4 false,
      List.replicate 16 false, List.replicate 8 0#128, [], 0, [], [], [], [], [], 0, ⟨false, false, false, none, [], [], false⟩,
      bytes, tail, { info with parsed := slice md 20 12 ++ slice md 36 4 }, none⟩
    { h with ctxs := h.ctxs ++ [c] }
  match w.fin with
  | some .reject => drop h 0x20 m.tenant
  | some .limit =>
    match bits pol 63 62 with
    | 0 => go h
    | 2 => h.paPunt n (bits pol 53 48) m.tenant m.ed md bytes wait
    | _ => drop h 0x21 m.tenant
  | some .conflict =>
    if bits pol 61 60 = 1 then h.paPunt n (bits pol 45 40) m.tenant m.ed md bytes wait else drop h 0x22 m.tenant
  | _ => go h

/-- The two walks of a frame (R100): extractor A's, and whether a graph entry failed its check. -/
def Hw.twoWalks (h : Hw) (n ed i : Nat) (d : List Byte) (keys : Bool) (x : Walk) : Walk × Walk :=
  (h.walk n ed 0 i d keys x 18, h.walk n ed 1 i d keys x 18)

/-- Whether a walk met a graph entry that fails its check. -/
def Walk.failed (x : Walk) : Bool := x.fin == some .check

/-- A frame that neither carries a tenant nor comes from the fabric (R99 to R102): walked, its tenant derived. -/
def Hw.admitReceived (h : Hw) (n pipe p : Nat) (x : RxFrame) (disagree : Bool) : Hw :=
  let i := portIx p
  let ed := h.current
  let h := h.paAdmit n pipe x.early false
  let len := x.bytes.length
  let first := Walk.start (bits (h.val .PA_PORTCFG i n ed) 63 56) 0 0 (if x.early then none else some (len - 4))
  let (a, b) := h.twoWalks n ed i x.bytes true first
  let charge := if x.early then h.cfg .PT_CFG_max_len p else len
  let dflt := bits (h.val .PA_PORTCFG i n ed) 19 0
  let ix := a.key.getD dflt
  if a.failed || b.failed then (h.paDrop n pipe 0x24 0 charge).raise 0x201 n pipe p
  else if disagree || b.key.getD dflt != ix || a.hdrs != b.hdrs then (h.paDrop n pipe 0x87 0 charge).raise 0x806 n pipe p
  else match h.tcRead n ed ix with
    | .error => (h.paDrop n pipe 0x44 0 charge).raise 0x410 n pipe
    | .miss => h.paDrop n pipe 0x23 0 charge
    | .found t c =>
      let h := h.maskUse n [tenantWord t]
      if h.tenantFrozen n t then h.paDrop n pipe 0x83 t charge
      else
        let m : MdIn := ⟨t, tagCheck t ed p x.ts, ed, 0, false, false, x.early, a.key.isNone, p, x.ts,
          if x.early then 0 else len, ix, c⟩
        h.paOutcome n pipe m a x.bytes x.tail ⟨x.fid, 0, false, false, false, false, x.early, x.secy, 0x3FF, [], none, p⟩

/-- A frame that carries its tenant and tag (R103): recirculated, or injected by a clerk. `disagree` says that the extractors do
(R100). -/
def Hw.admitCarried (h : Hw) (n pipe : Nat) (m : MdIn) (bytes : List Byte) (tail : Option Nat) (info : FrInfo)
    (disagree : Bool) : Hw :=
  let len := bytes.length
  let h := h.paAdmit n pipe m.early true
  let fail (h : Hw) (reason : Nat) (t : Nat) : Hw :=
    let h := h.dropped n reason t pipe
    if 0 < info.recirc then (h.errHeld n t len).edDown n m.ed else h.errCharge n t len
  let first := Walk.start (bits (h.val .PA_POLICY 0 n m.ed) 7 0) 0 0 (some (len - 4))
  let (a, b) := h.twoWalks n m.ed 0 bytes false first
  if a.failed || b.failed then (fail h 0x24 0).raise 0x201 n pipe
  else if disagree || a.hdrs != b.hdrs then (fail h 0x87 0).raise 0x806 n pipe
  else if h.tenantFrozen n m.tenant then fail (h.maskUse n [tenantWord m.tenant]) 0x83 m.tenant
  else h.paOutcome n pipe m a bytes tail info

/-- The 64-bit time whose low half is given, the latest not later than `now` (R448). -/
def latestTime (now low : Nat) : Nat :=
  let t := now / 2 ^ 32 * 2 ^ 32 + low
  if t ≤ now then t else t - 2 ^ 32

/-- A DATA frame of a fabric link (R104, R448, R221), its header checked. No TC entry is read for it, and its tc_context is 0 (R105;
log entry 83). -/
def Hw.admitFabric (h : Hw) (n pipe p : Nat) (x : RxFrame) (disagree : Bool) : Hw :=
  let d := x.bytes
  let hd := sfHeader (d.drop 14)
  let len := if x.early then h.cfg .PT_CFG_max_len hd.inPort else d.length
  let h := h.paAdmit n pipe x.early false
  if !h.linkLive p then h.dropped n 0xC2 0 pipe
  else if hd.src = h.member then (h.paDrop n pipe 0xC7 hd.tenant len).raise 0xC06 8
  else if h.bitState hd.edition = 0 ∨ h.bitState hd.edition = 2 then h.paDrop n pipe 0xCE hd.tenant len
  else
    let ed := hd.edition
    let ts := latestTime x.ts hd.time
    let i := portIx p
    let first := Walk.start (bits (h.val .PA_PORTCFG i n ed) 55 48) 30 2 (if x.early then none else some (d.length - 4))
    let (a, b) := h.twoWalks n ed i d false first
    if a.failed || b.failed then (h.paDrop n pipe 0x24 0 len).raise 0x201 n pipe p
    else if disagree || a.hdrs != b.hdrs then (h.paDrop n pipe 0x87 0 len).raise 0x806 n pipe p
    else if h.tenantFrozen n hd.tenant then (h.maskUse n [tenantWord hd.tenant]).paDrop n pipe 0x83 hd.tenant len
    else
      let m : MdIn := ⟨hd.tenant, tagCheck hd.tenant ed hd.inPort ts, ed, 0, false, true, x.early, false, hd.inPort, ts,
        if x.early then 0 else d.length, 0, 0⟩
      let h := h.paOutcome n pipe m a d x.tail ⟨x.fid, 0, hd.mirror, false, false, h.pairLink p, x.early, x.secy, 0x3FF, [], none, p⟩
      { h with ctxs := h.ctxs.map (fun c => if c.info.fid = x.fid ∧ c.engine = 0 ∧ c.eg.isNone then
          { c with md := mdSet c.md 42 1 (16 * hd.queue + 4 * hd.colour) } else c) }

/-- The fixed Shogen logic of a parser lane (R104, R439, R448): `x` is a frame of EtherType 0x88B5 on a fabric port. -/
def Hw.admitShogen (h : Hw) (n pipe p : Nat) (x : RxFrame) (disagree : Bool) : Hw :=
  let d := x.bytes
  let kind := byteAt d 14 % 16
  let punt (cls : Nat) : Hw :=
    { h with punts := h.punts ++ [⟨cls, .control, n, 0, h.current, List.replicate 64 0#8, d, none⟩] }
  if kind = 1 then h.helloRx p d
  else if !h.sfPasses p d then h.sfBadCheck p
  else if byteAt d 14 / 16 ≠ 1 ∨ 5 < kind then h.dropped n 0xC1 0 pipe
  else match kind with
    | 2 => (punt (h.rd .SF_CTRL_reach_class)).sfCount 10
    | 3 => h.twinFrame p d
    | 4 =>
      let h := punt (h.rd .TP_CTRL_lg_class)
      if h.pairLink p && leNat (slice d 42 4) == 0 then h.gaspWitness (fieldAt d 38 4) (slice d (46 + 80) 16) else h
    | 5 => h.drainMarker p (sfHeader (d.drop 14)).edition
    | _ => h.admitFabric n pipe p x disagree

/-- Why a slice discards every frame that it receives on a port, if it does (R44, R464): SLICE_INACTIVE or, under FREEZE_SLICE,
SLICE_FROZEN; else the lowest of the freezes in force (R513). -/
def Hw.rxStop (h : Hw) (p : Nat) : Option Nat :=
  let n := portSl p
  if h.inactive n then some (if h.sliceFrozen n then 0x85 else 0x11)
  else if h.portFrozen p then some 0x84
  else if h.sliceFrozen n then some 0x85
  else if h.held then some 0x86
  else none

/-- A received frame discarded for `rxStop` (R42, R464): counted; a freeze is charged to tenant 0, whose tenant is not known. -/
def Hw.rxDrop (h : Hw) (p reason bytes : Nat) (pipe : Nat := 15) : Hw :=
  let n := portSl p
  if reason = 0x11 then (h.ptCount p 26).pmDrop n 0x11 pipe (some 0) else h.paDrop n pipe reason 0 bytes

/-- Whether a received frame is a Shogen frame of a kind other than DATA. -/
def Hw.controlFrame (h : Hw) (p : Nat) (x : RxFrame) : Bool :=
  h.fabricPort p && etherType x.bytes == 0x88B5 && byteAt x.bytes 14 % 16 != 0

/-- The frame at the head of a port's receive FIFO admitted by a parser lane (R77, R89, R101, R104). Of an early-released frame that a
failing FIFO word has ended nothing more is received. A control frame of the
fabric that was released early waits for its tail status, and goes no further with a bad one. -/
def Hw.admitPort (h : Hw) (n pipe i : Nat) (flt : AdmitFault) : Hw :=
  let p := 96 * n + i
  let s := h.port p
  match s.fifo with
  | [] => h
  | x :: r =>
    let took (h : Hw) : Hw := (h.setPort p { s with fifo := r }).maskUse n [portWord p, sliceWord]
    let ended (h : Hw) : Hw :=
      if x.tail.isNone && s.cur.any (fun c => c.1 == x.fid) then h.setPort p { s with fifo := r, cur := none } else h
    match h.rxStop p with
    | some reason => (took h).rxDrop p reason (if x.early then h.cfg .PT_CFG_max_len p else x.bytes.length) pipe
    | none =>
      if !h.admits n pipe || (h.controlFrame p x && x.early && x.tail.isNone) then h
      else
        let h := (took h).pm n 0x01
        if flt = .fifoWord then (ended (h.dropped n 0x0F 0 pipe p)).raise 0x120 n pipe p
        else if h.controlFrame p x && x.tail.isSome && x.tail != some 0 then h
        else if h.fabricPort p && etherType x.bytes == 0x88B5 then h.admitShogen n pipe p x (flt == .extractors)
        else h.admitReceived n pipe p x (flt == .extractors)

/-- The oldest frame of the recirculation path of a slice readmitted (R103, R146, R464). No TC entry is read for it, and its tc_context
is 0 (R105; log entry 83). -/
def Hw.admitRecirc (h : Hw) (n pipe : Nat) (disagree : Bool) : Hw :=
  let mine (r : RecFrame) : Bool := r.sl == n
  match h.recirc.find? mine with
  | none => h
  | some r =>
    let gone (reason : Nat) : Hw :=
      let h := ({ h with recirc := delFirst mine h.recirc } : Hw).dropped n reason (mdTenant r.md) pipe
      (h.errHeld n (mdTenant r.md) r.bytes.length).edDown n (mdEdition r.md)
    if h.sliceFrozen n then gone 0x85
    else if h.inactive n then gone 0x11
    else if h.held then gone 0x86
    else if !h.admits n pipe then h
    else
      let h := { h with recirc := delFirst mine h.recirc }
      let md := r.md
      let m : MdIn := ⟨mdTenant md, mdTag md, mdEdition md, 0, true, mdFlag md 6, false, false, mdInPort md, mdTime md,
        r.bytes.length, 0, 0⟩
      h.admitCarried n pipe m r.bytes r.tail r.info disagree

/-- PARSER_ADMIT (R89). -/
def execParserAdmit (n : Slice) (pipe : Fin 9) (src : AdmitSrc) (flt : AdmitFault) (s : State) :
    Host.Outcome State Fault Refusal :=
  onTx (fun h =>
    match src with
    | .port i => h.admitPort n pipe i flt
    | .recirc => h.admitRecirc n pipe (flt == .extractors)) s

/-! ### Loading the graph (R106, R107) -/

/-- Whether a state of a bank consumes its tenant key through a key map (R99). -/
def Hw.mapNamed (h : Hw) (n bank k : Nat) : Bool :=
  h.words.any (fun e => e.1.name = .PA_STATE2 ∧ e.1.sl = n ∧ e.1.bank = bank ∧ bit e.2.toNat 37 = true
    ∧ bits e.2.toNat 36 33 = k)

/-- Why a banked PA write is refused (R106): whether a value is out of range. A field that names a state to visit (a start, the state
of a transition entry) holds 0 to 253 (R106). `off` is the offset in the block. -/
def Hw.paBadWord (h : Hw) (n bank off v : Nat) : Bool :=
  let extBad (src n dst : Nat) : Bool := decide (128 < n) || decide (512 < dst + n) || decide (512 < src)
  if off = 0x18 then bits v 63 62 == 3 || decide (1 < bits v 61 60) || decide (253 < bits v 7 0)
  else if 0x1000 ≤ off ∧ off < 0x1800 then decide (253 < bits v 63 56) || decide (253 < bits v 55 48)
  else if 0x1800 ≤ off ∧ off < 0x2000 then
    decide (24 < bits v 28 24) || (bits v 28 24 == 0 && h.mapNamed n bank ((off - 0x1800) / 8))
  else if 0x2000 ≤ off ∧ off < 0x4000 then
    match off / 8 % 4 with
    | 0 => extBad 0 (bits v 54 47) (bits v 46 38) || extBad 0 (bits v 28 21) (bits v 20 12)
    | 1 => bits v 63 62 == 3 || decide (16 < bits v 41 37) || (bits v 63 62 != 0 && bits v 41 37 == 0) || decide (3 < bits v 36 34)
    | 2 => decide (16 < bits v 51 47) || (bit v 63 && bits v 51 47 == 0)
        || (bit v 37 && bits (h.val .PA_TKMAP (bits v 36 33) n bank) 28 24 == 0)
    | _ => decide (32 < bits v 52 47)
  else if off / 8 % 2 = 1 then decide (253 < bits v 15 8)
  else false

/-- A banked PA write (R106): to the next bank, both extractors' copies, or refused. -/
def Hw.paWrite (h : Hw) (n off v : Nat) : Hw :=
  let (bank, busy) := h.writeBank n
  let refuse := h.wr .PA_STATUS_write_refused 1 0 n
  let put (name : RegName) (ix : Nat) : Hw := h.setVal name (v &&& (regRow name).rw) ix n bank
  let both (names : List RegName) (w ix : Nat) : Hw :=
    let name := nth names w .PA_STATE0
    let first := nth names 0 .PA_STATE0
    let x := v &&& (regRow name).rw
    let h := (h.setVal name x ix n bank).setVal name x ix n (bank + 2)
    (h.mark ⟨first, n, bank, ix⟩ false).mark ⟨first, n, bank + 2, ix⟩ false
  if busy || h.on .PA_BANKCOPY_busy 0 n then refuse
  else if h.paBadWord n bank off v then refuse.wr .PA_STATUS_refused_index (off / 8) 0 n
  else if off = 0x18 then put .PA_POLICY 0
  else if 0x1000 ≤ off ∧ off < 0x1300 then put .PA_PORTCFG ((off - 0x1000) / 8)
  else if 0x1800 ≤ off ∧ off < 0x1880 then put .PA_TKMAP ((off - 0x1800) / 8)
  else if 0x2000 ≤ off ∧ off < 0x3FC0 then both paStateNames (off / 8 % 4) ((off - 0x2000) / 32)
  else if 0x4000 ≤ off ∧ off < 0x8000 then both paTransNames (off / 8 % 2) ((off - 0x4000) / 16)
  else h

/-- PA_BANKED_WRITE (R106): `off` is the offset in the PA block. -/
def execPaBankedWrite (n : Slice) (off : BitVec 20) (v : Word) (s : State) : Host.Outcome State Fault Refusal :=
  onHw (fun h => h.paWrite n (off.toNat / 8 * 8) v.toNat) s

/-- The banked registers of the parser. -/
def paBanked : List RegName := [.PA_POLICY, .PA_PORTCFG, .PA_TKMAP] ++ paStateNames ++ paTransNames

/-- The words of a slice's banked registers copied from one bank to another, copy for copy, with their marks. -/
def Hw.copyBank (h : Hw) (names : List RegName) (n src dst : Nat) : Hw :=
  let sel (r : Reg) : Bool := names.contains r.name && r.sl == n && decide (r.bank < 4) && r.bank % 2 == dst
  let from_ (r : Reg) : Bool := names.contains r.name && r.sl == n && decide (r.bank < 4) && r.bank % 2 == src
  let move (r : Reg) : Reg := { r with bank := r.bank - src + dst }
  let old := (h.words.map (·.1)).filter sel
  let h := h.over old (fun h r => h.setReg r (regReset r))
  let h := { h with bad := h.bad.filter (fun r => !sel r) }
  let h := h.over (h.words.filter (fun e => from_ e.1)) (fun h e => h.setReg (move e.1) e.2)
  h.over (h.bad.filter from_) (fun h r => h.mark (move r) true)

/-- PA_BANKCOPY (R106): the copy of the current bank begins, or is refused. DESIGN CHOICE, log entry 85: a refusal sets write_refused, as
a refused write does, and leaves refused_index. -/
def Hw.paBankcopy (h : Hw) (n : Nat) : Hw :=
  let busy := h.bankBusy && h.slicePower n != 1
  if busy || h.on .PA_BANKCOPY_busy 0 n then h.wr .PA_STATUS_write_refused 1 0 n else h.wr .PA_BANKCOPY_busy 1 0 n

/-- PA_BANKCOPY: the copy of the PA banks begun or refused. -/
def execPaBankcopy (n : Slice) (s : State) : Host.Outcome State Fault Refusal :=
  onHw (fun h => h.paBankcopy n) s

/-- PA_BANKCOPY_DONE (R106). -/
def execPaBankcopyDone (n : Slice) (s : State) : Host.Outcome State Fault Refusal :=
  onHw (fun h =>
    if h.on .PA_BANKCOPY_busy 0 n then
      ((h.copyBank paBanked n h.current h.next).wr .PA_BANKCOPY_busy 0 0 n).wr .PA_STATUS_copy_done 1 0 n
    else h) s

/-- The graph entries of a slice that are marked as failing, or whose copies may differ. -/
def Hw.paSuspects (h : Hw) (n : Nat) : List (RegName × Nat × Nat) :=
  ((h.bad.filter (fun r => (r.name == .PA_STATE0 || r.name == .PA_TRANS0) && r.sl == n)).map
    (fun r => (r.name, r.bank % 2, r.ix))).eraseDups

/-- One graph entry scrubbed (R107): a failing copy rewritten from the other. -/
def Hw.paScrubOne (h : Hw) (n : Nat) (e : RegName × Nat × Nat) : Hw :=
  let (name, ed, ix) := e
  let words := if name = .PA_STATE0 then paStateNames else paTransNames
  let fix (h : Hw) (src dst : Nat) : Hw :=
    let h := h.over words (fun h w => h.setVal w (h.val w ix n src) ix n dst)
    (h.mark ⟨name, n, dst, ix⟩ false).raise 0x202 n
  let a := h.good ⟨name, n, ed, ix⟩
  let b := h.good ⟨name, n, ed + 2, ix⟩
  if a && !b then fix h ed (ed + 2) else if b && !a then fix h (ed + 2) ed else h

/-- The graph entries whose copies both pass and differ. -/
def Hw.paDiffer (h : Hw) (n : Nat) : List (RegName × Nat × Nat) :=
  let one (names : List RegName) : List (RegName × Nat × Nat) :=
    let name := nth names 0 .PA_STATE0
    let ix := ((h.words.filter (fun e => names.contains e.1.name && e.1.sl == n)).map
      (fun e => (name, e.1.bank % 2, e.1.ix))).eraseDups
    ix.filter (fun e => h.good ⟨name, n, e.2.1, e.2.2⟩ && h.good ⟨name, n, e.2.1 + 2, e.2.2⟩
      && names.any (fun w => h.val w e.2.2 n e.2.1 != h.val w e.2.2 n (e.2.1 + 2)))
  one paStateNames ++ one paTransNames

/-- PA_SCRUB (R107). -/
def execPaScrub (n : Slice) (s : State) : Host.Outcome State Fault Refusal :=
  onHw (fun h =>
    let h := h.over (h.paSuspects n) (fun h e => h.paScrubOne n e)
    h.over (h.paDiffer n) (fun h e =>
      ((h.mark ⟨e.1, n, e.2.1, e.2.2⟩ true).mark ⟨e.1, n, e.2.1 + 2, e.2.2⟩ true).raise 0x202 n)) s

end Sys2Proof.Machine
end

