-- ==== Sys2Proof/Machine/Fix.lean ====
section
/-! DEFINITION. The ingress fix and the fix of E3: enforced verdicts, destinations, copies, ingress charges, the splice and the
recirculated frame (spec/05_odkacel_instruction_set.md, R130 to R132; spec/06_nanostore_and_sequencing.md, R146 to R149,
R152; R173 of 07; R242, R243 of 10; R272 of 11; R285, R286, R297 of 12; R446, R449, R450 of 20; R464 and R480 of 21). -/

namespace Sys2Proof.Machine

/-! ### A context's frame -/

/-- Whether a frame has not yet been held in the ledger's accounting: it is on its first pass (R297). -/
def Ctx.fresh (x : Ctx) : Bool := x.eg.isNone && x.info.recirc == 0

/-- The frame whose tail an early-released frame still waits for. -/
def Ctx.wait (x : Ctx) : Option Nat := if x.info.early && x.tail.isNone then some x.info.fid else none

/-- Whether the tail status is known to be bad (R78). -/
def Ctx.bad (x : Ctx) : Bool := match x.tail with | some r => r != 0 | none => false

/-- The bound length of MD (R233): the frame length, or max_len of the ingress port while it is deferred. -/
def Hw.boundOf (h : Hw) (md : List Byte) : Nat :=
  if mdLen md = 0 then h.cfg .PT_CFG_max_len (mdInPort md) else mdLen md
/-- The stored length of an egress copy when it is written, otherwise its bound length (R285). -/
def Ctx.storedLen (x : Ctx) (e : EgCtx) : Nat := if e.whole then x.bytes.length else extBound e.ext

/-- The bytes that an ingress-fix charge carries (R285, R286). -/
def Ctx.chargeLen (x : Ctx) : Nat := if mdFlag x.pmd 2 then 512 else mdLen x.pmd

/-- Remainders of a frame with a deferred length noted until its tail arrives, or made at once when it has (R271, R286). -/
def Hw.remainder (h : Hw) (x : Ctx) (lines : List (Nat × Bool)) (pols : List (Nat × Nat)) : Hw :=
  if !mdFlag x.pmd 2 then h
  else
    let d : Deferred := ⟨x.info.fid, x.sl, mdTenant x.pmd, lines, h.openParity, h.on .LG_STATUS_lastgasp, pols⟩
    let h := { h with deferred := h.deferred ++ [d] }
    if x.tail.isSome then h.settleDeferred x.info.fid x.bytes.length else h

/-- The remainder of a meter's charge. -/
def Hw.polRemainder (h : Hw) (x : Ctx) (i c : Nat) : Hw := h.remainder x [] [(i, c)]

/-- A frame dropped in a stage: a frame that the ledger does not hold yet is charged as such (R285, R297). The lookups that it has
launched still land (R124). -/
def Hw.dropCtx (h : Hw) (x : Ctx) (reason : Nat) : Hw :=
  let t := mdTenant x.pmd
  let h := if x.launches.any (·.done.isNone) then { h with astray := h.astray ++ [x] } else h
  match x.eg with
  | some e => h.dropEgress x reason (x.storedLen e)
  | none =>
    let h := (h.delCtx x.id).dropped x.sl reason t x.pipe
    let b := h.boundOf x.pmd
    (if x.fresh then h.errCharge x.sl t b else h.errHeld x.sl t b).edDown x.sl (mdEdition x.pmd)

/-! ### The ingress fix -/

/-- A frame dropped at its ingress fix, charged to a line or to the error sub-count (R173, R272, R285). -/
def Hw.dropFix (h : Hw) (x : Ctx) (reason : Nat) (line : Option Nat := none) : Hw :=
  let t := mdTenant x.pmd
  let h := h.dropped x.sl reason t x.pipe
  let c : Charge := match line with | some l => charge t l x.chargeLen | none => chargeErr t x.chargeLen
  let h := if x.fresh then h.ledger x.sl [c] else h.ledger x.sl [c] (-1) 0 1
  (h.remainder x [(c.line, c.err)] []).edDown x.sl (mdEdition x.pmd)

/-- The charges of a frame that its ingress fix does not drop (R128, R152, R285, R287, R297). -/
def Hw.acceptFix (h : Hw) (x : Ctx) : Hw :=
  let t := mdTenant x.pmd
  let len := x.chargeLen
  let progs := x.carried.map (fun l => charge t l len)
  let lines := x.carried.map (fun l => (l, false))
  if !x.fresh then
    (if progs.isEmpty then h else (h.ledger x.sl progs).remainder x lines [])
  else
    let sec : List Charge := match x.info.secy with
      | some n => [charge t 9 (if mdFlag x.pmd 2 then 512 else n)]
      | none => []
    let secLines := sec.map (fun c => (c.line, false))
    if mdFlag x.pmd 6 || x.info.clerk then (h.ledger x.sl (sec ++ progs) 1 1).remainder x (secLines ++ lines) []
    else (h.ledger x.sl ([charge t 0 len] ++ sec ++ progs) 1).remainder x ([(0, false)] ++ secLines ++ lines) []

/-- Why frames of a slice for slice `d` are dropped at their ingress fix (R44, R464): 0 for none. -/
def Hw.sliceStop (h : Hw) (n d : Nat) : Nat := if h.sliceFrozenAt n d then 0x85 else if h.inactive d then 0x11 else 0

/-- The extension of a frame (R233). -/
def withBound (md : List Byte) (bound : Nat) : List Byte := mdSet md 46 2 bound

/-- A frame or copy handed to the cell former; `ctx` says whether it holds the frame's ingress context (R144). -/
def Hw.form (h : Hw) (x : Ctx) (dst : Nat) (ext bytes : List Byte) (info : FrInfo) (ctx : Bool) : Hw :=
  let (id, h) := h.fresh
  { h with formers := h.formers ++
      [⟨id, x.sl, x.pipe, dst, ext, bytes, x.tail, info, false, 0, if ctx then some x.id else none⟩] }

/-- A copy for one slice alone dropped after its creation (R464). -/
def Hw.dropCopy (h : Hw) (x : Ctx) (reason tenant bytes : Nat) : Hw :=
  ((h.dropped x.sl reason tenant x.pipe).errHeld x.sl tenant bytes).edDown x.sl (mdEdition x.pmd)

/-- The copies of a replication group, one for each of its slices (R242, R464). They hold the frame's ingress context together, until the
last cell of the last of them has entered the crossbar (R144). -/
def Hw.formGroup (h : Hw) (x : Ctx) (md : List Byte) : Hw :=
  let ds := slicesOf (h.rd .XB_GROUP_slices (mdDest md))
  let k := ds.length
  let ed := mdEdition x.pmd
  let b := h.boundOf x.pmd
  let h := if k = 0 then (h.ledger x.sl [] (-1) 0 1).edDown x.sl ed
    else if 1 < k then (h.edUp x.sl ed (k - 1)).ledger x.sl [] (k - 1) (k - 1) else h
  h.over ds (fun h d =>
    let r := h.sliceStop x.sl d
    if r ≠ 0 then h.dropCopy x r (mdTenant x.pmd) b
    else h.form x d (withBound md b) x.bytes { x.info with replica := true } true)

/-- The bytes of a mirror copy (R243): truncated with a new FCS, whole, or, while the length is not known, as far as they are the
original's. -/
def mirrorBytes (trunc : Nat) (known : Bool) (d : List Byte) : List Byte :=
  if trunc = 0 then d
  else if known then (if trunc < d.length then d.take (trunc - 4) ++ fcsOf (d.take (trunc - 4)) else d)
  else d.take (trunc - 4)

/-- A mirror copy for a session (R61, R243, R285, R297, R451, R464). -/
def Hw.mirrorCopy (h : Hw) (x : Ctx) (md : List Byte) (s : Nat) : Hw :=
  if !h.on .XB_MIRROR_valid s || decide (768 ≤ h.rd .XB_MIRROR_port s) then h.bump .XB_CNT 12
  else
    let p := h.rd .XB_MIRROR_port s
    let t := h.rd .XB_MIRROR_tenant s
    let trunc := h.rd .XB_MIRROR_trunc_len s
    let known := x.tail.isSome
    let b := if trunc = 0 then h.boundOf x.pmd else min (h.boundOf x.pmd) trunc
    let d := mirrorBytes trunc known x.bytes
    let deferred := !known && decide (trunc = 0 ∨ 512 < trunc)
    let len := if known then d.length else if deferred then 512 else trunc
    let h := (h.ledger x.sl [charge (mdTenant x.pmd) 6 len] 1 1).edUp x.sl (mdEdition x.pmd)
    let h := if deferred then h.remainder x [(6, false)] [] else h
    let ext := mdSet (mdSet md 0 2 t) 2 2 (tagCheck t (mdEdition x.pmd) (mdInPort x.pmd) (mdTime x.pmd))
    let far := h.fabricPort p && h.on .SF_MIRDEST_valid s
    let ext := mdSet ext 40 2 (if far then 0x2000 + h.rd .SF_MIRDEST_member s else 0x1000 + p)
    let ext := mdSet ext 42 1 (16 * h.rd .XB_MIRROR_queue s + byteAt md 42 % 16)
    let r := h.sliceStop x.sl (portSl p)
    if r ≠ 0 then h.dropCopy x r t b
    else h.form x (portSl p) (withBound ext b) d
      { x.info with mirror := true, hop := p, charged := some (requester md x.info) } false

/-- An arrival sent to the punt gate (R131, R375). -/
def Hw.punt (h : Hw) (x : Ctx) (md : List Byte) (kind : PuntKind) (cls : Nat) : Hw :=
  if x.bad then h
  else { h with punts := h.punts ++ [⟨cls, kind, x.sl, mdTenant x.pmd, mdEdition x.pmd, md, x.bytes, x.wait⟩] }

/-- The punt and mirror copies of a frame, whatever its outcome (R131, R173, R243, R449): `own` is the class that the frame itself
goes to. -/
def Hw.copiesOf (h : Hw) (x : Ctx) (md : List Byte) (own : Option Nat) : Hw :=
  let v := x.verdicts
  let punts := if bit (byteAt md 45) 7 then addOnce v.punts (byteAt md 45 % 64) else v.punts
  let mirrors := if bit (byteAt md 44) 7 then addOnce v.mirrors (byteAt md 44 % 32) else v.mirrors
  let h := h.over (punts.filter (fun c => own != some c)) (fun h c => h.punt x md .copy c)
  if x.info.mirror then h.sfCount 9 mirrors.length else h.over mirrors (fun h s => h.mirrorCopy x md s)

/-- The metadata on which the device acts at an ingress fix: the forward launched last replaces the destination (R173), and that of
a transit frame is its destination member (R449). Answers whether an enforced forward was applied. -/
def Hw.destination (h : Hw) (x : Ctx) : List Byte × Bool :=
  let hd := sfHeader (x.bytes.drop 14)
  if mdFlag x.pmd 6 && x.info.recirc == 0 && hd.dst != h.member then (mdSet x.md 40 2 (0x2000 + hd.dst), false)
  else match x.verdicts.fwd with
    | some (_, kind, dest, queue) =>
      let md := mdSet x.md 40 2 (4096 * kind + dest)
      (match queue with | some q => mdSet md 42 1 (16 * q + byteAt md 42 % 16) | none => md, true)
    | none => (x.md, false)

/-- Whether a frame is a transit frame (R449) that has come too far. -/
def Hw.tooFar (h : Hw) (x : Ctx) : Bool :=
  let hd := sfHeader (x.bytes.drop 14)
  mdFlag x.pmd 6 && x.info.recirc == 0 && hd.dst != h.member && decide (h.rd .SF_CTRL_hop_max ≤ hd.hop)

/-- The frame sent to one destination slice, or dropped there (R44, R464). -/
def Hw.sendTo (h : Hw) (x : Ctx) (dst : Nat) (md : List Byte) (info : FrInfo) : Hw :=
  let r := h.sliceStop x.sl dst
  if r ≠ 0 then h.dropFix x r
  else (h.acceptFix x).form x dst (withBound md (h.boundOf x.pmd)) x.bytes info true

/-- The destination acted upon (R131, R146, R147, R242, R446, R449). -/
def Hw.forward (h : Hw) (x : Ctx) (md : List Byte) : Hw :=
  match mdKind md with
  | 0 => h.dropFix x 0x30
  | 1 =>
    let p := mdDest md % 1024
    if 768 ≤ p then h.dropFix x 0x0B else h.sendTo x (portSl p) md x.info
  | 2 =>
    let far := h.tooFar x
    let h := if far then h.raise 0xC04 x.sl x.pipe else h
    match h.reach x.sl (mdDest md) (nth x.g 14 0#32).toNat with
    | (.error r, h) => h.dropFix x r
    | (.ok p, h) =>
      if far then h.dropFix x 0xC5
      else if 768 ≤ p then h.dropFix x 0x0B
      else h.sendTo x (portSl p) md { x.info with hop := p }
  | 3 => if h.on .XB_GROUP_valid (mdDest md) then (h.acceptFix x).formGroup x md else h.dropFix x 0x67
  | 4 =>
    let h := h.acceptFix x
    if x.bad then
      ((h.dropped x.sl (x.tail.getD 0) (mdTenant x.pmd) x.pipe).errHeld x.sl (mdTenant x.pmd) x.bytes.length).edDown x.sl
        (mdEdition x.pmd)
    else h.punt x md .frame (mdDest md % 64)
  | 5 =>
    let limit := decide (h.rd .SE_CTRL_recirc_max 0 x.sl ≤ x.info.recirc)
    let r := h.sliceStop x.sl x.sl
    if r = 0x11 then h.dropFix x r
    else if limit then h.dropFix x 0x35
    else h.sendTo x x.sl md { x.info with recirc := x.info.recirc + 1 }
  | 6 => h.dropFix x (if 0xE0 ≤ byteAt md 43 then byteAt md 43 else 0x32)
  | _ => h.dropFix x 0x31

/-- The first frame to complete its ingress fix in a contributing pipeline once a counter of the slice waits for its sample (R435). -/
def Hw.sampleFix (h : Hw) (x : Ctx) : Hw :=
  { h with armed := h.armed.map (fun a =>
      if !a.clerk && a.unit == x.sl && a.found.isNone && h.rd .FC_STRIP_strip x.sl != x.pipe
          && bit (h.rd .PM_SEL_pipe_mask a.ctr x.sl) x.pipe then
        { a with found := some [mdTenant x.pmd, mdInPort x.pmd, x.pipe, mdEdition x.pmd, mdTime x.pmd] }
      else a) }

/-- The ingress fix (R131, R152, R173, R272). -/
def Hw.ingressFix (h : Hw) (x : Ctx) : Hw :=
  let h := ((h.delCtx x.id).sampleFix x).maskUse x.sl [sliceWord]
  let v := x.verdicts
  let (md, fwd) := h.destination x
  if v.deny || v.denyMiss then
    ((h.count .GC_CNT_count (if v.deny then 3 else 4) x.sl).dropFix x 0x41 (some 4)).copiesOf x x.md none
  else if v.drop then (h.dropFix x 0x40).copiesOf x x.md none
  else if v.police then (h.dropFix x 0x6B (some 2)).copiesOf x x.md none
  else
    let h := if fwd then h.count .CL_CNT_count 4 x.sl else h
    (h.forward x md).copiesOf x md (if mdKind md = 4 then some (mdDest md % 64) else none)

/-! ### The fix of E3 (R132, R146, R149, R450, R480) -/

/-- The first HV byte emitted (R149). -/
def spliceStart (g15 : Nat) : Nat := if bit g15 9 then g15 % 512 else 128

/-- The head of a frame at E0 (R148). -/
def Ctx.headLen (x : Ctx) : Nat := if mdLen x.pmd = 0 then 384 else min (x.bytes.length - 4) 384

/-- The outgoing frame without FCS, as far as its bytes have arrived (R149); a frame that is not whole may end in bytes of its
FCS. -/
def Ctx.splice (x : Ctx) (whole : Bool) : List Byte :=
  let s := spliceStart (nth x.g 15 0#32).toNat
  let k := x.headLen
  let head := slice x.hv s (128 + k - s)
  if whole then
    let d := head ++ (x.bytes.take (x.bytes.length - 4)).drop k
    padTo (max 60 d.length) d
  else head ++ x.bytes.drop k

/-- The reason for which the fix of E3 drops a frame: the program's, the splice's, or none (R132, R149). -/
def Ctx.egressReason (x : Ctx) (whole : Bool) : Option Nat :=
  let s := spliceStart (nth x.g 15 0#32).toNat
  if mdKind x.md = 6 then some (if 0xE0 ≤ byteAt x.md 43 then byteAt x.md 43 else 0x32)
  else if 128 + x.headLen < s ∨ (whole ∧ 10000 + s < x.bytes.length + 128) then some 0x34
  else none

/-- A recirculated frame leaves E3 for the recirculation path (R146): its buffer is freed, its holding goes on. -/
def Hw.recirculate (h : Hw) (x : Ctx) (e : EgCtx) : Hw :=
  let d := x.splice true
  let h := (h.delCtx x.id).free x.sl e.buffer e.tag
  let h := h.pm x.sl 0x23 1 none x.pipe (some (mdTenant x.pmd))
  { h with recirc := h.recirc ++ [⟨x.sl, x.info, x.pmd, d ++ fcsOf d, some 0⟩] }

/-- The fix of E3: dropped, recirculated, or, encapsulated on a fabric port, on its way to the countersign. -/
def Hw.egressFix (h : Hw) (x : Ctx) : Hw :=
  match x.eg with
  | none => h
  | some e =>
    match x.egressReason e.whole with
    | some r => h.dropCtx x r
    | none =>
      if e.recircQ then h.recirculate x e
      else
        let go (d : List Byte) : Hw :=
          h.setCtx { x with ph := .countersign, eg := some { e with request := (nth x.g 13 0#32).toNat, out := d } }
        let d := x.splice e.whole
        if !h.fabricPort e.port then go d
        else match h.encapsulate e.port e.ext x.info.clerk x.info.mirror (mdTenant x.pmd) e.queue e.colour
            (mdEdition x.pmd) d with
          | .ok d => go d
          | .error r => h.dropCtx x r

end Sys2Proof.Machine
end

