-- ==== Sys2Proof/Machine/Transmit.lean ====
section
/-! DEFINITION. Transmission after the countersign: the start and end of a frame, stomping, timestamps, and the delivery
charges that wait for the frame's good end (R80 to R85, R324, R325, R480). -/

namespace Sys2Proof.Machine

/-- The ledger update of a delivered frame (R42, R278, R285, R128): EGR_DELIVER or FABRIC_TRANSIT, and with it GATE_WINDOW,
MACSEC_PROTECT and the PROG lines; `extra` is the bytes of SecTAG and ICV, none without MACsec. -/
def Hw.deliver (h : Hw) (x : TxFrame) (len : Nat) (extra : Option Nat) : Hw :=
  let t := x.ev.tenant
  let cs := [charge t (if x.dl.fabric then 10 else 1) len]
    ++ (if x.dl.gate then [charge t 8 len] else [])
    ++ (match extra with | some e => [charge t 9 (len + e)] | none => [])
    ++ x.dl.lines.map (fun l => charge t l len)
  { h with lgq := h.lgq ++ [⟨x.dl.sl, x.dl.parity, cs, -1, 0, 0, x.dl.postCut⟩] }

/-- The frame of a port that is transmitted now or next. -/
def Dev.head (d : Dev) (p : Nat) : Option TxFrame := d.tx.find? (fun x => x.port == p && x.st.ended.isNone)

/-- Whether a port transmits frames: its link is UP, or it is disabled and completes what it had (R72), and it is not
held to idles (R44, R309). -/
def Hw.transmits (h : Hw) (p : Nat) : Bool :=
  (h.link p == 5 || h.link p == 0) && !h.silent p

/-- The timestamp request of a frame whose transmission begins (R480): a two-step entry written or lost, a one-step field
out of bounds ignored. -/
def Hw.stampRequest (h : Hw) (x : TxFrame) : Hw :=
  let r := x.st.ts
  if h.on .TB_CTRL_clear_ts then h
  else match r.op with
    | 1 =>
      if h.txts.length < 256 then
        (({ h with txts := h.txts ++ [(x.port, r.tag, h.now)] } : Hw).bump .TB_CNT 4).setBit .TB_EVENT_events 5
      else h.bump .TB_CNT 5
    | 0 => h
    | op =>
      let n := if op = 2 then 10 else 8
      if r.offset < 14 ∨ 512 < r.offset + n ∨ (x.st.whole ∧ x.st.bytes.length + 4 < r.offset + n) then h.bump .TB_CNT 6
      else h

/-- The bytes of a frame with its one-step field written (R480): the PTP timestamp, or the correction field raised. -/
def oneStep (r : TsReq) (now : Nat) (clear : Bool) (d : List Byte) : List Byte :=
  let n := if r.op = 2 then 10 else 8
  if clear || r.op < 2 || decide (r.offset < 14) || decide (512 < r.offset + n) || decide (d.length < r.offset + n) then d
  else if r.op = 2 then
    overwrite d r.offset (beBytes 6 (now / unitsPerSecond) ++ beBytes 4 (now % unitsPerSecond * 5 / 4))
  else
    let dt := (now + 2 ^ 64 - r.timestamp) % 2 ^ 64
    overwrite d r.offset (beBytes 8 ((fieldAt d r.offset 8 + dt * 5 * 2 ^ 16 / 4) % 2 ^ 64))

/-- A frame dropped before its first bit enters the MAC: on a MACsec port the SecY engine reports it (R324). -/
def Dev.dropTx (d : Dev) (x : TxFrame) (reason : Nat) : Dev :=
  let h := d.hw.dropped x.dl.sl reason x.ev.tenant x.dl.pipe x.port
  if h.on .CX_SECY_tx_en x.port then ({ d with hw := h } : Dev).updFrame x (fun st => { st with ended := some false })
  else
    let h := if x.dl.waits then h.failCharge x else h
    ({ d with hw := h } : Dev).delFrame x

/-- A frame that begins and is then to be stomped for a reason, which is counted where its rule says. -/
def Dev.stompTx (d : Dev) (x : TxFrame) (reason : Nat) : Dev :=
  ({ d with hw := d.hw.dropped x.dl.sl reason x.ev.tenant x.dl.pipe x.port } : Dev).updFrame x
    (fun st => { st with stomp := some reason })

/-- Whether the two copies of the lane map of a port's group agree (R85): its lanes are squelched otherwise. -/
def Hw.mapAgrees (h : Hw) (p : Nat) : Bool := h.good ⟨.PT_GMODE, portSl p, 0, portIx p / 8⟩

/-- Transmission of a frame begins (R80, R81, R84, R85, R325). -/
def Dev.startTx (d : Dev) (x : TxFrame) (c : TxCond) : Dev :=
  let p := x.port
  let sl := x.dl.sl
  if c.mac.val ≠ p then ({ d with hw := d.hw.raise 0x121 sl x.dl.pipe p } : Dev).dropTx x 0x10
  else if x.st.sa.isSome ∧ c.cores = .first then ({ d with hw := d.hw.raise 0xA03 sl 15 p } : Dev).dropTx x 0xA8
  else
    let h := d.hw.stampRequest x
    let h := if x.st.cut then (h.ptCount p 25).pm sl 0x03 1 none x.dl.pipe (some x.ev.tenant) else h
    let h := if c.lanesOk then h
      else h.over ((List.range 8).map (fun l => p / 8 * 8 + l) |>.filter h.configured) (fun h q => h.raise 0x122 sl 15 q)
    let d := ({ d with hw := h } : Dev).updFrame x
      (fun st => { st with started := some h.now, squelch := !c.lanesOk || !d.hw.mapAgrees p })
    if x.st.sa.isSome ∧ c.cores = .later then ({ d with hw := d.hw.raise 0xA03 sl 15 p } : Dev).stompTx x 0xA8
    else if x.st.sa.isSome ∧ c.plainOk = false then ({ d with hw := d.hw.raise 0xA04 sl 15 p } : Dev).stompTx x 0xAA
    else if x.st.cut ∧ !x.st.whole ∧ c.underrun then ({ d with hw := d.hw.raise 0x111 sl 15 p } : Dev).stompTx x 0x0D
    else d

/-- TX_FRAME_START (R80): the next frame of the port begins, bound to an SA where the port protects it. -/
def execTxFrameStart (p : Port) (cond : TxCond) (s : State) : Host.Outcome State Fault Refusal :=
  onDev (fun d =>
    match d.head p with
    | none => d
    | some x =>
      if x.st.started.isSome || !d.hw.transmits p || (d.hw.protects p x.st.bytes && x.st.sa.isNone) then d
      else d.startTx x cond) s

/-- The bytes that leave for a frame before its FCS: its one-step field written, and protected under its SA. -/
def Hw.wire (h : Hw) (x : TxFrame) : List Byte :=
  let d := oneStep x.st.ts (x.st.started.getD 0) (h.on .TB_CTRL_clear_ts) x.st.bytes
  match x.st.sa with
  | some b => h.secProtect x.port b d
  | none => d

/-- The bytes of a stomped frame (R81): TX_UNDERRUN ends it before the first byte that is not held; for any other cause how many
of the held bytes left is a free value. The FCS is the complement of the CRC-32 of the bytes sent. -/
def Hw.stompWire (h : Hw) (x : TxFrame) : List Byte × Hw :=
  let d := h.wire x
  let d := if x.st.sa.isSome then d.take (d.length - 16) else d
  let (r, h) := h.random
  let d := if x.st.stomp = some 0x0D then d else d.take (r % (d.length + 1))
  (d ++ leBytes 4 (crc crc32 0 d ^^^ crc32.ones), h)

/-- Whether a gated frame fits its window by its counted length and, as its egress program lengthened it, overran it (R276). -/
def Hw.overran (h : Hw) (x : TxFrame) : Bool :=
  match x.dl.window, x.st.started with
  | some (counted, wend), some t =>
    let actual := x.len + h.rd .TM_PORTCFG_overhead (portIx x.port) x.dl.sl
    decide (t + h.txTime x.port counted ≤ wend) && decide (wend < t + h.txTime x.port actual)
  | _, _ => false

/-- What a frame's end does besides its charge: the frame leaves, unless its lane is squelched (R85), and is counted. -/
def Hw.emit (h : Hw) (x : TxFrame) : Hw :=
  if x.st.stomp.isSome then
    let (d, h) := h.stompWire x
    let h := h.ptCount x.port 16
    if x.st.squelch then h else { h with sent := h.sent ++ [.frame x.port d false] }
  else
    let d := h.wire x
    let d := d ++ fcsOf d
    let h := ((h.ptCount x.port 2).ptCount x.port 3 d.length)
    let h := if h.overran x then h.bump .TM_CNT 3 x.dl.sl else h
    if x.st.squelch then h else { h with sent := h.sent ++ [.frame x.port d true] }

/-- The charge of a frame that has ended (R82, R324): its delivery, or one to the error sub-count. -/
def Hw.settleTx (h : Hw) (x : TxFrame) (good : Bool) : Hw :=
  if !x.dl.waits then h
  else if good then
    h.deliver x x.len (x.st.sa.map (·.added))
  else h.failCharge x

/-- TX_FRAME_END (R82): a frame that has begun ends, with a good or an inverted FCS. On a MACsec port its report follows. -/
def execTxFrameEnd (p : Port) (s : State) : Host.Outcome State Fault Refusal :=
  onDev (fun d =>
    match d.head p with
    | none => d
    | some x =>
      if x.st.started.isNone || (!x.st.whole && x.st.stomp.isNone) then d
      else
        let good := x.st.stomp.isNone
        let h := d.hw.emit x
        if h.on .CX_SECY_tx_en p then ({ d with hw := h } : Dev).updFrame x (fun st => { st with ended := some good })
        else ({ d with hw := h.settleTx x good } : Dev).delFrame x) s

/-- SECY_FRAME_END (R324): the engine reports the oldest ended frame of the port. -/
def execSecyFrameEnd (p : Port) (s : State) : Host.Outcome State Fault Refusal :=
  onDev (fun d =>
    match d.tx.find? (fun x => x.port == p.val && x.st.ended.isSome) with
    | none => d
    | some x =>
      let good := x.st.ended == some true
      let h := if good && x.st.sa.isSome then d.hw.cxCount 0 else d.hw
      ({ d with hw := h.settleTx x good } : Dev).delFrame x) s

end Sys2Proof.Machine
end

