-- ==== Sys2Proof/Machine/Countersign.lean ====
section
/-! DEFINITION. The countersign: its fixed parser, the owner table, the delivery rule, its charges, and the commands of the CS
block (spec/02_isolation_and_fault_safety.md, R34 to R42, R57; R285 and R297 of 12; R513 of 23; R517 of 03). -/

namespace Sys2Proof.Machine

/-! ### The fixed parser (R34) -/

/-- Whether `n` bytes at an offset are present. -/
def present (d : List Byte) (o n : Nat) : Bool := decide (o + n ≤ d.length)

/-- The VLAN IDs of up to two tags behind the addresses, and the offset of the EtherType behind them. -/
def vlanTags (d : List Byte) : List Nat × Nat :=
  let tag (o : Nat) : Bool := present d o 4 && [0x8100, 0x88A8].contains (fieldAt d o 2)
  if tag 12 then
    let v := fieldAt d 14 2 % 4096
    if tag 16 then ([v, fieldAt d 18 2 % 4096], 20) else ([v], 16)
  else ([], 12)

/-- The IP protocol and the offset behind the fixed IPv4 or IPv6 header. -/
def ipPayload (d : List Byte) (et o : Nat) : Option (Nat × Nat) :=
  if et = 0x0800 ∧ present d o 20 ∧ byteAt d o = 0x45 then some (byteAt d (o + 9), o + 20)
  else if et = 0x86DD ∧ present d o 40 ∧ byteAt d o / 16 = 6 then some (byteAt d (o + 6), o + 40)
  else none

/-- The key value of a kind in an outgoing frame; none when the frame does not carry it. -/
def csKey (kind : Nat) (d : List Byte) : Option Nat :=
  let (vids, te) := vlanTags d
  let et := if present d te 2 then fieldAt d te 2 else 0
  let o := te + 2
  match kind with
  | 0 => some 0
  | 1 => vids.head?
  | 2 => match vids with | [a, b] => some (4096 * a + b) | _ => none
  | 3 => if present d 0 6 then some (fieldAt d 0 6) else none
  | 4 =>
    match ipPayload d et o with
    | some (17, u) =>
      if [4789, 6081].contains (fieldAt d (u + 2) 2) && present d u 16 then some (fieldAt d (u + 12) 3) else none
    | _ => none
  | 5 => if [0x8847, 0x8848].contains et && present d o 4 then some (fieldAt d o 3 / 16) else none
  | 6 =>
    match ipPayload d et o with
    | some (47, g) =>
      let k := g + (if bit (byteAt d g) 7 then 8 else 4)
      if present d g 4 && bit (byteAt d g) 5 && present d k 4 then some (fieldAt d k 4) else none
    | _ => none
  | _ => if et = 0x88B5 ∧ present d o 6 then some (fieldAt d (o + 4) 2) else none

/-! ### The owner table (R35 to R37) -/

/-- The check of an entry: CRC-16/CCITT over word 0 and word 1 [63:16] with its index folded. -/
def coCheck (i w0 w1 : Nat) : Nat := crcFold crc16 0x21 i (beBytes 8 w0 ++ beBytes 6 (w1 / 65536))
/-- Word 1 as it is stored: bits [23:16] zero and the check computed. -/
def coSealed (i w0 w1 : Nat) : Nat :=
  let w := setBits (setBits w1 23 16 0) 15 0 0
  w + coCheck i w0 w
/-- An entry's words. -/
def Hw.coEntry (h : Hw) (n i : Nat) : Nat × Nat := (h.val .A_CO (2 * i) n, h.val .A_CO (2 * i + 1) n)
/-- Whether an entry's check passes. -/
def coGood (i : Nat) (e : Nat × Nat) : Bool := bits e.2 15 0 == coCheck i e.1 e.2
/-- An entry written: word 0, then word 1. -/
def Hw.coSet (h : Hw) (n i w0 w1 : Nat) : Hw := (h.setVal .A_CO w0 (2 * i) n).setVal .A_CO w1 (2 * i + 1) n

/-- The 80-bit lookup key (R35). -/
def coKey (port kind value : Nat) : List Byte := beBytes 10 (((port % 1024) * 8 + kind) * 2 ^ 64 + value)
/-- The four candidate indexes of a key (R36). -/
def coCands (port kind value : Nat) : List Nat :=
  (List.range 4).map (fun j => crc crc32c j (coKey port kind value) % 65536 * 4 + j)
/-- Whether an entry answers a key of an edition, its check aside. -/
def coMatches (e : Nat × Nat) (port kind value ed : Nat) : Bool :=
  bit e.2 63 && e.1 == value && bits e.2 60 58 == kind && bits e.2 57 48 == port && bit e.2 (61 + ed)
/-- A search of the owner table: the matching entry, whether a valid candidate failed its check, and F-0x804 for each that did. -/
def Hw.coSearch (h : Hw) (n pipe port kind value ed : Nat) : Option (Nat × Nat) × Bool × Hw :=
  let es := (coCands port kind value).map (fun i => (i, h.coEntry n i))
  let bad := es.filter (fun e => bit e.2.2 63 && !coGood e.1 e.2)
  let hit := es.find? (fun e => coGood e.1 e.2 && coMatches e.2 port kind value ed)
  (hit.map (·.2), !bad.isEmpty, h.over bad (fun h _ => h.raise 0x804 n pipe port))

/-! ### The delivery rule (R40) -/

/-- The two copies of a permit word. -/
def Hw.permitWord (h : Hw) (n s w : Nat) : Nat × Nat := (h.val .CS_PERMIT (1024 * s + w) n, h.val .CS_PERMIT (1024 * s + w) n 1)
/-- The permit bit of a service and a tenant: the AND of the copies of its word; copies that differ raise F-0x809 and deny. -/
def Hw.permit (h : Hw) (n pipe port s t : Nat) : Bool × Hw :=
  let (a, b) := h.permitWord n s (t / 64)
  if a = b then (bit a (t % 64), h) else (false, h.raise 0x809 n pipe port (some t))

/-- The key kind that a port's frame is judged under, and its value: the configured one, PORT where the frame lacks it and
fallback_port allows that (R35). -/
def Hw.csJudged (h : Hw) (p : Nat) (d : List Byte) : Option (Nat × Nat) :=
  let kind := h.rd .CS_PORTCFG_key_kind (portIx p) (portSl p)
  match csKey kind d with
  | some v => some (kind, v)
  | none => if h.on .CS_CTRL_fallback_port 0 (portSl p) then some (0, 0) else none

/-- What the countersign finds on an outgoing frame (R35 to R40): the evidence of its decision, and the reason that the delivery
rule or the tag check gives for a drop. The tag is judged first: a failing one makes the carried tenant worthless. DESIGN CHOICE, log
entry 78: a frame without a Shogen header on a port of key kind FABRIC, fallback_port being 0, finds no owner (R35), drops with
0x81 and raises F-0x802 as under any other key kind. -/
def Hw.csJudge (h : Hw) (n pipe p : Nat) (md d : List Byte) : Evidence × Option Nat × Hw :=
  let t := mdTenant md
  let kind := h.rd .CS_PORTCFG_key_kind (portIx p) n
  let none_ : Evidence := ⟨t, kind, true, none, none, false⟩
  if mdTag md ≠ tagCheck t (mdEdition md) (mdInPort md) (mdTime md) then
    ({ none_ with tagOk := false }, some 0x82, h.raise 0x803 n pipe p)
  else match h.csJudged p d with
    | none => (none_, some 0x81, h.raise 0x802 n pipe p (some t))
    | some (k, v) =>
      if k = 7 then
        let e : Evidence := { none_ with kind := 7, shogen := some v }
        if v = t then (e, none, h) else (e, some 0x80, h.raise 0x801 n pipe p (some t))
      else
        let (hit, bad, h) := h.coSearch n pipe p k v (mdEdition md)
        match hit with
        | none =>
          let e : Evidence := { none_ with kind := k }
          if bad then (e, some 0x8A, h) else (e, some 0x81, h.raise 0x802 n pipe p (some t))
        | some w =>
          let (ok, h) := if bit w.2 25 then h.permit n pipe p (bits w.2 31 26) t else (false, h)
          let e : Evidence := { none_ with kind := k, entry := some w, permit := ok }
          if e.delivers then (e, none, h) else (e, some 0x80, h.raise 0x801 n pipe p (some t))

/-- The reason of the freeze in force for a copy at the countersign (R44). -/
def Hw.csFrozen (h : Hw) (n p t : Nat) : Option Nat :=
  if h.tenantFrozen n t then some 0x83 else if h.portFrozen p then some 0x84 else if h.sliceFrozen n then some 0x85
  else if h.held then some 0x86 else none

/-- The lower of two reasons (R513). -/
def lowerReason (a b : Option Nat) : Option Nat :=
  match a, b with
  | some x, some y => some (min x y)
  | some x, none => some x
  | none, y => y

/-- Whether a delivery's ledger update waits for the frame's good end (R82, R324). -/
def Hw.waitsEnd (h : Hw) (p : Nat) (cut : Bool) : Bool := cut || h.on .CX_SECY_tx_en p

/-- The outgoing length of a copy (R285): while its last byte is still to come, with its bound length. -/
def Ctx.outLen (x : Ctx) (e : EgCtx) : Nat :=
  if e.whole then e.out.length + 4 else e.out.length + (extBound e.ext - x.bytes.length)

/-- A refused copy (R42, R285): counted, charged, its buffer freed and its holding ended. -/
def Hw.refuseCopy (h : Hw) (x : Ctx) (e : EgCtx) (reason : Nat) : Hw :=
  let t := mdTenant x.pmd
  let len := x.outLen e
  let h := (h.dropped x.sl reason t x.pipe e.port).pm x.sl 0x61 1 none x.pipe (some t)
  let h := (h.delCtx x.id).free x.sl e.buffer e.tag
  let h := match reason with
    | 0x80 => h.ledger x.sl [charge t 5 len] (-1)
    | 0x81 => h.ledger x.sl [charge t 5 len] (-1)
    | 0x8A => h.ledger x.sl [charge t 5 len] (-1)
    | 0x82 => h.ledger x.sl [charge 0 5 len] (-1)
    | _ => h.errHeld x.sl t (x.storedLen e)
  h.edDown x.sl (mdEdition x.pmd)

/-- The frame that a delivered copy becomes for the transmit path. -/
def Hw.txOf (h : Hw) (x : Ctx) (e : EgCtx) (ev : Evidence) : TxFrame :=
  let r := e.request
  ⟨ev, e.port, e.copy,
    ⟨x.sl, x.pipe, e.queue, h.openParity, h.on .LG_STATUS_lastgasp, h.fabricPort e.port, e.gateWin, x.carried,
      h.waitsEnd e.port e.cut, e.window, extBound e.ext⟩,
    ⟨e.out, e.whole, if e.whole then some x.bytes.length else none, e.cut, ⟨bits r 31 30, bits r 29 21, bits r 15 0, mdTime x.pmd⟩, none, none, none, false, none⟩⟩

/-- A delivered copy (R42, R250, R285): its buffer freed, its holding ended, its delivery charged at once or at its good end. -/
def Dev.deliverCopy (d : Dev) (x : Ctx) (e : EgCtx) (ev : Evidence) : Dev :=
  let h := d.hw.pm x.sl 0x60 1 none x.pipe (some (mdTenant x.pmd))
  let f := h.txOf x e ev
  let h := ((h.delCtx x.id).free x.sl e.buffer e.tag).edDown x.sl (mdEdition x.pmd)
  { d with hw := if f.dl.waits then h else h.deliver f f.len none, tx := d.tx ++ [f] }

/-- The decision on a copy at the countersign. -/
def Dev.decide (d : Dev) (x : Ctx) (e : EgCtx) (agree : Bool) : Dev :=
  let (ev, r, h) := d.hw.csJudge x.sl x.pipe e.port x.pmd e.out
  let h := if agree then h else h.raise 0x808 x.sl x.pipe e.port
  let h := h.maskUse x.sl [tenantWord (mdTenant x.pmd), portWord e.port, sliceWord]
  let r := lowerReason (lowerReason r (if agree then none else some 0x80)) (h.csFrozen x.sl e.port (mdTenant x.pmd))
  match r with
  | some r => { d with hw := h.refuseCopy x e r }
  | none => if ev.delivers then ({ d with hw := h } : Dev).deliverCopy x e ev else { d with hw := h }

/-- Whether a copy of the same port that was picked earlier still awaits its decision, in E0 to E3 or before the countersign: copies
pass it in the order in which they were picked (R517). -/
def Hw.csBehind (h : Hw) (x : Ctx) (port : Nat) : Bool :=
  (h.ctxs.takeWhile (fun y => y.id != x.id)).any (fun y => match y.eg with | some e => e.port == port | none => false)

/-- COUNTERSIGN (R40): the oldest copy of its port that waits is decided while the port is UP; after link_down or a disable it is
discarded (R517). `agree` says whether the two comparators agree. -/
def execCountersign (n : Slice) (c : Nat) (agree : Bool) (s : State) : Host.Outcome State Fault Refusal :=
  onDev (fun d =>
    match d.hw.ctx? c with
    | none => d
    | some x =>
      match x.eg with
      | none => d
      | some e =>
        if x.sl ≠ n ∨ x.ph ≠ .countersign ∨ d.hw.csBehind x e.port then d
        else if d.hw.link e.port = 5 then (d.decide x e agree).settle
        else if (d.hw.port e.port).flush ≠ 0 then
          { d with hw := d.hw.dropEgress x (d.hw.port e.port).flush (x.storedLen e) }
        else d) s

/-! ### Commands of the CS block (R38, R40, R57) -/

/-- The address of an entry's shadow. -/
def Hw.coShadow (h : Hw) (n i : Nat) : Nat := h.rd .CS_SHADOW_BASE_base 0 n + 16 * i
/-- Whether the shadow can be reached: the base set and its stack ACTIVE. -/
def Hw.coReach (h : Hw) (n : Nat) : Bool :=
  decide (h.rd .CS_SHADOW_BASE_base 0 n ≠ 0) && h.stackActive (h.rd .CS_SHADOW_BASE_base 0 n)
/-- The indexed entry. -/
def Hw.coIndex (h : Hw) (n : Nat) : Nat := h.rd .CS_CO_INDEX_index 0 n
/-- An entry and its shadow written, the shadow first (R38). -/
def Hw.coPut (h : Hw) (n i w0 w1 : Nat) : Hw := (h.storeWords 4 (h.coShadow n i) [w0, w1]).coSet n i w0 w1

/-- The indexed entry read: performed in every case. -/
def Hw.coRead (h : Hw) (n : Nat) : Hw :=
  let e := h.coEntry n (h.coIndex n)
  (h.setVal .CS_CO_W0 e.1 0 n).setVal .CS_CO_W1 e.2 0 n
/-- The staged entry written: refused by F-0x804 where the shadow is out of reach. -/
def Hw.coWrite (h : Hw) (n : Nat) : Hw :=
  if !h.coReach n then h.raise 0x804 n
  else
    let i := h.coIndex n
    let w0 := h.val .CS_CO_W0 0 n
    h.coPut n i w0 (coSealed i w0 (h.val .CS_CO_W1 0 n))
/-- The indexed entry and its shadow lose their valid bit. -/
def Hw.coInvalidate (h : Hw) (n : Nat) : Hw :=
  if !h.coReach n then h.raise 0x804 n
  else
    let i := h.coIndex n
    let e := h.coEntry n i
    h.coPut n i e.1 (coSealed i e.1 (setBits e.2 63 63 0))

/-- CO_READ (R38, R57). -/
def execCoRead (n : Slice) (s : State) : Host.Outcome State Fault Refusal := onHw (fun h => h.coRead n) s
/-- CO_WRITE (R38, R57). -/
def execCoWrite (n : Slice) (s : State) : Host.Outcome State Fault Refusal := onHw (fun h => h.coWrite n) s
/-- CO_INVALIDATE (R57). -/
def execCoInvalidate (n : Slice) (s : State) : Host.Outcome State Fault Refusal := onHw (fun h => h.coInvalidate n) s

/-- The scrubber at one entry (R39). -/
def Hw.coScrubOne (h : Hw) (n i : Nat) : Hw :=
  let e := h.coEntry n i
  let sh := h.loadWords (h.coShadow n i) 2
  let s := (nth sh 0 0, nth sh 1 0)
  let (ok, h) := h.fetch 4 (h.coShadow n i) 16
  let dead := coSealed i e.1 (setBits e.2 63 63 0)
  match scrubRow (coGood i e) (ok && coGood i s) (e == s) with
  | .nothing => h
  | .fromShadow => (h.coSet n i s.1 s.2).raise 0x805 n
  | .markDiffer => (h.coSet n i e.1 dead).raise 0x805 n
  | .toShadow => (h.storeWords 4 (h.coShadow n i) [e.1, e.2]).raise 0x805 n
  | .markBoth => (h.coPut n i e.1 dead).raise 0x804 n

/-- CO_SCRUB (R39): one scrub period. -/
def execCoScrub (n : Slice) (s : State) : Host.Outcome State Fault Refusal :=
  onHw (fun h => if h.coReach n then h.each 262144 (fun h i => h.coScrubOne n i) else h.raise 0x80A n) s

/-- CS_PERMIT_READ (R40): copies that differ raise F-0x809. The value read is the AND of the copies. -/
def execCsPermitRead (n : Slice) (s : Fin 64) (w : Fin 1024) (st : State) : Host.Outcome State Fault Refusal :=
  onHw (fun h => let e := h.permitWord n s w; if e.1 = e.2 then h else h.raise 0x809 n) st

end Sys2Proof.Machine
end

