-- ==== Sys2Proof/Machine/LastGasp.lean ====
section
/-! DEFINITION. The sending of last-gasp: folio frames, their order, and the countersign's word on each
(spec/12_ledger.md, R306, R308 to R311). -/

namespace Sys2Proof.Machine

/-- The frames' payloads of a folio (R306): a segment header, in network byte order as fields of frames are (R4), and a segment. -/
def segments (d : List Byte) : List (List Byte) :=
  (List.range (ceilDiv d.length 8192)).map (fun k =>
    let s := slice d (8192 * k) 8192
    beBytes 2 1 ++ slice d 2 1 ++ beBytes 1 (ofBool (decide (d.length ≤ 8192 * (k + 1)))) ++ (slice d 4 2).reverse
      ++ beBytes 2 s.length ++ (slice d 16 4).reverse ++ beBytes 4 (256 * k) ++ s)

/-- The ones' complement checksum of an even number of bytes. -/
def onesChecksum (d : List Byte) : Nat :=
  65535 - ((List.range (d.length / 2)).map (fun k => fieldAt d (2 * k) 2)).foldl onesAdd 0

/-- An IPv4 and UDP frame with its lengths and header checksum filled and a UDP checksum of zero (R309, form 0). -/
def fillIpv4 (d : List Byte) : List Byte :=
  let e := if fieldAt d 12 2 = 0x8100 then 18 else 14
  if d.length < e + 28 then d
  else
    let d := overwrite (overwrite d (e + 2) (beBytes 2 (d.length - e))) (e + 10) (beBytes 2 0)
    let d := overwrite d (e + 10) (beBytes 2 (onesChecksum (slice d e 20)))
    overwrite d (e + 24) (beBytes 2 (d.length - e - 20) ++ beBytes 2 0)

/-- A last-gasp frame of a designated port (R309). -/
def Hw.gaspFrame (h : Hw) (k : Nat) (seg : List Byte) : List Byte × Hw :=
  let p := h.rd .LG_LGPORT_port k
  let t := h.load (h.rd .LG_LGPORT_tmpl_addr k) (h.rd .LG_LGPORT_tmpl_len k)
  if h.on .LG_LGPORT_form k then
    let (x, h) := h.ownHeader 4 none none
    let b := x.bytes
    (t ++ b ++ beBytes 2 (sfCheck h.member (h.sf p).tx b) ++ seg, h)
  else (fillIpv4 (t ++ seg), h)

/-- MD of a frame of tenant 0 that the device makes. -/
def Hw.ownMd (h : Hw) : List Byte :=
  let md := List.replicate 64 0#8
  mdSet (mdSet md 4 1 (128 * h.current)) 2 2 (tagCheck 0 h.current 0 0)

/-- A last-gasp frame sent if the port's countersign lane delivers it with tenant 0. -/
def Hw.gaspSend (h : Hw) (k : Nat) (seg : List Byte) : Hw :=
  let p := h.rd .LG_LGPORT_port k
  let (d, h) := h.gaspFrame k seg
  let (ev, r, h) := h.csJudge (portSl p) 15 p h.ownMd d
  match lowerReason r (h.csFrozen (portSl p) p 0) with
  | none => h.sendOwn p ev d
  | some r => h.dropped (portSl p) r 0 15 p

/-- The folios whose slots are not yet released, newest first (R310). -/
def Hw.unreleased (h : Hw) : List (Nat × Nat) :=
  let cons := h.rd .LG_RING_CONS_cons
  (h.lg.ring.filter (fun x => decide ((x.1 + 2 ^ 32 - cons) % 2 ^ 32 < 2 ^ 31))).reverse.map (·.2)

/-- A folio sent on a designated port. -/
def Hw.gaspFolio (h : Hw) (k : Nat) (d : List Byte) : Hw := (h.over (segments d) (fun h s => h.gaspSend k s)).lgCount 6

/-- The end of sending on a designated port; lastgasp_done once every designated port has finished (R311). -/
def Hw.gaspEnd (h : Hw) (k : Nat) : Hw :=
  let h := h.setLg (fun l => { l with gaspDone := l.gaspDone ++ [k] })
  if (List.range 4).all (fun j => !h.on .LG_LGPORT_valid j || h.lg.gaspDone.contains j) then h.lgEvent 6 else h

/-- LAST_GASP_SEND (R310): a designated port that is UP sends its folios; an entry that no longer serves is skipped (R308).
Under DEVICE_HOLD the sending stops (R472). -/
def Hw.lastGasp (h : Hw) (k : Nat) : Hw :=
  match h.lg.gasp with
  | none => h
  | some d =>
    if h.held || h.lg.gaspDone.contains k || !h.on .LG_LGPORT_valid k then h
    else if !h.lgPortOk k then (h.lgEvent 7).gaspEnd k
    else if h.link (h.rd .LG_LGPORT_port k) ≠ 5 then h.gaspEnd k
    else
      let h := h.gaspFolio k d
      (h.over h.unreleased (fun h x => let r := h.fetch 5 x.1 x.2; r.2.gaspFolio k (h.load x.1 x.2))).gaspEnd k

/-- LAST_GASP_SEND. -/
def execLastGaspSend (k : Fin 4) (s : State) : Host.Outcome State Fault Refusal := onTx (fun h => h.lastGasp k) s

end Sys2Proof.Machine
end

