-- ==== Sys2Proof/Machine/Stage.lean ====
section
/-! DEFINITION. Stage routines: start, nano-words, the beat limit, aborts, latent writes, and the fix of every stage
(spec/05_odkacel_instruction_set.md, R123 to R128; spec/06_nanostore_and_sequencing.md, R140 to R145, R150 to R154). -/

namespace Sys2Proof.Machine

/-! ### The context as operands see it -/

/-- The condition bits of a context (R113, R114). -/
def Ctx.conds (x : Ctx) : List Bool := stageConds x.c x.lr x.md x.p

/-- The operands of a context under a microword's immediate. -/
def Ctx.env (x : Ctx) (imm : Nat) : Env := ⟨false, x.g.map (·.toNat), x.hv, x.md, x.lr, x.conds, x.p, imm⟩

/-- The context with what operations wrote. -/
def Ctx.take (x : Ctx) (e : Env) : Ctx :=
  { x with hv := e.hv, md := e.md, g := e.reg.map (BitVec.ofNat 32), p := e.pred, c := e.cond.take 16 }

/-- A key formed from a profile of a context's engine (R125): none if a word of it fails in both copies. -/
def Hw.profileKey (h : Hw) (x : Ctx) (k : Nat) (e : Env) : Option (List Byte) × Hw :=
  let (ws, h) := h.storeWords? .SE_KEYPROF x.sl (mdEdition x.pmd) ((x.engine * 64 + k) * 3) x.pipe 3
  (ws.map (fun ws => formKey ws e.hv e.md e.reg), h)

/-! ### Start (R124, R126, R154) -/

/-- Whether an earlier frame of the pipeline and half has not yet started the engine of a context: the frames of one pipeline
start in their order of admission (R124). -/
def Hw.behind (h : Hw) (x : Ctx) : Bool :=
  (h.ctxs.takeWhile (fun y => y.id != x.id)).any (fun y =>
    y.sl == x.sl && y.pipe == x.pipe && y.eg.isSome == x.eg.isSome
      && (decide (y.engine < x.engine) || (y.engine == x.engine && y.ph == .ready)))

/-- The routines that the two ways of a lane run (R143). -/
def Hw.ways (h : Hw) (x : Ctx) : Nat :=
  (h.ctxs.filter (fun y => y.sl == x.sl && y.pipe == x.pipe && y.engine == x.engine
    && match y.ph with | .run _ => true | _ => false)).length

/-- Result slots written with the results addressed to the stage, in launch order (R124). -/
def Ctx.landAll (x : Ctx) : Ctx :=
  let mine := x.launches.filter (fun l => l.land == x.engine)
  { x with
    launches := x.launches.filter (fun l => l.land != x.engine)
    lr := mine.foldl (fun lr l => match l.done with | some (r, _) => setNth lr l.slot r | none => lr) x.lr }

/-- The reasons of the erroneous results addressed to the stage (R126). DESIGN CHOICE, log entry 81: an erroneous result whose slot a
later launch overwrites in the same stage counts among them. -/
def Ctx.errors (x : Ctx) : List Nat :=
  x.launches.filterMap (fun l => match l.done with | some (_, r) => if l.land = x.engine ∧ r ≠ 0 then some r else none | none => none)

/-- The routine of a frame starts at SE_ENTRY of its edition, or the frame is dropped for an erroneous result. -/
def Hw.startRoutine (h : Hw) (x : Ctx) : Hw :=
  match lowest x.errors with
  | some r => (h.bump .SE_ABORT_CNT 6 x.sl).dropCtx x r
  | none =>
    match h.storeWord .SE_ENTRY x.sl (mdEdition x.pmd) x.engine x.pipe with
    | (none, h) => h.dropCtx x 0x38
    | (some a, h) =>
      h.setCtx { x.landAll with ph := .run (a % 2048), rstack := [], beats := 0, latent := [], metered := [] }

/-- STAGE_ROUTINE_START (R124): a ready frame whose results have all landed, in order, while a way is free. -/
def execStageRoutineStart (n : Slice) (c : Nat) (s : State) : Host.Outcome State Fault Refusal :=
  onHw (fun h =>
    match h.ctx? c with
    | none => h
    | some x =>
      if x.sl != n || x.ph != .ready || h.behind x || decide (2 ≤ h.ways x)
          || x.launches.any (fun l => l.land == x.engine && l.done.isNone) then h
      else h.startRoutine x) s

/-! ### Nano-words (R140, R141, R150) -/

/-- The beats of a routine that has ended, taken into SE_BUDGET (R143). -/
def Hw.spent (h : Hw) (x : Ctx) : Hw :=
  let h := h.wr .SE_BUDGET_max_beats (max (h.rd .SE_BUDGET_max_beats x.engine x.sl) (min x.beats 255)) x.engine x.sl
  if 2 < x.beats then
    (h.count .SE_BUDGET_over_frames x.engine x.sl).pm x.sl 0x21 1 (some x.engine) x.pipe (some (mdTenant x.pmd))
  else h

/-- A routine aborted (R154): its latent writes discarded, its frame dropped. -/
def Hw.abort (h : Hw) (x : Ctx) (reason : Nat) : Hw := (h.spent x).dropCtx x reason

/-- The lookups of a nano-word launched (R123 to R125): none if a key profile fails in both copies. -/
def Hw.launch (h : Hw) (x : Ctx) (e : Env) (raw : Nat) : Option Ctx × Hw :=
  let t := bits raw 63 61
  if t = 0 || !e.guard (bits raw 39 36) then (some x, h)
  else match h.profileKey x (bits raw 53 48) e with
    | (none, h) => (none, h)
    | (some key, h) =>
      let l : Launch := ⟨t, bits raw 60 58, x.engine + bits raw 57 54, x.nord, key, bits raw 47 40, none⟩
      (some { x with launches := x.launches ++ [l], nord := x.nord + 1 },
        h.pm x.sl 0x30 1 (some t) x.pipe (some (mdTenant x.pmd)))

/-- The metered length (R271). -/
def Ctx.meterLen (x : Ctx) : Nat := if mdFlag x.pmd 2 then 512 else mdLen x.pmd

/-- METER (R128, R272): the colour decided and written into MD, or the first colour returned again. -/
def Hw.meterSlot (h : Hw) (e : Env) (x : Ctx) (k : Nat) : Ctx × Hw :=
  let i := 2 * mdTenant x.pmd + k
  let paint (x : Ctx) (c : Nat) : Ctx := { x with md := areaSet x.md 42 4 2 c }
  match x.metered.find? (fun m => m.1 == i) with
  | some m => (paint x m.2, h.bump .SE_ISA_CNT 6 x.sl)
  | none =>
    let (c, h) := h.meter i x.meterLen (areaBits e.md 42 4 2)
    let red := x.eg.isNone && c == 2 && (h.polCfg i).redDrop
    let x := paint x c
    ({ x with
        metered := x.metered ++ [(i, c)], latent := x.latent ++ [.meter i c x.meterLen]
        verdicts := if red then { x.verdicts with police := true } else x.verdicts }, h)

/-- The ST slot of a nano-word (R127, R128, R150): `e` is what its sources read. Answers the reason for which the routine is
aborted, if it is. -/
def Hw.stSlot (h : Hw) (e : Env) (x : Ctx) (raw : Nat) : Option Nat × Ctx × Hw :=
  let op := bits raw 55 50
  if op = 0 || !e.guard (bits raw 49 46) then (none, x, h)
  else
    let a := e.source (bits raw 45 24)
    let b := e.source (bits raw 23 2)
    let add (x : Ctx) (l : Latent) : Ctx := { x with latent := x.latent ++ [l] }
    let i := 2 * mdTenant x.pmd + a % 2
    if op = 1 ∧ 131072 ≤ a then (none, x, h.bump .SE_ISA_CNT 5 x.sl)
    else if 8 ≤ x.latent.length && !(op == 2 && x.metered.any (fun m => m.1 == i)) then (some 0x36, x, h)
    else match op with
      | 1 => (none, add x (.cnt a b), h)
      | 2 =>
        let (x, h) := h.meterSlot e x (a % 2)
        (none, x, h)
      | 3 => (none, add x (.ledger a), h)
      | _ =>
        match h.profileKey x (a % 64) e with
        | (none, h) => (some 0x38, x, h)
        | (some key, h) => (none, add x (.learn (bits a 13 8) (beNat (padTo 8 key)) b), h)

/-- A microword's nano-word executed and the next address formed (R111, R140, R141). -/
def Hw.nanoWord (h : Hw) (x : Ctx) (ua : Nat) : Hw :=
  let n := x.sl
  let ed := mdEdition x.pmd
  let limit := h.rd .SE_CTRL_beat_limit 0 n
  if limit ≤ x.beats then h
  else match h.storeWord .NS_UW n ed (2048 * x.engine + ua) x.pipe with
    | (none, h) => h.abort x 0x38
    | (some uw, h) =>
      match h.storeWords? .NS_NW n ed ((1024 * x.engine + uwNano uw) * 8) x.pipe 8 with
      | (none, h) => h.abort x 0x38
      | (some ws, h) =>
        let nw := wordsNat ws
        let e := x.env (uwImm uw)
        let beats := nwBeats nw
        let ran := min beats (limit - x.beats)
        let h := h.pm n 0x20 ran (some x.engine) x.pipe (some (mdTenant x.pmd))
        match h.launch x e (nwLk nw 0) with
        | (none, h) => h.abort x 0x38
        | (some y, h) =>
          match h.launch y e (nwLk nw 1) with
          | (none, h) => h.abort y 0x38
          | (some y, h) =>
            let y := { y with beats := y.beats + ran }
            if limit < x.beats + beats then h.setCtx y
            else
              let links := (List.range 12).map (fun w => h.val .PT_LINKVEC w n)
              match h.stSlot e (y.take (e.operations links h.now nw)) (nwSt nw) with
              | (some r, y, h) => h.abort y r
              | (none, y, h) =>
                if uwEnd uw then (h.spent y).setCtx { y with ph := .ended }
                else match nextAddress uw y.conds y.rstack 4 with
                  | none => h.abort y 0x33
                  | some (a, st) => h.setCtx { y with ph := .run a, rstack := st }

/-- STAGE_NANO_WORD (R140). -/
def execStageNanoWord (n : Slice) (c : Nat) (s : State) : Host.Outcome State Fault Refusal :=
  onHw (fun h =>
    match h.ctx? c with
    | none => h
    | some x =>
      match x.ph with
      | .run ua => if x.sl = n then h.nanoWord x ua else h
      | _ => h) s

/-- BEAT_LIMIT (R145): a routine that has run beat_limit beats without END is aborted. -/
def execBeatLimit (n : Slice) (c : Nat) (s : State) : Host.Outcome State Fault Refusal :=
  onHw (fun h =>
    match h.ctx? c with
    | none => h
    | some x =>
      match x.ph with
      | .run _ => if x.sl = n.val ∧ h.rd .SE_CTRL_beat_limit 0 n ≤ x.beats then h.abort x 0x37 else h
      | _ => h) s

/-! ### The fix (R151, R152) -/

/-- A program counter advanced (R128). -/
def Hw.programCount (h : Hw) (n i bytes : Nat) : Hw :=
  (h.setVal .A_PCP ((h.val .A_PCP i n + 1) % 2 ^ 48) i n).setVal .A_PCB ((h.val .A_PCB i n + bytes) % 2 ^ 64) i n

/-- The learn requests of a context sent to the clearing house (R203): one of an early-released frame waits there for its tail. -/
def Hw.sendLearns (h : Hw) (x : Ctx) : Hw :=
  if x.bad then h.count .FT_CH_CNT_count 7 0 x.learns.length
  else { h with ch := { h.ch with coming := h.ch.coming ++ x.learns.map (fun r => (x.wait, r)) } }

/-- One latent write applied (R128); a LEDGER entry and, in the ingress half, a learn request are carried to the ingress fix
(R152, R203). -/
def Hw.applyLatent (h : Hw) (x : Ctx) (l : Latent) : Hw × Ctx :=
  match l with
  | .cnt i b => (h.programCount x.sl i b, x)
  | .meter i c len => ((h.polCharge i c len).polRemainder x i c, x)
  | .ledger line => (h, { x with carried := x.carried ++ [line] })
  | .learn sub key value =>
    (h, { x with learns := x.learns ++
            [.learn sub key value (mdInPort x.pmd) (mdTenant x.pmd) (mdEdition x.pmd) (mdTime x.pmd) false] })

/-- Metadata at a fix: program writes to bytes 0 to 19, 32 to 35, 46 and 47 are discarded (R105, R118, R130). -/
def Ctx.restore (x : Ctx) : Ctx :=
  { x with md := x.pmd.take 20 ++ slice x.md 20 12 ++ slice x.pmd 32 4 ++ slice x.md 36 10 ++ [0#8, 0#8] ++ x.md.drop 48 }

/-- Whether the input queue of the stage behind a context's stage is full (R143): it holds 8 frames. -/
def Hw.nextFull (h : Hw) (x : Ctx) : Bool :=
  x.engine != 11 && x.engine != 15
    && decide (8 ≤ (h.ctxs.filter (fun y => y.sl == x.sl && y.pipe == x.pipe && y.engine == x.engine + 1 && y.ph == .ready)).length)

/-- The fix of a routine that has ended: its entries applied in order, or none if one of them fails its check; then the frame
enters the next stage, the cell former or the countersign lane. It waits while the next stage has no place for the frame (R143; DESIGN
CHOICE, log entry 82). A learn request reaches the clearing house at the ingress fix, one of the egress half at its own. -/
def Hw.stageFix (h : Hw) (x : Ctx) (checkOk : Bool) : Hw :=
  if h.nextFull x then h
  else if !checkOk && !x.latent.isEmpty then (h.raise 0x212 x.sl x.pipe).dropCtx x 0x39
  else
    let r : Hw × Ctx := x.latent.foldl (fun (a : Hw × Ctx) l => a.1.applyLatent a.2 l) (h, x)
    let h := r.1
    let y : Ctx := { r.2.restore with latent := [], metered := [] }
    let h := if 11 ≤ y.engine then h.sendLearns y else h
    let y := if 11 ≤ y.engine then { y with learns := [] } else y
    if y.engine = 11 then h.ingressFix y
    else if y.engine = 15 then h.egressFix y
    else h.setCtx { y with engine := y.engine + 1, ph := .ready }

/-- STAGE_FIX (R151). -/
def execStageFix (n : Slice) (c : Nat) (checkOk : Bool) (s : State) : Host.Outcome State Fault Refusal :=
  onHw (fun h =>
    match h.ctx? c with
    | none => h
    | some x => if x.sl = n.val ∧ x.ph = .ended then h.stageFix x checkOk else h) s

end Sys2Proof.Machine
end

