-- ==== Sys2Proof/Machine/Stores.lean ====
section
/-! DEFINITION. The stores of the stage engines: their loading, bank copies and scrubbing, and the program counters
(spec/05_odkacel_instruction_set.md, R128, R137; spec/06_nanostore_and_sequencing.md, R157 to R159). -/

namespace Sys2Proof.Machine

/-- The banked registers of the SE and NS blocks. -/
def seBanked : List RegName := [.SE_KEYPROF, .SE_ENTRY, .SE_REFBASE, .NS_UW, .NS_NW]

/-- A refused write recorded (R157): its cause, engine, block (0 NS, 1 SE) and offset in the block. -/
def Hw.seRefuse (h : Hw) (n cause engine block off : Nat) : Hw :=
  let h := (h.wr .SE_STATUS_write_refused 1 0 n).wr .SE_STATUS_refused_cause cause 0 n
  let h := (h.wr .SE_STATUS_refused_engine engine 0 n).wr .SE_STATUS_refused_block block 0 n
  h.wr .SE_STATUS_refused_offset off 0 n

/-- A write of a banked word judged (R157): refused for BANK_BUSY, for COPY_BUSY or for the word's own cause, else made in the
bank that takes it. -/
def Hw.seWrite (h : Hw) (n engine block off : Nat) (cause : Nat → Nat) (put : Hw → Nat → Hw) : Hw :=
  let (bank, busy) := h.writeBank n
  let c := if busy then 1 else if h.on .SE_BANKCOPY_busy 0 n then 2 else cause bank
  if c ≠ 0 then h.seRefuse n c engine block off else put h bank

/-- Where a nano-word is staged: word `w` of an engine. -/
def stagedWord (n e w : Nat) : Reg := ⟨.NS_NW, n, 8, 8 * e + w⟩

/-- NANO_WORD_STAGE (R157): words 0 to 6 are staged in every case. -/
def execNanoWordStage (n : Slice) (e : Fin 16) (_x : Fin 1024) (w : Fin 7) (v : Word) (s : State) :
    Host.Outcome State Fault Refusal :=
  onHw (fun h => h.setReg (stagedWord n e w) v) s

/-- A nano-word committed by its word 7, or refused; the staging register is cleared after either (R157). -/
def Hw.nanoCommit (h : Hw) (n e x v : Nat) : Hw :=
  let ws := (List.range 7).map (fun w => (h.reg (stagedWord n e w)).toNat) ++ [v]
  let h := h.each 7 (fun h w => h.setReg (stagedWord n e w) 0)
  h.seWrite n e 0 (0x100000 + e * 0x10000 + x * 0x40 + 0x38) (fun _ => nanoCause false e (wordsNat ws)) (fun h bank =>
    let h := h.each 8 (fun h k => h.setStore .NS_NW n bank ((1024 * e + x) * 8 + k) (nth ws k 0))
    let m : Reg := ⟨.NS_NW, n, bank, 1024 * e + x⟩
    if h.wrote.contains m then h else { h with wrote := h.wrote ++ [m] })

/-- NANO_WORD_COMMIT (R157). -/
def execNanoWordCommit (n : Slice) (e : Fin 16) (x : Fin 1024) (v : Word) (s : State) : Host.Outcome State Fault Refusal :=
  onHw (fun h => h.nanoCommit n e x v.toNat) s

/-- MICROWORD_WRITE (R157). -/
def Hw.microWrite (h : Hw) (n e a v : Nat) : Hw :=
  h.seWrite n e 0 (e * 0x4000 + a * 8) (fun _ => microCause v)
    (fun h bank => h.setStore .NS_UW n bank (2048 * e + a) v)

/-- MICROWORD_WRITE: a microword written to a stage store, or refused. -/
def execMicrowordWrite (n : Slice) (e : Fin 16) (a : Fin 2048) (v : Word) (s : State) : Host.Outcome State Fault Refusal :=
  onHw (fun h => h.microWrite n e a v.toNat) s

/-- A write to a banked SE register: a key profile word, an entry address or the reference base (R125, R157, R160). -/
def Hw.seBankedWrite (h : Hw) (n off v : Nat) : Hw :=
  if 0x100 ≤ off ∧ off < 0x180 then
    let e := (off - 0x100) / 8
    h.seWrite n e 1 off (fun _ => 0) (fun h bank => h.setStore .SE_ENTRY n bank e (v % 2048))
  else if off = 0x400 then
    h.seWrite n 0 1 off (fun _ => 0) (fun h bank =>
      h.setStore .SE_REFBASE n bank 0 (v &&& 0xFF0000FFFFFFFC00))
  else if 0x40000 ≤ off ∧ off < 0x48000 ∧ off / 8 % 4 < 3 then
    let e := (off - 0x40000) / 0x800
    let w := off / 8 % 4
    let base := (e * 64 + off / 0x20 % 64) * 3
    h.seWrite n e 1 off
      (fun bank => profileRefusal ((List.range 3).map (fun k => if k = w then v else h.val .SE_KEYPROF (base + k) n bank)))
      (fun h bank => h.setStore .SE_KEYPROF n bank (base + w) v)
  else h

/-- SE_BANKED_WRITE (R157): `off` is the offset in the SE block. -/
def execSeBankedWrite (n : Slice) (off : BitVec 20) (v : Word) (s : State) : Host.Outcome State Fault Refusal :=
  onHw (fun h => h.seBankedWrite n (off.toNat / 8 * 8) v.toNat) s

/-- SE_BANKCOPY (R158, R465): the copy of the current bank begins, or is refused. -/
def Hw.seBankcopy (h : Hw) (n : Nat) : Hw :=
  if h.bankBusy && h.slicePower n != 1 then h.seRefuse n 1 0 1 0x10
  else if h.on .SE_BANKCOPY_busy 0 n then h.seRefuse n 2 0 1 0x10
  else h.wr .SE_BANKCOPY_busy 1 0 n

/-- SE_BANKCOPY: the copy of the SE banks begun or refused. -/
def execSeBankcopy (n : Slice) (s : State) : Host.Outcome State Fault Refusal :=
  onHw (fun h => h.seBankcopy n) s

/-- SE_BANKCOPY_DONE (R158): the next bank holds the current one's words, and its written state. -/
def execSeBankcopyDone (n : Slice) (s : State) : Host.Outcome State Fault Refusal :=
  onHw (fun h =>
    if h.on .SE_BANKCOPY_busy 0 n then
      let h := h.copyBank seBanked n h.current h.next
      let kept := h.wrote.filter (fun r => !(r.sl == n.val && r.bank == h.next))
      let copied := (h.wrote.filter (fun r => r.sl == n.val && r.bank == h.current)).map (fun r => { r with bank := h.next })
      let h := { h with wrote := kept ++ copied }
      (h.wr .SE_BANKCOPY_busy 0 0 n).wr .SE_STATUS_copy_done 1 0 n
    else h) s

/-- The store words of a slice with a copy that fails its check, or with copies that differ: name, edition, index. -/
def Hw.seSuspects (h : Hw) (n : Nat) : List (RegName × Nat × Nat) :=
  let key (r : Reg) : RegName × Nat × Nat := (r.name, r.bank % 2, r.ix)
  let mine (r : Reg) : Bool := seBanked.contains r.name && r.sl == n && decide (r.bank < 4)
  (((h.bad.filter mine).map key) ++ (((h.words.filter (fun e => mine e.1)).map (fun e => key e.1)).filter
    (fun e => h.val e.1 e.2.2 n e.2.1 != h.val e.1 e.2.2 n (e.2.1 + 2)))).eraseDups

/-- A record of the store scrubber: it names a pipeline (R162), and which one a store that serves all nine names is not stated: free
value, log entry 71. -/
def Hw.scrubFault (h : Hw) (code n : Nat) : Hw :=
  let (v, h) := h.random
  h.raise code n (v % 9)

/-- A store word scrubbed (R159). -/
def Hw.seScrubOne (h : Hw) (n : Nat) (e : RegName × Nat × Nat) : Hw :=
  let (name, ed, ix) := e
  let a : Reg := ⟨name, n, ed, ix⟩
  let b : Reg := ⟨name, n, ed + 2, ix⟩
  match h.good a, h.good b with
  | true, true =>
    if h.reg a = h.reg b then h else ((h.mark a true).mark b true).scrubFault 0x211 n
  | true, false => ((h.setReg b (h.reg a)).mark b false).scrubFault 0x211 n
  | false, true => ((h.setReg a (h.reg b)).mark a false).scrubFault 0x211 n
  | false, false => h.scrubFault 0x210 n

/-- SE_SCRUB (R159). -/
def execSeScrub (n : Slice) (s : State) : Host.Outcome State Fault Refusal :=
  onHw (fun h => h.over (h.seSuspects n) (fun h e => h.seScrubOne n e)) s

/-! ### Program counters (R128) -/

/-- A command of SE_PCNT_CMD: the named counter read into the result registers, cleared, or both in one array cycle. -/
def Hw.pcnt (h : Hw) (n : Nat) (read clear : Bool) : Hw :=
  if h.on .SE_PCNT_CMD_busy 0 n then h
  else
    let i := h.rd .SE_PCNT_INDEX_index 0 n
    let h := if read then
        (h.setVal .SE_PCNT_PKTS (h.val .A_PCP i n) 0 n).setVal .SE_PCNT_BYTES (h.val .A_PCB i n) 0 n else h
    if clear then (h.setVal .A_PCP 0 i n).setVal .A_PCB 0 i n else h

/-- PCNT_READ (R128). -/
def execPcntRead (n : Slice) (s : State) : Host.Outcome State Fault Refusal := onHw (fun h => h.pcnt n true false) s
/-- PCNT_READ_CLEAR (R128). -/
def execPcntReadClear (n : Slice) (s : State) : Host.Outcome State Fault Refusal := onHw (fun h => h.pcnt n true true) s
/-- PCNT_CLEAR (R128). -/
def execPcntClear (n : Slice) (s : State) : Host.Outcome State Fault Refusal := onHw (fun h => h.pcnt n false true) s

end Sys2Proof.Machine
end

