-- ==== Sys2Proof/Machine/Clerks.lean ====
section
/-! DEFINITION. The clerks' control registers, stores and rings, the punt gate, and the clerk path
(spec/16_clerks_and_boot.md, R371 to R382, R387). -/

namespace Sys2Proof.Machine

/-! ### States and commands (R371 to R373, R423) -/

/-- The address that a halted clerk's `ua` takes when it was in WAIT. -/
def waitPoint : Nat := 2048

/-- MC_CMD: HALT 1, START 2, RESET 3 (R371, R423). A clerk that is OFF takes none. -/
def Hw.clerkCmd (h : Hw) (c op : Nat) : Hw :=
  let st := h.clerkState c
  if h.clerkPower c = 0 then h
  else match op with
    | 1 =>
      let h := if st = 2 then h.setClerk c (fun x => { x with ua := waitPoint }) else h
      h.setClerkState c 0
    | 2 =>
      if st = 1 ∨ st = 2 then h
      else h.setClerkState c (if (h.clerk c).ua = waitPoint then 2 else 1)
    | 3 =>
      ((h.setClerk c (fun _ => { ClerkSt.reset with ua := h.rd .MC_ENTRY_entry c })).setClerkState c 1).watch
    | _ => h

/-- CLERK_HALT (R371). -/
def execClerkHalt (c : Clerk) (s : State) : Host.Outcome State Fault Refusal := onHw (fun h => h.clerkCmd c 1) s
/-- CLERK_START (R371). -/
def execClerkStart (c : Clerk) (s : State) : Host.Outcome State Fault Refusal := onHw (fun h => h.clerkCmd c 2) s
/-- CLERK_RESET (R371). -/
def execClerkReset (c : Clerk) (s : State) : Host.Outcome State Fault Refusal := onHw (fun h => h.clerkCmd c 3) s

/-- The slots between two wrapping ring counters. -/
def between (prod cons : Nat) : Nat := (prod + 2 ^ 32 - cons) % 2 ^ 32

/-- MC_WAKE.level of a clerk (R372): slots to consume in the receive ring; a free slot in the transmit ring. -/
def Hw.wakeLevel (h : Hw) (c : Nat) : Nat :=
  ofBool (h.rd .MC_RXPROD_prod c != h.rd .MC_RXCONS_cons c)
    + 2 * ofBool (h.rd .MC_TXRING_base c != 0
        && decide (between (h.rd .MC_TXPROD_prod c) (h.rd .MC_TXCONS_cons c) < 2 ^ h.rd .MC_TXRING_log2_slots c))

/-- The wake bits of a clerk. -/
def Hw.wakeBits (h : Hw) (c : Nat) : Nat := h.wakeLevel c + 4 * h.rd .MC_WAKE_kick c

/-- CLERK_TASK_WAKE (R372). -/
def execClerkTaskWake (c : Clerk) (s : State) : Host.Outcome State Fault Refusal :=
  onHw (fun h =>
    if h.clerkPower c = 3 ∧ h.clerkState c = 2 ∧ h.wakeBits c &&& h.rd .MC_WAKE_enable c ≠ 0 then
      (h.setClerk c (fun x => { x with ua := h.rd .MC_ENTRY_entry c, rstack := [] })).setClerkState c 1
    else h) s

/-- The kick wake bit set (R372). -/
def Hw.kick (h : Hw) (c : Nat) : Hw := h.wr .MC_WAKE_kick 1 c

/-- CLERK_KICK (R372). -/
def execClerkKick (c : Clerk) (s : State) : Host.Outcome State Fault Refusal := onHw (fun h => h.kick c) s

/-- CLERK_WATCHDOG (R373): timeout_us has passed without a pet. -/
def execClerkWatchdog (c : Clerk) (s : State) : Host.Outcome State Fault Refusal :=
  onHw (fun h =>
    if h.rd .MC_WDOG_timeout_us c = 0 then h
    else ((h.wr .MC_WDOG_fired 1 c).raise 0x303 8).count .MC_CNT_count 5) s

/-- An exception (R371): recorded, counted, and the clerk in EXCEPTION at the faulting microword. -/
def Hw.clerkExcept (h : Hw) (c cause ua addr : Nat) : Hw :=
  let h := h.setVal .MC_EXC (2 ^ 63 + ((cause % 16) <<< 59) + ((ua % 2048) <<< 48) + addr % 2 ^ 40) c
  ((h.setClerkState c 3).raise 0x301 8).count .MC_CNT_count 4

/-! ### Stores (R374) -/

/-- Where a clerk's nano-word is staged: word `w`. -/
def clerkStaged (c w : Nat) : Reg := ⟨.MC_NW, 0, 8, 8 * c + w⟩

/-- A refused store write. -/
def Hw.storeRefused (h : Hw) (c : Nat) : Hw := (h.wr .MC_STATUS_store_refused 1).wr .MC_STATUS_store_clerk c

/-- A write to MC_UW or MC_NW at an offset in the MC block: only while its clerk is HALTED or in EXCEPTION. -/
def Hw.clerkStore (h : Hw) (off v : Nat) : Hw :=
  let open' (c : Nat) : Bool := h.clerkState c == 0 || h.clerkState c == 3
  if 0x10000 ≤ off ∧ off < 0x30000 then
    let c := (off - 0x10000) / 0x4000
    if open' c && microCause v == 0 then h.setStore .MC_UW 0 0 ((off - 0x10000) / 8) v else h.storeRefused c
  else if 0x80000 ≤ off ∧ off < 0x100000 then
    let c := (off - 0x80000) / 0x10000
    let w := off / 8 % 8
    if !open' c then h.storeRefused c
    else if w < 7 then h.setReg (clerkStaged c w) (BitVec.ofNat 64 v)
    else
      let ws := (List.range 7).map (fun w => (h.reg (clerkStaged c w)).toNat) ++ [v]
      let h := h.each 7 (fun h w => h.setReg (clerkStaged c w) 0)
      if nanoCause true (16 + c) (wordsNat ws) ≠ 0 then h.storeRefused c
      else h.each 8 (fun h k => h.setStore .MC_NW 0 0 ((off - 0x80000) / 64 * 8 + k) (nth ws k 0))
  else h

/-- CLERK_STORE_WRITE (R374): `off` is the offset in the MC block. -/
def execClerkStoreWrite (off : BitVec 20) (v : Word) (s : State) : Host.Outcome State Fault Refusal :=
  onHw (fun h => h.clerkStore (off.toNat / 8 * 8) v.toNat) s

/-! ### Rings and classes (R375 to R380) -/

/-- Whether a ring's base and size are accepted (R376): base 0, or wholly in clerk shared memory. -/
def ringOk (base log2 : Nat) : Bool :=
  base == 0 || (decide (2 ≤ log2) && decide (log2 ≤ 9) && decide (0x10000000 ≤ base)
    && decide (base + 10240 * 2 ^ log2 ≤ 0x11000000))

/-- A write of MC_RXRING or MC_TXRING (R376, R377): base bits [5:0] are stored as 0. -/
def Hw.ringWrite (h : Hw) (c : Nat) (tx : Bool) (v : Nat) : Hw :=
  let base := bits v 39 6 * 64
  if tx then
    if ringOk base (bits v 63 60) then (h.wr .MC_TXRING_log2_slots (bits v 63 60) c).wr .MC_TXRING_base base c
    else h.wr .MC_STATUS_ring_refused 1
  else if ringOk base (bits v 63 60) && (base == 0 || decide (7 * bits v 47 40 ≤ bits v 57 48)) then
    (((h.wr .MC_RXRING_log2_slots (bits v 63 60) c).wr .MC_RXRING_mirror_free (bits v 57 48) c).wr .MC_RXRING_step (bits v 47 40)
      c).wr .MC_RXRING_base base c
  else h.wr .MC_STATUS_ring_refused 1

/-- RX_RING_CONFIG (R376). -/
def execRxRingConfig (c : Clerk) (tx : Bool) (v : Word) (s : State) : Host.Outcome State Fault Refusal :=
  onHw (fun h => h.ringWrite c tx v.toNat) s

/-- What a class's bucket lacks, and since when. -/
def Hw.bucket (h : Hw) (k : Nat) : Nat × Nat := FMap.get (fun _ => (0, 0)) h.gate k
/-- A class's bucket set. -/
def Hw.setBucket (h : Hw) (k : Nat) (v : Nat × Nat) : Hw := { h with gate := FMap.put natLt (fun _ => (0, 0)) h.gate k v }
/-- What a class's bucket lacks now: it refills at rate_pps. -/
def Hw.lacking (h : Hw) (k : Nat) : Nat :=
  let b := h.bucket k
  b.1 - (h.up - b.2) * h.rd .MC_CLASS_rate_pps k

/-- A write of MC_CLASS (R375, R379): a class of clerk 7 is refused while it is reserved; enabling fills the bucket. -/
def Hw.classWrite (h : Hw) (k v : Nat) : Hw :=
  if bits v 61 59 = 7 ∧ h.on .MC_CTRL_clerk7_reserved = true then h.wr .MC_STATUS_ring_refused 1
  else
    let t := bits v 45 32
    let t := if t = 0 ∨ (64 ≤ t ∧ t ≤ 10000) then t else 0
    let lack := if bit v 63 && !h.on .MC_CLASS_enable k then 0 else h.lacking k
    (h.setBucket k (lack, h.up)).setVal .MC_CLASS (setBits (v &&& (regRow .MC_CLASS).rw) 45 32 t) k

/-- A write of MC_CLASSB: 0 is stored as 1. The bucket keeps its tokens, at most the new burst. -/
def Hw.burstWrite (h : Hw) (k v : Nat) : Hw :=
  let new := max 1 (bits v 15 0)
  let old := h.rd .MC_CLASSB_burst k
  let lack := h.lacking k + new * unitsPerSecond - old * unitsPerSecond
  (h.setBucket k (lack, h.up)).setVal .MC_CLASSB new k

/-! ### The punt gate (R375 to R378) -/

/-- A class counter advanced. -/
def Hw.classCount (h : Hw) (k i : Nat) : Hw := h.count .MC_CLASSCNT_count (4 * k + i)

/-- What the end of an arrival settles: a frame with dest_kind CLERK, and one that the parser sent, end their edition holding. -/
def Hw.puntEnds (h : Hw) (p : Punt) : Hw :=
  match p.kind with
  | .frame => h.edDown p.sl p.ed
  | .parser => h.edDown p.sl p.ed
  | _ => h

/-- An arrival dropped (R378): only a frame with dest_kind CLERK is charged. -/
def Hw.puntDrop (h : Hw) (p : Punt) (reason : Nat) : Hw :=
  let h := (h.classCount p.cls (match reason with | 0x72 => 1 | 0x75 => 3 | _ => 2)).puntEnds p
  if p.kind = .frame then
    (if reason = 0x75 then h.errHeld 8 p.tenant p.bytes.length else h.congest 8 p.tenant p.bytes.length)
  else h

/-- The slot of an admitted arrival (R376). -/
def puntSlot (p : Punt) (mirror : Bool) (trunc now seq : Nat) : List Byte :=
  let d := if trunc = 0 then p.bytes else p.bytes.take trunc
  let frame := match p.kind with | .copy => false | _ => true
  let flags := ofBool mirror + 2 * ofBool (decide (d.length < p.bytes.length)) + 4 * ofBool frame
  padTo 64 (leBytes 2 d.length ++ leBytes 2 p.bytes.length ++ [BitVec.ofNat 8 p.cls, BitVec.ofNat 8 flags, BitVec.ofNat 8 p.sl, 0]
    ++ leBytes 8 now ++ leBytes 4 seq) ++ padTo 64 p.md ++ d

/-- The free slots of a clerk's receive ring (R377). -/
def Hw.rxFree (h : Hw) (c : Nat) : Nat :=
  2 ^ h.rd .MC_RXRING_log2_slots c - between (h.rd .MC_RXPROD_prod c) (h.rd .MC_RXCONS_cons c)

/-- An arrival that enters a ring (R376, R378): written, charged to PUNT_COPY. -/
def Hw.puntEnter (h : Hw) (p : Punt) (c : Nat) (mirror : Bool) : Hw :=
  let prod := h.rd .MC_RXPROD_prod c
  let a := h.rd .MC_RXRING_base c + 10240 * (prod % 2 ^ h.rd .MC_RXRING_log2_slots c)
  let h := h.store a (puntSlot p mirror (h.rd .MC_CLASS_trunc_len p.cls) h.now prod)
  let h := (((h.wr .MC_RXPROD_prod (prod + 1) c).classCount p.cls 0).pmClerk c 0x0C).puntEnds p
  match p.kind with
  | .control => h
  | .frame => h.ledger 8 [charge p.tenant 7 p.bytes.length] (-1) 0 1
  | _ => h.ledger 8 [charge p.tenant 7 p.bytes.length]

/-- An arrival at the punt gate (R375, R377). -/
def Hw.puntArrive (h : Hw) (p : Punt) : Hw :=
  let h := h.count .MC_CNT_count 0
  let k := p.cls
  let lack := h.lacking k
  if !h.on .MC_CLASS_enable k then h.puntDrop p 0x75
  else if h.rd .MC_CLASSB_burst k * unitsPerSecond < lack + unitsPerSecond then (h.setBucket k (lack, h.up)).puntDrop p 0x72
  else
    let h := h.setBucket k (lack + unitsPerSecond, h.up)
    let c := h.rd .MC_CLASS_clerk k
    let mirror := h.on .MC_CLASS_kind k
    let least := if mirror then h.rd .MC_RXRING_mirror_free c else h.rd .MC_RXRING_step c * (7 - h.rd .MC_CLASS_priority k)
    if h.rd .MC_RXRING_base c = 0 ∨ h.rxFree c ≤ least then h.puntDrop p (if mirror then 0x73 else 0x74)
    else h.puntEnter p c mirror

/-- Splits off the first arrival that waits for no tail and has none of its class and slice before it. -/
def nextPunt : List Punt → List Punt → Option (Punt × List Punt)
  | _, [] => none
  | seen, p :: r =>
    if p.wait.isNone && !seen.any (fun q => q.cls == p.cls && q.sl == p.sl) then some (p, seen ++ r) else nextPunt (seen ++ [p]) r

/-! The capacity of the gate (R375): 32 Mpps and 256 Gb/s, each counted by a bucket that holds what one second lets through (DESIGN
CHOICE, log entry 87). The two buckets stand behind those of the 64 classes. -/

/-- The bucket that counts packets. -/
def gatePackets : Nat := 64
/-- The bucket that counts bytes. -/
def gateBytes : Nat := 65
/-- What the gate lets through in a second, packets or bytes. -/
def gateRate (k : Nat) : Nat := if k = gatePackets then 32000000 else 32000000000
/-- What a bucket of the gate lacks now. -/
def Hw.gateLack (h : Hw) (k : Nat) : Nat := (h.bucket k).1 - (h.up - (h.bucket k).2) * gateRate k
/-- Whether a bucket of the gate still holds an amount. -/
def Hw.gateHolds (h : Hw) (k n : Nat) : Bool := decide (h.gateLack k + n * unitsPerSecond ≤ gateRate k * unitsPerSecond)
/-- Whether the gate accepts an arrival of some bytes. -/
def Hw.gateAccepts (h : Hw) (len : Nat) : Bool := h.gateHolds gatePackets 1 && h.gateHolds gateBytes len
/-- An amount taken from a bucket of the gate. -/
def Hw.gateSpend (h : Hw) (k n : Nat) : Hw := h.setBucket k (h.gateLack k + n * unitsPerSecond, h.up)
/-- An arrival accepted. -/
def Hw.gateTake (h : Hw) (len : Nat) : Hw := (h.gateSpend gatePackets 1).gateSpend gateBytes len

/-- An arrival beyond the capacity of the gate (R375): it is dropped before any of the steps. -/
def Hw.puntBeyond (h : Hw) (p : Punt) : Hw := ((h.count .MC_CNT_count 0).count .MC_CNT_count 1).puntDrop p 0x72

/-- PUNT_ARRIVAL (R375). -/
def execPuntArrival (s : State) : Host.Outcome State Fault Refusal :=
  onHw (fun h =>
    match nextPunt [] h.punts with
    | none => h
    | some (p, rest) =>
      let h : Hw := { h with punts := rest }
      if h.gateAccepts p.bytes.length then (h.gateTake p.bytes.length).puntArrive p else h.puntBeyond p) s

/-! ### The clerk path (R380 to R382) -/

/-- A transmit slot's header (R380). -/
structure TxSlot where
  len : Nat
  mode : Nat
  queue : Nat
  tenant : Nat
  port : Nat
  clean : Bool
  free : List Byte
  deriving DecidableEq, Repr

/-- The header of a slot; `clean` says that its reserved bits are zero. -/
def txSlot (d : List Byte) : TxSlot :=
  let le (i : Nat) : Nat := leNat (slice d i 2)
  ⟨le 0, byteAt d 2, byteAt d 3 % 16, le 4, le 6 % 1024,
    decide (byteAt d 3 < 16) && decide (le 6 < 1024) && (slice d 8 8).all (· == 0), slice d 16 16⟩

/-- The transmit slot at the head of a clerk's ring: its address and header. -/
def Hw.txHead (h : Hw) (c : Nat) : Option (Nat × TxSlot) :=
  let cons := h.rd .MC_TXCONS_cons c
  if h.rd .MC_TXRING_base c = 0 ∨ h.rd .MC_TXPROD_prod c = cons then none
  else
    let a := h.rd .MC_TXRING_base c + 10240 * (cons % 2 ^ h.rd .MC_TXRING_log2_slots c)
    some (a, txSlot (h.load a 32))

/-- Whether a slot is taken (R382). -/
def Hw.txValid (h : Hw) (c : Nat) (t : TxSlot) : Bool :=
  t.clean && decide (t.mode < 2) && decide (60 ≤ t.len) && decide (t.len ≤ 9996) && decide (t.port < 768)
    && (t.mode == 0 || h.configured t.port) && (t.tenant == 0 || h.on .MC_PRIV_tx_any_tenant c)

/-- A slot consumed. -/
def Hw.txNext (h : Hw) (c : Nat) : Hw := h.wr .MC_TXCONS_cons (h.rd .MC_TXCONS_cons c + 1) c

/-- A slot skipped (R382). -/
def Hw.txSkip (h : Hw) (c : Nat) : Hw :=
  let h := (h.wr .MC_TXSTAT_invalid 1 c).wr .MC_TXSTAT_slot (h.rd .MC_TXCONS_cons c) c
  (h.count .MC_CNT_count 6).txNext c

/-- What travels beside a clerk's frame. -/
def clerkInfo (fid : Nat) : FrInfo := ⟨fid, 0, false, true, false, false, false, none, 0x3FF, [], none, 0x3FF⟩

/-- An INJECT slot of a clerk taken for a parser lane (R381), its frame dropped where the slice takes none (R44, R464). No TC entry is
read for it, and its tc_context is 0 (R105; log entry 83). -/
def Hw.clerkInject (h : Hw) (c n pipe : Nat) (disagree : Bool) : Hw :=
  match h.txHead c with
  | none => h
  | some (a, t) =>
    if !h.txValid c t then (if t.mode = 1 then h else h.txSkip c)
    else if t.mode ≠ 0 ∨ portSl t.port ≠ n then h
    else
      let d := h.load (a + 32) t.len
      let d := d ++ fcsOf d
      let took (h : Hw) : Hw := (((h.txNext c).count .MC_CNT_count 2).pmClerk c 0x0D).maskUse n [sliceWord]
      if h.sliceFrozen n then (took h).paDrop n pipe 0x85 t.tenant d.length
      else if h.inactive n then (took h).paDrop n pipe 0x11 t.tenant d.length
      else if h.held then (took h).paDrop n pipe 0x86 t.tenant d.length
      else if !h.admits n pipe then h
      else
        let (id, h) := (took h).fresh
        let m : MdIn := ⟨t.tenant, tagCheck t.tenant h.current t.port h.now, h.current, 0, true, false, false, false, t.port, h.now,
          d.length, 0, 0⟩
        h.admitCarried n pipe m d (some 0) (clerkInfo id) disagree

/-- CLERK_INJECT (R381): `disagree` says that the two extractors of the lane do (R100). -/
def execClerkInject (c : Clerk) (n : Slice) (pipe : InjectLane) (s : State) : Host.Outcome State Fault Refusal :=
  onTx (fun h => h.clerkInject c n pipe.pipe pipe.disagree) s

/-- MD of a DIRECT frame (R381): bytes 18 to 39, which a parser would write, are zero but for the carried flag. -/
def directMd (t : TxSlot) (ed now len : Nat) : List Byte :=
  let md := beBytes 2 t.tenant ++ beBytes 2 (tagCheck t.tenant ed t.port now) ++ beBytes 1 (128 * ed) ++ beBytes 1 128
    ++ beBytes 2 t.port ++ beBytes 8 now ++ beBytes 2 len
  let md := mdSet (padTo 48 md) 40 2 (0x1000 + t.port)
  mdSet (mdSet md 42 1 (16 * t.queue)) 46 2 len ++ padTo 16 t.free

/-- A DIRECT slot of a clerk taken (R381): its frame is created, charged as new to the held count, and meets its queue. -/
def Hw.clerkDirect (h : Hw) (c : Nat) : Hw :=
  match h.txHead c with
  | none => h
  | some (a, t) =>
    if !h.txValid c t then (if t.mode = 0 then h else h.txSkip c)
    else if t.mode ≠ 1 then h
    else
      let n := portSl t.port
      let d := h.load (a + 32) t.len
      let d := d ++ fcsOf d
      let h := ((h.txNext c).count .MC_CNT_count 3).pmClerk c 0x0D
      let h := h.ledger 8 [] 1 1 0
      if h.inactive n && !h.sliceFrozen n then (h.dropped n 0x11 t.tenant 15 t.port).errHeld 8 t.tenant d.length
      else
        let (fid, h) := h.fresh
        let (id, h) := h.arrive n (8, 15, n) (directMd t h.current h.now d.length) (clerkInfo fid) d c
        match h.landing? id with
        | some l => (h.setLanding { l with tail := some 0 }).writeLanding id
        | none => h

/-- CLERK_DIRECT (R381). -/
def execClerkDirect (c : Clerk) (s : State) : Host.Outcome State Fault Refusal := onTx (fun h => h.clerkDirect c) s

/-! ### Fuses (R387) -/

/-- A write of MC_FUSECMD: accepted only from clerk 0 while priv_lock is 0, and never for the key of the running image or for a
minimum that is not above the current one; a reserved op is ignored whole. -/
def Hw.fuseCmd (h : Hw) (o : Originator) (v : Nat) : Hw :=
  let op := bits v 57 56
  let arg := bits v 5 0
  if op = 0 ∨ op = 3 then h
  else
  let h := if bit v 61 then h.wr .MC_FUSECMD_refused 0 else h
  if !bit v 63 then h
  else if o ≠ .clerk 0 ∨ h.on .MC_CTRL_priv_lock = true then h.wr .MC_FUSECMD_refused 1
  else if op = 1 then
    if 3 < arg ∨ arg = h.rd .MC_BOOT_key then h.wr .MC_FUSECMD_refused 1
    else (h.setBit .MC_FUSE_revoked arg).note (.revoke arg)
  else if arg ≤ h.rd .MC_FUSE_min_version then h.wr .MC_FUSECMD_refused 1
  else (h.wr .MC_FUSE_min_version arg).note (.raiseVersion arg)

/-- FUSE_REVOKE (R387). -/
def execFuseRevoke (o : Originator) (v : Word) (s : State) : Host.Outcome State Fault Refusal :=
  onTx (fun h => if bits v.toNat 57 56 = 1 then h.fuseCmd o v.toNat else h) s
/-- FUSE_RAISE (R387). -/
def execFuseRaise (o : Originator) (v : Word) (s : State) : Host.Outcome State Fault Refusal :=
  onTx (fun h => if bits v.toNat 57 56 = 2 then h.fuseCmd o v.toNat else h) s

end Sys2Proof.Machine
end

