-- ==== Sys2Proof/Machine/Boot.lean ====
section
/-! DEFINITION. The boot ROM: sources, the boot image with its checks, loading and starting, and boot recovery
(spec/16_clerks_and_boot.md, R383 to R388). -/

namespace Sys2Proof.Machine

/-- The boot ROM's staging area, and its size (R385). -/
def bootArea : Nat := 0x10800000
/-- The size of the boot ROM's staging area, and the largest image. -/
def bootAreaSize : Nat := 0x800000

/-- The sources of a strap value (R383): 0 and 1 the flashes, 2 HOST. -/
def bootOrder (straps : Nat) : List Nat :=
  match straps with
  | 0 => [0, 1, 2]
  | 1 => [1, 0, 2]
  | 2 => [2]
  | _ => []

/-- Whether the boot ROM serves the teller window (R383, R388). -/
def Hw.romServes (h : Hw) : Bool := h.rd .TW_HSTATUS_phase != 2

/-! ### The image (R384) -/

/-- A section: its type, clerk, length, target, and its place in the payload. -/
structure Section where
  type : Nat
  clerk : Nat
  len : Nat
  target : Nat
  at' : Nat
  deriving DecidableEq, Repr

/-- The sections of a table of `n` entries from entry `k`, the payload filled up to `at'`. -/
def bootSections (d : List Byte) (at' k : Nat) : Nat → List Section
  | 0 => []
  | n + 1 =>
    let e := 128 + 16 * k
    let len := leNat (slice d (e + 4) 4)
    ⟨byteAt d e, byteAt d (e + 1), len, leNat (slice d (e + 8) 8), at'⟩ :: bootSections d (at' + ceilDiv len 8 * 8) (k + 1) n

/-- The payload length of an image. -/
def bootPayload (d : List Byte) : Nat := leNat (slice d 8 4)
/-- The sections of an image. -/
def imageSections (d : List Byte) : List Section := bootSections d 512 0 (leNat (slice d 6 2))

/-- Whether a section's type, clerk and length are in range. -/
def sectionOk (x : Section) : Bool :=
  match x.type with
  | 1 => decide (x.clerk < 8) && decide (x.len ≤ 16384) && x.len % 8 == 0
  | 2 => decide (x.clerk < 8) && decide (x.len ≤ 65536) && x.len % 64 == 0
  | 3 => true
  | 4 => x.len == 128
  | 5 => x.len == 64
  | _ => false

/-- Check 1 of R385, over the header. -/
def bootFormat (d : List Byte) : Bool :=
  let n := leNat (slice d 6 2)
  let ss := imageSections d
  slice d 0 4 == [0x4F#8, 0x4B#8, 0x43#8, 0x42#8] && leNat (slice d 4 2) == 1 && decide (1 ≤ n) && decide (n ≤ 24)
    && bootPayload d % 8 == 0 && decide (608 + bootPayload d ≤ bootAreaSize)
    && ss.all sectionOk && (ss.map (fun x => ceilDiv x.len 8 * 8)).foldl (· + ·) 0 == bootPayload d
    && ((ss.filter (fun x => x.type == 4)).length == 1) && ((ss.filter (fun x => x.type == 5)).length == 1)

/-- The fused key whose hash the image's key has, present and not revoked (R385). -/
def Hw.bootKey (h : Hw) (d : List Byte) : Option Nat :=
  let k := sha384 (slice d 32 96)
  (List.range 4).find? (fun i =>
    bit (h.rd .MC_FUSE_present) i && !bit (h.rd .MC_FUSE_revoked) i && k == Config.keyHash i)

/-- Whether the image's signature verifies under its key (R385). -/
def bootSigned (d : List Byte) : Bool :=
  let e := 512 + bootPayload d
  ecdsaVerify (beNat (slice d 32 48)) (beNat (slice d 80 48)) (sha384 (d.take e)) (beNat (slice d e 48)) (beNat (slice d (e + 48) 48))

/-- The image's 64-bit word at a byte offset. -/
def imageWord (d : List Byte) (i : Nat) : Nat := leNat (slice d i 8)

/-- The eight words of the k-th nano-word of a section. -/
def imageNano (d : List Byte) (x : Section) (k : Nat) : List Nat := (List.range 8).map (fun w => imageWord d (x.at' + 64 * k + 8 * w))

/-- Whether a section's content and target are valid (check 5 of R385). -/
def sectionLoads (d : List Byte) (x : Section) : Bool :=
  match x.type with
  | 1 => (List.range (x.len / 8)).all (fun a => microCause (imageWord d (x.at' + 8 * a)) == 0)
  | 2 => (List.range (x.len / 64)).all (fun k => nanoCause true (16 + x.clerk) (wordsNat (imageNano d x k)) == 0)
  | 3 =>
    (decide (0x10000000 ≤ x.target) && decide (x.target + x.len ≤ bootArea))
      || (decide (0x11000000 ≤ x.target) && decide (x.target < 0x11400000)
          && decide (x.target % 0x80000 + x.len ≤ 0x80000))
  | _ => true

/-- The result of the checks of R385, in their order (R386): 1 if the image is accepted. -/
def Hw.bootJudge (h : Hw) (d : List Byte) : Nat :=
  if d.length < 512 then 2
  else if !bootFormat d then 3
  else if d.length < 608 + bootPayload d then 2
  else if (h.bootKey d).isNone then 4
  else if !bootSigned d then 5
  else if byteAt d 12 % 64 < h.rd .MC_FUSE_min_version then 6
  else if !(imageSections d).all (sectionLoads d) then 7
  else 1

/-! ### Loading and starting (R384, R386) -/

/-- A section loaded. START only sets the entries. -/
def Hw.loadSection (h : Hw) (d : List Byte) (x : Section) : Hw :=
  match x.type with
  | 1 => h.each (x.len / 8) (fun h a => h.setStore .MC_UW 0 0 (2048 * x.clerk + a) (imageWord d (x.at' + 8 * a)))
  | 2 => h.each (x.len / 64) (fun h k =>
      h.each 8 (fun h w => h.setStore .MC_NW 0 0 ((1024 * x.clerk + k) * 8 + w) (nth (imageNano d x k) w 0)))
  | 3 => h.store x.target (slice d x.at' x.len)
  | 4 => h.each 8 (fun h c =>
      (h.setVal .MC_PRIV (imageWord d (x.at' + 16 * c) &&& (regRow .MC_PRIV).rw) c).setVal .MC_HBMWIN
        (imageWord d (x.at' + 16 * c + 8) &&& (regRow .MC_HBMWIN).rw) c)
  | 5 => h.each 8 (fun h c => h.wr .MC_ENTRY_entry (imageWord d (x.at' + 8 * c)) c)
  | _ => h

/-- The clerks that the image's START section marks. -/
def bootStarts (d : List Byte) : List Nat :=
  (List.range 8).filter (fun c =>
    (imageSections d).any (fun x => x.type == 5 && bit (imageWord d (x.at' + 8 * c)) 63))

/-- The staging area zeroed. -/
def Hw.zeroArea (h : Hw) : Hw :=
  { h with mem := h.mem.filter (fun c => !(decide (bootArea ≤ c.1) && decide (c.1 < bootArea + bootAreaSize))) }

/-- An accepted image loaded, and the marked clerks started (R386). -/
def Hw.bootLoad (h : Hw) (d : List Byte) : Hw :=
  let h := h.over (imageSections d) (fun h x => h.loadSection d x)
  let h := (h.zeroArea.wr .MC_CTRL_priv_lock 1).wr .MC_BOOT_key ((h.bootKey d).getD 0)
  let h := (h.wr .MC_BOOT_sec_version (byteAt d 12)).wr .MC_BOOT_image_version (leNat (slice d 16 4))
  let h := h.wr .TW_HSTATUS_phase 2
  (h.over (bootStarts d) (fun h c => ((h.setClerk c (fun x => { x with ua := h.rd .MC_ENTRY_entry c })).setClerkState c 1))).watch

/-- A source's result recorded in MC_BOOT. -/
def Hw.bootResult (h : Hw) (src r : Nat) : Hw :=
  match src with
  | 0 => h.wr .MC_BOOT_result_cs0 r
  | 1 => h.wr .MC_BOOT_result_cs1 r
  | _ => h.wr .MC_BOOT_result_host r

/-- Boot recovery (R388). -/
def Hw.bootRecovery (h : Hw) : Hw :=
  let h : Hw := { h with io := { h.io with sources := [] } }
  if h.rd .TW_HSTATUS_phase = 1 then h else ((h.wr .MC_BOOT_source 3).wr .TW_HSTATUS_phase 1).raise 0xE02 8

/-- An image from a source judged (R385, R386): loaded, or its result recorded and the source left. -/
def Hw.bootTry (h : Hw) (src : Nat) (image : Option (List Byte)) : Hw :=
  let r := match image with | some d => h.bootJudge d | none => 2
  let h := h.bootResult src r
  match image with
  | some d =>
    if r = 1 then ({ h with io := { h.io with sources := [] } } : Hw).wr .MC_BOOT_source src |>.bootLoad d
    else h.raise 0xE01 8
  | none => h.raise 0xE01 8

/-- BOOT_START (R386): the straps sampled, every clerk HALTED, MC_BOOT cleared; the SerDes references are
present (R459); strap 3 waits in recovery. -/
def execBootStart (straps : Fin 4) (s : State) : Host.Outcome State Fault Refusal :=
  onHw (fun h =>
    if h.io.rom || !h.romServes then h
    else
      let h : Hw := { h with io := { h.io with rom := true, sources := bootOrder straps } }
      let h := ((h.wr .GL_STRAPS_boot_src straps).setVal .MC_BOOT 0).wr .MC_STATUS_state 0
      let h := h.each 8 (fun h n => h.wr .SD_REFSTAT_present 7 0 n)
      if straps = 3 then h.bootRecovery else h) s

/-- BOOT_SOURCE_DONE (R385, R386): the flash at the head of the order has delivered an image, staged and judged, or failed to read.
HOST waits for its load-image slip, whose last word judges the image (R403). -/
def execBootSourceDone (image : Option (List Byte)) (s : State) : Host.Outcome State Fault Refusal :=
  onHw (fun h =>
    match h.io.sources with
    | src :: rest =>
      if src = 2 then h
      else
        let h : Hw := { h with io := { h.io with sources := rest } }
        let h := match image with | some d => h.store bootArea (d.take bootAreaSize) | none => h
        h.bootTry src image
    | [] => h) s

/-- The image that a load-image slip has staged, judged (R403): a failure leaves the device in boot recovery. -/
def Hw.bootHost (h : Hw) : Hw :=
  let n := 608 + bootPayload (h.load bootArea 512)
  let h := h.bootTry 2 (some (h.load bootArea (min n bootAreaSize)))
  if h.rd .MC_BOOT_result_host = 1 then h else h.bootRecovery

end Sys2Proof.Machine
end

