-- ==== Sys2Proof/Machine/Check.lean ====
section
/-! DEFINITION. The general check units (spec/14_check_value_units.md, R332, R333, R338 to R342). A unit processes its writes in
arrival order, so each command is processed as it is taken. -/

namespace Sys2Proof.Machine

/-- The check of a poly code. -/
def polyKind (p : Nat) : CrcKind := nth [crc32, crc32c, crc16] p crc64

/-- A write to a unit: by its owner it has its effect; by anyone else it is discarded and sets foreign (R338). `who` is a clerk, or
16 for the host and the boot ROM. -/
def Hw.ckWrite (h : Hw) (who u : Nat) (f : Hw → Hw) : Hw :=
  if h.rd .CK_UCTRL_owner u = who then f h
  else (h.wr .CK_USTATUS_foreign 1 u).count .CK_CNT_count 3

/-- The poly in force in a unit, latched at START. -/
def Hw.ckPoly (h : Hw) (u : Nat) : CrcKind := polyKind (h.rd .CK_UCTRL_poly u 0 1)
/-- The bytes of a word in the order in force in a unit, latched at START. -/
def Hw.ckBytes (h : Hw) (u v : Nat) : List Byte := if h.on .CK_UCTRL_order u 0 1 then beBytes 8 v else leBytes 8 v

/-- Bytes fed to a unit. -/
def Hw.ckFeed (h : Hw) (u : Nat) (d : List Byte) : Hw :=
  (h.setVal .CK_URESULT (crc (h.ckPoly u) (h.val .CK_URESULT u) d) u).countSat .CK_USTATUS_bytes u 0 d.length

/-- The fields of CK_UCTRL stored. -/
def Hw.ckFields (h : Hw) (u v : Nat) : Hw :=
  ((h.wr .CK_UCTRL_poly (bits v 53 52) u).wr .CK_UCTRL_order (bits v 51 51) u).wr .CK_UCTRL_fault_en (bits v 50 50) u
    |>.wr .CK_UCTRL_int_en (bits v 49 49) u

/-- CK_UCTRL written (R338): a claim of a free unit, the owner's fields, a release. -/
def Hw.ckCtrl (h : Hw) (who u v : Nat) : Hw :=
  let h := if bit v 63 && h.rd .CK_UCTRL_owner u == 15 && decide (who < 8) then h.wr .CK_UCTRL_owner who u else h
  h.ckWrite who u (fun h =>
    let h := h.ckFields u v
    if bit v 62 then h.wr .CK_UCTRL_owner 15 u else h)

/-- CK_CLAIM (R338). -/
def execCkClaim (c : Clerk) (u : Fin 16) (v : Word) (s : State) : Host.Outcome State Fault Refusal :=
  onHw (fun h => h.ckCtrl c u v.toNat) s
/-- CK_RELEASE (R338). -/
def execCkRelease (c : Clerk) (u : Fin 16) (v : Word) (s : State) : Host.Outcome State Fault Refusal :=
  onHw (fun h => h.ckCtrl c u v.toNat) s

/-- A word written to a unit's window (R339). -/
def Hw.ckWindow (h : Hw) (who u v : Nat) : Hw := h.ckWrite who u (fun h => h.ckFeed u (h.ckBytes u v))

/-- CK_WINDOW_WRITE (R339). -/
def execCkWindowWrite (c : Clerk) (u : Fin 16) (v : Word) (s : State) : Host.Outcome State Fault Refusal :=
  onHw (fun h => h.ckWindow c u v.toNat) s

/-- START (R339): poly and order take force. -/
def Hw.ckStart (h : Hw) (u : Nat) : Hw :=
  let h := (h.wr .CK_UCTRL_poly (h.rd .CK_UCTRL_poly u) u 0 1).wr .CK_UCTRL_order (h.rd .CK_UCTRL_order u) u 0 1
  let h := h.setVal .CK_URESULT (h.val .CK_UINIT u % 2 ^ (h.ckPoly u).width) u
  ((h.wr .CK_USTATUS_bytes 0 u).wr .CK_USTATUS_match 0 u).wr .CK_USTATUS_mismatch 0 u
/-- A reserved operation discarded (R339). -/
def Hw.ckBad (h : Hw) (u : Nat) : Hw := h.wr .CK_USTATUS_bad_cmd 1 u
/-- TAIL (R339): a count of 0 is a reserved encoding, and the write that carries it is ignored (R516). -/
def Hw.ckTail (h : Hw) (u count : Nat) : Hw :=
  if count = 0 then h else h.ckFeed u ((h.ckBytes u (h.val .CK_UTAIL u)).take count)
/-- The structure codes that R337 lists; every other code is reserved. -/
def structureCodes : List Nat :=
  [0x01, 0x02, 0x40, 0x50, 0x60, 0x61] ++ (List.range 3).map (0x08 + ·) ++ (List.range 5).map (0x10 + ·)
    ++ (List.range 10).map (0x20 + ·) ++ (List.range 8).map (0x30 + ·)
/-- FOLD (R339): a write with a reserved structure code is ignored (R337, R516). -/
def Hw.ckFold (h : Hw) (u code : Nat) : Hw :=
  if structureCodes.contains code then h.ckFeed u (beBytes 1 code ++ beBytes 8 (h.val .CK_UFOLD u)) else h
/-- COMPARE (R339 to R341): `agree` says whether the unit's two engines agree. -/
def Hw.ckCompare (h : Hw) (u : Nat) (agree : Bool) : Hw :=
  let h := h.count .CK_CNT_count 0
  let w := (h.ckPoly u).width
  if !agree then ((h.wr .CK_USTATUS_unit_fault 1 u).raise 0x902 8).count .CK_CNT_count 2
  else if h.val .CK_URESULT u % 2 ^ w = h.val .CK_UEXPECT u % 2 ^ w then h.wr .CK_USTATUS_match 1 u
  else
    let h := (h.wr .CK_USTATUS_mismatch 1 u).count .CK_CNT_count 1
    if h.on .CK_UCTRL_fault_en u then h.raise 0x901 8 else h

/-- CK_UCMD written (R339). -/
def Hw.ckCmd (h : Hw) (who u v : Nat) (agree : Bool) : Hw :=
  h.ckWrite who u (fun h =>
    match bits v 2 0 with
    | 1 => h.ckStart u
    | 2 => h.ckTail u (bits v 10 8)
    | 3 => h.ckFold u (bits v 23 16)
    | 4 => h.ckCompare u agree
    | _ => h.ckBad u)

/-- CK_START (R339). -/
def execCkStart (c : Clerk) (u : Fin 16) (s : State) : Host.Outcome State Fault Refusal :=
  onHw (fun h => h.ckCmd c u 1 true) s
/-- CK_TAIL (R339). -/
def execCkTail (c : Clerk) (u : Fin 16) (count : Fin 8) (s : State) : Host.Outcome State Fault Refusal :=
  onHw (fun h => h.ckCmd c u (2 + count.val * 256) true) s
/-- CK_FOLD (R339). -/
def execCkFold (c : Clerk) (u : Fin 16) (code : Byte) (s : State) : Host.Outcome State Fault Refusal :=
  onHw (fun h => h.ckCmd c u (3 + code.toNat * 65536) true) s
/-- CK_COMPARE (R341). -/
def execCkCompare (c : Clerk) (u : Fin 16) (agree : Bool) (s : State) : Host.Outcome State Fault Refusal :=
  onHw (fun h => h.ckCmd c u 4 agree) s

/-- CK_STATUS, computed from the units. -/
def Hw.ckStatus (h : Hw) : Nat :=
  ((List.range 16).map (fun u => (ofBool (h.rd .CK_UCTRL_owner u != 15) <<< (16 + u))
    + (h.rd .CK_USTATUS_mismatch u <<< u))).foldl (· + ·) 0

end Sys2Proof.Machine
end

