-- ==== Sys2Proof/Machine/DeepBuffer.lean ====
section
/-! DEFINITION. The deep buffer: regions, blocks, spilling, draining and purge walks
(spec/15_hbm_controller.md, R359 to R366). -/

namespace Sys2Proof.Machine

/-- Bytes of a block and of its header (R360). -/
def blockBytes : Nat := 16384
/-- Address of a slice's block. -/
def Hw.blockAddr (h : Hw) (n b : Nat) : Nat := h.rd .HM_DB_base n + blockBytes * b
/-- The number that stands for no block. -/
def noBlock : Nat := 0xFFFFFFFF

/-- The header of a block (R360). -/
def blockHeader (n q bseq copies used next : Nat) : List Byte :=
  leBytes 2 (8192 * n + q) ++ [0#8, 0#8] ++ leBytes 4 bseq ++ leBytes 2 copies ++ leBytes 2 used ++ leBytes 4 next
    ++ List.replicate 48 0#8

/-- A spilled copy as packed (R360). -/
def packCopy (len requester colour : Nat) (replica : Bool) (q admitted : Nat) (ext bytes : List Byte) : List Byte :=
  let d := leBytes 2 (len % 16384) ++ [BitVec.ofNat 8 (requester % 128), BitVec.ofNat 8 (colour % 4 + 4 * ofBool replica)]
    ++ leBytes 2 q ++ [0#8, 0#8] ++ leBytes 8 admitted ++ List.replicate 16 0#8 ++ padTo 64 ext ++ bytes
  padTo (ceilDiv d.length 32 * 32) d

/-- Bytes that a copy of a length takes in a block. -/
def packedSize (len : Nat) : Nat := ceilDiv (96 + len) 32 * 32

/-! ### Blocks taken and freed (R361) -/

/-- Free block numbers read ahead from the linked list (R361): while the slice holds fewer than 32 on die, the head of the list joins
them and the next field of that block, read as SPILL traffic, gives the new head. A next field that cannot be read ends the list
(DESIGN CHOICE, log entry 76). -/
def Hw.refill (h : Hw) (n : Nat) : Nat → Hw
  | 0 => h
  | k + 1 =>
    let d := h.db n
    match d.list with
    | none => h
    | some b =>
      if 32 ≤ d.stock.length then h
      else
        let a := h.blockAddr n b
        let next := leNat (h.load (a + 12) 4)
        let (ok, h) := h.fetch 2 a 64
        (h.setDb n { d with
          stock := d.stock ++ [b], list := if ok && next < h.rd .HM_DB_blocks n then some next else none }).refill n k

/-- A block taken (R361): from the numbers on die, which the linked list refills, else above the high-water mark. -/
def Hw.takeBlock (h : Hw) (n : Nat) : Option (Nat × Hw) :=
  let h := h.refill n 32
  let d := h.db n
  let used (h : Hw) : Hw := h.wr .HM_DB_STAT_in_use (h.rd .HM_DB_STAT_in_use n + 1) n
  match d.stock with
  | b :: r => some (b, used (h.setDb n { d with stock := r }))
  | [] =>
    if d.high < h.rd .HM_DB_blocks n then
      some (d.high, used ((h.setDb n { d with high := d.high + 1 }).wr .HM_DB_STAT_high_water (d.high + 1) n))
    else none

/-- A block put at the head of the free list, linked through its next field. -/
def Hw.freeBlock (h : Hw) (n b : Nat) : Hw :=
  let d := h.db n
  let h := (h.store (h.blockAddr n b + 12) (leBytes 4 (d.list.getD noBlock))).granules 2 (h.blockAddr n b) 64
  (h.setDb n { d with list := some b }).wr .HM_DB_STAT_in_use (h.rd .HM_DB_STAT_in_use n - 1) n

/-- The open block of a queue closed: its header is written (R362, R363). -/
def Hw.closeBlock (h : Hw) (n q next : Nat) : Hw :=
  let x := h.queue n q
  match x.isOpen, x.blocks.getLast? with
  | true, some b =>
    let h := h.store (h.blockAddr n b) (blockHeader n q ((x.bseq + 2 ^ 32 - 1) % 2 ^ 32) x.packed x.fill next)
    (h.setQueue n q { x with isOpen := false, fill := 0, packed := 0 }).granules 2 (h.blockAddr n b) 64
  | _, _ => h

/-- A packed copy put into the queue's blocks (R362): into the open block, or into a newly taken one, whose number then
stands in the closed block's header. None when the region is full. -/
def Hw.packInto (h : Hw) (n q : Nat) (d : List Byte) (len ed : Nat) (info : FrInfo) : Option Hw :=
  let put (h : Hw) : Hw :=
    let x := h.queue n q
    let b := x.blocks.getLastD 0
    let a := h.blockAddr n b + 64 + x.fill
    let h := h.setDb n { h.db n with packed := (h.db n).packed ++ [⟨b, x.fill, len, ed, info⟩] }
    ((h.store a d).granules 2 a d.length).setQueue n q { x with fill := x.fill + d.length, packed := x.packed + 1 }
  let x := h.queue n q
  if x.isOpen && decide (x.fill + d.length ≤ blockBytes - 64) then some (put h)
  else
    match h.takeBlock n with
    | none => none
    | some (b, h) =>
      let h := h.closeBlock n q b
      let x := h.queue n q
      some (put (h.setQueue n q { x with
        blocks := x.blocks ++ [b], isOpen := true, fill := 0, packed := 0, bseq := (x.bseq + 1) % 2 ^ 32 }))

/-- SPILL_WRITE (R362): the oldest copy of a queue that awaits its block is packed into it, whole, its buffer freed and
DEEP_BUFFER charged (R261). Without a tracker or tokens it waits (R346, R348). -/
def Hw.spillWrite (h : Hw) (n c : Nat) : Hw :=
  match h.queues.find? (fun e => e.1 / 2048 == n && (e.2.spill.head?.map (·.id)) == some c) with
  | none => h
  | some (k, x) =>
    let q := k % 2048
    match x.spill with
    | [] => h
    | y :: r =>
      match h.buf? n y.desc.buffer y.desc.tag with
      | none => h
      | some b =>
        if !y.whole || x.purge.isSome then h
        else
          let d := packCopy y.desc.len y.requester y.desc.colour y.desc.replica q y.enq b.ext b.bytes
          let full := (h.spillRefused n).discardCopy n q y 0x6A
          let base := h.rd .HM_DB_base n
          if !h.on .HM_DB_enable n || !h.stackActive base then full
          else if !h.mayAccess (stackOf base) 2 (ceilDiv d.length 64) then h
          else match h.packInto n q d y.desc.len y.desc.ed b.info with
            | none => full
            | some h =>
              let h := h.setQueue n q { h.queue n q with spill := r }
              let h := (h.free n y.desc.buffer y.desc.tag).ledger n [charge y.desc.tenant 11 y.desc.len]
              ((h.qCount n q 5).bump .HM_CNT 0).pm n 0x52 1 none 15 (some y.desc.tenant)

/-- SPILL_WRITE (R362). -/
def execSpillWrite (n : Slice) (c : Nat) (s : State) : Host.Outcome State Fault Refusal :=
  onHw (fun h => h.spillWrite n c) s

/-! ### Draining (R363) -/

/-- DRAIN_BLOCK_READ (R363): the queue's next block is read into the drain stage while its on-die part is low. Without a tracker or
tokens it waits (R346, R348). -/
def Hw.drainRead (h : Hw) (n q : Nat) : Hw :=
  let x := h.queue n q
  let low := decide (x.onDie ≤ 512 * h.rd .TM_QCFG2_spill_kib q n)
  match x.blocks with
  | [] => h
  | b :: r =>
    if !low || x.purge.isSome || decide (16 ≤ x.stage.length) || !h.stackActive (h.rd .HM_DB_base n) then h
    else
      let h := if r.isEmpty then h.closeBlock n q noBlock else h
      let a := h.blockAddr n b
      let used := leNat (h.load (a + 10) 2)
      let size := ceilDiv (64 + used) 64 * 64
      let held := ((h.queues.filter (fun e => e.1 / 2048 == n)).flatMap (fun e => e.2.stage.map (fun s =>
        ceilDiv (64 + s.used) 64 * 64))).foldl (· + ·) 0
      if 524288 < held + size || !h.mayAccess (stackOf a) 0 (size / 64) then h
      else
        let x := h.queue n q
        (h.setQueue n q { x with blocks := r, stage := x.stage ++ [⟨b, used, none⟩] }).granules 0 a size

/-- DRAIN_BLOCK_READ (R363). -/
def execDrainBlockRead (n : Slice) (q : Fin 1536) (s : State) : Host.Outcome State Fault Refusal :=
  onHw (fun h => h.drainRead n q) s

/-- The copy that a block's bytes spell at an offset after its header, with what the slice holds of it. -/
def DbCopy.staged (c : DbCopy) (d : List Byte) : StageCopy :=
  let o := c.off
  ⟨leNat (slice d o 2) % 16384, byteAt d (o + 2) % 128, byteAt d (o + 3) % 4, bit (byteAt d (o + 3)) 2, leNat (slice d (o + 8) 8),
    slice d (o + 32) 64, slice d (o + 96) (leNat (slice d o 2) % 16384), c.info, false⟩

/-- The offsets at which the copy headers of a block lie, each found from the length in the one before it, up to the first header
that does not name the queue or runs past the bytes used; and whether there is none such. -/
def copyOffsets (q used : Nat) (d : List Byte) : Nat → Nat → List Nat × Bool
  | 0, _ => ([], true)
  | k + 1, o =>
    let size := packedSize (leNat (slice d o 2) % 16384)
    if used < o + size ∨ leNat (slice d (o + 4) 2) ≠ q then ([], false)
    else
      let (os, ok) := copyOffsets q used d k (o + size)
      (o :: os, ok)

/-- What the checks of R365 and R366 make of a block read for a queue: whether the block stands, the copies that pass, and those
dropped, each with its reason, tenant, edition bit and length. A block that fails loses every copy packed into it. -/
def Hw.judgeBlock (h : Hw) (n q b : Nat) : Bool × List StageCopy × List (Nat × Nat × Nat × Nat) :=
  let a := h.blockAddr n b
  let hd := h.load a 64
  let used := min (leNat (slice hd 10 2)) (blockBytes - 64)
  let d := h.load (a + 64) used
  let held := (h.db n).packed.filter (fun c => c.block == b)
  let (os, whole) := copyOffsets q used d (min (leNat (slice hd 8 2)) 512) 0
  let headsOk := h.readable a 64 && leNat (slice hd 0 2) == 8192 * n + q && leNat (slice hd 4 4) == (h.queue n q).head
  if whole && headsOk && os == held.map (·.off) && os.all (fun o => h.readable (a + 64 + o) 32) then
    let ok (c : DbCopy) : Bool := h.readable (a + 64 + c.off) (96 + (c.staged d).len)
    (true, (held.filter ok).map (fun c => c.staged d),
      ((held.filter (fun c => !ok c)).map (fun c => c.staged d)).map (fun c => (0x70, mdTenant c.ext, mdEdition c.ext, c.len)))
  else (false, [], held.map (fun c => (0x71, 0, c.ed, c.len)))

/-- A copy of the deep buffer resolved with a reason (R364, R366): the queue's occupancy and count follow. -/
def Hw.dropDeep (h : Hw) (n q reason tenant ed len : Nat) : Hw :=
  let x := h.queue n q
  let h := h.setQueue n q { x with occ := x.occ - len, cnt := x.cnt - 1, hbm := x.hbm - len }
  h.resolveCopy n q reason tenant ed len

/-- A block of a queue that has been read, judged for a class: it goes back to the free list, or, inconsistent, is withheld
(R366). Answers the copies that pass. -/
def Hw.takeInBlock (h : Hw) (n q b cls : Nat) : List StageCopy × Hw :=
  let a := h.blockAddr n b
  let used := min (leNat (h.load (a + 10) 2)) (blockBytes - 64)
  let (ok, good, bad) := h.judgeBlock n q b
  let (_, h) := h.probe cls a (64 + used)
  let h := h.over bad (fun h c => h.dropDeep n q c.1 c.2.1 c.2.2.1 c.2.2.2)
  let h := h.setDb n { h.db n with packed := (h.db n).packed.filter (fun c => c.block != b) }
  let x := h.queue n q
  let h := h.setQueue n q { x with head := (x.head + 1) % 2 ^ 32 }
  if ok then (good, h.freeBlock n b)
  else ([], (h.raise 0x715 n).countSat .HM_DB_STAT_lost n)

/-- DRAIN_BLOCK_ARRIVED (R363): the oldest block in the stage that has not arrived is checked and freed; its copies wait
there for buffers. -/
def Hw.drainArrived (h : Hw) (n q : Nat) : Hw :=
  let x := h.queue n q
  match x.stage.find? (fun s => s.copies.isNone) with
  | none => h
  | some s =>
    if x.purge.isSome then h
    else
      let (cs, h) := h.takeInBlock n q s.block 0
      let h := h.bump .HM_CNT 1
      let x := h.queue n q
      let st := if cs.isEmpty then delFirst (fun y => y.copies.isNone) x.stage
        else updFirst (fun y => y.copies.isNone) (fun y => { y with copies := some cs }) x.stage
      h.setQueue n q ({ x with stage := st } : QueueSt).rested

/-- DRAIN_BLOCK_ARRIVED (R363). -/
def execDrainBlockArrived (n : Slice) (q : Fin 1536) (s : State) : Host.Outcome State Fault Refusal :=
  onHw (fun h => h.drainArrived n q) s

/-! ### Purge walks (R364) -/

/-- The blocks of a queue that a walk has to read, in order. -/
def QueueSt.walkBlocks (x : QueueSt) : List Nat :=
  (x.stage.filter (fun s => s.copies.isNone)).map (·.block) ++ x.blocks

/-- PURGE_WALK (R364): every copy of the queue's HBM part, in the stage or in blocks, is disposed of with the walk's reason
or, for a walk of one edition bit, rewritten in order. Nothing moves while the region's stack is not ACTIVE. -/
def Hw.purgeWalk (h : Hw) (n q : Nat) : Hw :=
  let x := h.queue n q
  match x.purge with
  | none => h
  | some p =>
    if !h.stackActive (h.rd .HM_DB_base n) then h
    else
      let h := h.closeBlock n q noBlock
      let staged := x.stage.flatMap (fun s => s.copies.getD [])
      let r := x.walkBlocks.foldl (fun (a : List StageCopy × Hw) b =>
        let size := 64 + min (leNat (a.2.load (a.2.blockAddr n b + 10) 2)) (blockBytes - 64)
        let (cs, h) := (a.2.granules 2 (a.2.blockAddr n b) size).takeInBlock n q b 2
        (a.1 ++ cs, h)) (staged, h)
      let (all, h) := r
      let gone (c : StageCopy) : Bool := match p.only with | none => true | some b => mdEdition c.ext == b
      let drop (h : Hw) (reason : Nat) (c : StageCopy) : Hw := h.dropDeep n q reason (mdTenant c.ext) (mdEdition c.ext) c.len
      let h := h.over (all.filter gone) (fun h c => drop h p.reason c)
      let h := h.setQueue n q ({ h.queue n q with
        blocks := [], stage := [], isOpen := false, fill := 0, packed := 0, purge := none } : QueueSt).rested
      let h := h.setQueue n q { h.queue n q with head := (h.queue n q).bseq }
      let h := h.over (all.filter (fun c => !gone c)) (fun h c =>
        (h.packInto n q (packCopy c.len c.requester c.colour c.replica q c.admitted c.ext c.bytes) c.len (mdEdition c.ext) c.info).getD
          (drop h 0x6A c))
      let h := (h.bump .HM_CNT 2).setBit .HM_EVENT_events 5
      if h.queues.any (fun e => e.1 / 2048 == n && e.2.purge.isSome) then h else h.wr .HM_DB_STAT_purging 0 n

/-- PURGE_WALK (R364). -/
def execPurgeWalk (n : Slice) (q : Fin 1536) (s : State) : Host.Outcome State Fault Refusal :=
  onHw (fun h => h.purgeWalk n q) s

/-! ### Regions and accounting (R359, R365) -/

/-- DB_ACCOUNT_CHECK (R365): the slice's blocks in use against its queues' blocks, those still arriving, and the withheld. -/
def execDbAccountCheck (n : Slice) (s : State) : Host.Outcome State Fault Refusal :=
  onHw (fun h =>
    let held := ((h.queues.filter (fun e => e.1 / 2048 == n.val)).map (fun e => e.2.walkBlocks.length)).foldl (· + ·) 0
    if h.rd .HM_DB_STAT_in_use n = held + h.rd .HM_DB_STAT_lost n then h else h.raise 0x716 n) s

/-- Whether a word of HM_DB with enable 1 names a region that R359 admits. -/
def regionOk (v : Nat) : Bool :=
  let blocks := bits v 60 40
  let base := bits v 39 14 * 16384
  decide (16 ≤ blocks) && decide (blocks ≤ 1048576) && inHbm base && inHbm (base + blockBytes * blocks - 1)
    && stackOf base == stackOf (base + blockBytes * blocks - 1)

/-- A write to HM_DB (R359): refused while the region holds a block in use that is not withheld, and when enable is 1 with a
region out of range. -/
def Hw.regionWrite (h : Hw) (n v : Nat) : Hw :=
  if h.rd .HM_DB_STAT_lost n < h.rd .HM_DB_STAT_in_use n ∨ (bit v 63 = true ∧ regionOk v = false) then
    h.wr .HM_DB_STAT_refused 1 n
  else
    let h := h.setVal .HM_DB ((bits v 63 63 <<< 63) + (bits v 60 40 <<< 40) + bits v 39 14 * 16384) n
    let h := ((h.wr .HM_DB_STAT_in_use 0 n).wr .HM_DB_STAT_lost 0 n).wr .HM_DB_STAT_high_water 0 n
    h.setDb n DbSt.empty

/-- HM_DB_WRITE (R359). -/
def execHmDbWrite (n : Slice) (v : Word) (s : State) : Host.Outcome State Fault Refusal :=
  onHw (fun h => h.regionWrite n v.toNat) s

end Sys2Proof.Machine
end

