-- ==== Sys2Proof/Machine/Ports.lean ====
section
/-! DEFINITION. Ports: the receive chain, early release and tail status, lane maps, enabling and disabling, link states and
events, PRBS (spec/03_ports_and_links.md, R58 to R79; R14 of 01; R271, R286 of 11 and 12; R203 of 08). -/

namespace Sys2Proof.Machine

/-! ### Modes and lanes (R58 to R60) -/

/-- The number of lanes of a mode. -/
def modeLanes (m : Nat) : Nat := nth [0, 8, 8, 4, 8, 4, 2, 4, 2, 1, 2, 1, 1] m 0
/-- The lane rate of a mode as SD_LANESTAT shows it. -/
def modeRate (m : Nat) : Nat := nth [0, 3, 2, 3, 1, 2, 3, 1, 2, 3, 1, 2, 1] m 0
/-- The lanes of a port. -/
def Hw.lanesOf (h : Hw) (p : Nat) : List Nat := (List.range (modeLanes (h.laneMode p))).map (p + ·)
/-- The port that a lane belongs to. -/
def Hw.portOf (h : Hw) (l : Nat) : Option Nat :=
  ((List.range 8).map (l / 8 * 8 + ·)).find? (fun p => decide (p ≤ l) && decide (l < p + modeLanes (h.laneMode p)))
/-- Every lane of a port locked, as PT_STATUS.lanes_locked shows it. -/
def Hw.allLocked (h : Hw) (p : Nat) : Nat := 2 ^ modeLanes (h.laneMode p) - 1
/-- A field of PT_STATUS of a port set. -/
def Hw.ptWr (h : Hw) (f : Fld) (p v : Nat) : Hw := h.wr f v (portIx p) (portSl p)
/-- A field of the lanes of a port set in SD_LANESTAT. -/
def Hw.lanesWr (h : Hw) (f : Fld) (p v : Nat) : Hw := h.over (h.lanesOf p) (fun h l => h.wr f v (l % 96) (l / 96))

/-- The mode codes of a lane map, by lane. -/
def mapModes (v : Nat) : List Nat := (List.range 8).map (fun l => bits v (4 * l + 3) (4 * l))
/-- The lanes that ports of a map take. -/
def mapTaken (ms : List Nat) : List Nat :=
  (List.range 8).flatMap (fun l => (List.range (modeLanes (nth ms l 0))).map (l + ·))

/-- The first condition of R60 that a new map fails: 2 misaligned, 3 overlap, 4 reserved code, 1 a port not DISABLED; 0 for none. -/
def Hw.gmodeCause (h : Hw) (n g v : Nat) : Nat :=
  let new := mapModes v
  let old := mapModes (h.rd .PT_GMODE_lane_mode g n)
  if (List.range 8).any (fun l => let w := modeLanes (nth new l 0); w != 0 && l % w != 0) then 2
  else if (mapTaken new).eraseDups.length ≠ (mapTaken new).length then 3
  else if new.any (fun m => decide (12 < m)) then 4
  else if (List.range 8).any (fun l => nth new l 0 != nth old l 0 && h.rd .PT_STATUS_state (8 * g + l) n != 0) then 1
  else 0

/-- PT_GMODE written (R60): the map replaced, new ports at their reset PT_CFG, or the write refused. -/
def Hw.gmodeWrite (h : Hw) (n g v : Nat) : Hw :=
  let c := h.gmodeCause n g v
  if c ≠ 0 then (h.wr .PT_GSTATUS_refused 1 g n).wr .PT_GSTATUS_cause c g n
  else
    let old := mapModes (h.rd .PT_GMODE_lane_mode g n)
    let h := (h.wr .PT_GMODE_lane_mode v g n).mark ⟨.PT_GMODE, n, 0, g⟩ false
    let h := h.each 8 (fun h l =>
      let m := nth (mapModes v) l 0
      if m ≠ 0 ∧ m ≠ nth old l 0 then h.setReg ⟨.PT_CFG, n, 0, 8 * g + l⟩ (regReset ⟨.PT_CFG, n, 0, 8 * g + l⟩) else h)
    h.each 8 (fun h l =>
      let m := match h.portOf (96 * n + 8 * g + l) with | some p => h.laneMode p | none => 0
      h.wr .SD_LANESTAT_rate (modeRate m) (8 * g + l) n)

/-- The copies of a group's lane map disagree (R85): F-0x122 for each configured port, and every lane of the group is squelched until
the map is written again. -/
def Dev.mapSplit (d : Dev) (n g : Nat) : Dev :=
  let ps := ((List.range 8).map (96 * n + 8 * g + ·)).filter d.hw.configured
  { d with
    hw := (d.hw.over ps (fun h p => h.raise 0x122 n 15 p)).mark ⟨.PT_GMODE, n, 0, g⟩ true
    tx := d.tx.map (fun x => if ps.contains x.port && x.st.started.isSome then
      { x with st := { x.st with squelch := true } } else x) }

/-- GMODE_WRITE (R60, R85): the copies of the map may disagree afterwards. -/
def execGmodeWrite (n : Slice) (g : Fin 12) (v : Word) (copiesAgree : Bool) (s : State) :
    Host.Outcome State Fault Refusal :=
  onDev (fun d =>
    let d := { d with hw := d.hw.gmodeWrite n g (v.toNat % 2 ^ 32) }
    if copiesAgree then d else d.mapSplit n g) s

/-! ### Receive (R73 to R78) -/

/-- The lowest of the reasons that the MAC finds at a frame's last byte (R74, R76, R513): none for a good frame. -/
def macTail (d : List Byte) : Option Nat :=
  let body := d.take (d.length - 4)
  let f := leNat (d.drop (d.length - 4))
  let c := crc crc32 0 body
  lowest ((if f = c then [] else if f = c ^^^ crc32.ones then [0x0C] else [0x01])
    ++ (if d.length < 64 then [0x04] else []) ++ (if etherType d = 0x8808 then [0x0E] else []))

/-- The tail status of a frame from what the PCS and the FEC saw: 0 good. An oversize frame ends at its byte max_len + 1, before
anything later. -/
def Hw.tailReason (h : Hw) (p : Nat) (d : List Byte) (err : RxErr) : Nat :=
  if h.cfg .PT_CFG_max_len p < d.length then 0x05
  else match err with
    | .code => 0x03
    | .fec => 0x02
    | .fifo => 0x0F
    | _ => (macTail d).getD 0

/-- A receive drop counted on its port (R73, R513): charged to no tenant. -/
def Hw.rxFail (h : Hw) (p reason : Nat) : Hw := h.dropped (portSl p) reason 0 15 p

/-- A frame received good, counted on its port. -/
def Hw.rxOk (h : Hw) (p bytes : Nat) : Hw := (h.ptCount p 0).ptCount p 1 bytes

/-- A frame put into the receive FIFO of a port, or discarded there. -/
def Hw.rxQueue (h : Hw) (p : Nat) (x : RxFrame) : Hw :=
  match h.rxStop p with
  | some r => (h.rxDrop p r (if x.early then h.cfg .PT_CFG_max_len p else x.bytes.length)).maskUse (portSl p) [portWord p, sliceWord]
  | none => let s := h.port p; h.setPort p { s with fifo := s.fifo ++ [x] }

/-- A whole frame received on a port that is UP. -/
def Hw.rxWhole (h : Hw) (p : Nat) (d : List Byte) (err : RxErr) (full : Bool) : Hw :=
  let h := h.setPort p { h.port p with orphan := decide (err = .code) }
  if full then (h.rxFail p 0x08).pm (portSl p) 0x02 1 (some (portIx p / 8))
  else
    let r := h.tailReason p d err
    if r ≠ 0 then
      let h := h.rxFail p r
      if r = 0x0F then h.raise 0x120 (portSl p) 15 p else h
    else
      let (id, h) := h.fresh
      let ts := h.now
      if h.on .CX_SECY_rx_en p then
        match h.secVerify p (d.take (d.length - 4)) (err != .cores) with
        | (.error r, h) => h.rxFail p r
        | (.ok b, h) => (h.rxOk p d.length).rxQueue p ⟨id, ts, b ++ fcsOf b, false, some 0,
            if etherType d = 0x88E5 then some d.length else none⟩
      else (h.rxOk p d.length).rxQueue p ⟨id, ts, d, false, some 0, none⟩

/-- RX_FRAME (R73 to R76): data without a start delimiter behind an ended frame is discarded as one event (R75). -/
def execRxFrame (p : Port) (start : Bool) (bytes : List Byte) (err : RxErr) (full : Bool) (s : State) :
    Host.Outcome State Fault Refusal :=
  onTx (fun h =>
    if h.link p ≠ 5 ∨ (h.port p).cur.isSome = true then h
    else if start then h.rxWhole p bytes err full
    else if (h.port p).orphan then (h.setPort p { h.port p with orphan := false }).ptCount p 15
    else h) s

/-- EARLY_RELEASE (R78): the head of a longer frame is released on a cut-through port without MACsec receive. -/
def execEarlyRelease (p : Port) (head : List Byte) (full : Bool) (s : State) : Host.Outcome State Fault Refusal :=
  guarded (head.length == 512) (onTx (fun h =>
    if h.link p ≠ 5 ∨ (h.port p).cur.isSome = true ∨ h.cfg .PT_CFG_ct_enable p ≠ 1 ∨ h.on .CX_SECY_rx_en p = true
      ∨ h.cfg .PT_CFG_max_len p ≤ 512 then h
    else
      let h := h.setPort p { h.port p with orphan := false }
      if full then (h.rxFail p 0x08).pm (portSl p) 0x02 1 (some (portIx p / 8))
      else if (h.rxStop p).isSome then h.rxQueue p ⟨0, h.now, head, true, none, none⟩
      else
        let (id, h) := h.fresh
        let h := h.rxQueue p ⟨id, h.now, head, true, none, none⟩
        h.setPort p { h.port p with cur := some (id, head) }) s)

/-- A former of an early-released frame given the frame's end. A mirror copy takes as much of it as its truncation allows. -/
def Former.finish (f : Former) (d : List Byte) (reason : Nat) : Former :=
  { f with bytes := if f.info.mirror then mirrorBytes (extBound f.ext) true d else d, tail := some reason }

/-- A frame on its way to a punt class, dropped by a bad tail status: it is counted and its holding of the edition ended (R216); one with
dest_kind CLERK is charged to the error sub-count, one that the parser sent to no line (R378). A punt copy is only discarded. -/
def Hw.puntBad (h : Hw) (q : Punt) (bytes reason : Nat) : Hw :=
  match q.kind with
  | .frame => (((h.dropped q.sl reason q.tenant).errHeld q.sl q.tenant bytes)).edDown q.sl q.ed
  | .parser => (h.dropped q.sl reason q.tenant).edDown q.sl q.ed
  | _ => h

/-- The tail of an early-released frame told to every part that holds it or waits for it (R78, R203, R271, R286, R375). -/
def Hw.giveTail (h : Hw) (fid : Nat) (d : List Byte) (reason : Nat) : Hw :=
  let mine (i : FrInfo) (t : Option Nat) : Bool := i.fid == fid && t.isNone
  let h := if reason = 0 then h else
    h.over (h.punts.filter (fun (q : Punt) => q.wait == some fid)) (fun h q => h.puntBad q d.length reason)
  let h : Hw := { h with
    ctxs := h.ctxs.map (fun (x : Ctx) => if x.eg.isNone && mine x.info x.tail then { x with bytes := d, tail := some reason } else x)
    formers := h.formers.map (fun (f : Former) => if mine f.info f.tail then f.finish d reason else f)
    punts := (h.punts.filter (fun (q : Punt) => q.wait != some fid || reason == 0)).map (fun (q : Punt) =>
      if q.wait == some fid then { q with bytes := d, wait := none } else q)
    ports := h.ports.map (fun (e : Nat × PortSt) => (e.1, { e.2 with fifo := e.2.fifo.map (fun (x : RxFrame) =>
      if x.fid == fid then { x with bytes := d, tail := some reason } else x) })) }
  let waits := (h.ch.coming.filter (fun e => e.1 == some fid)).length
  let h := if reason = 0 then
      { h with ch := { h.ch with coming := h.ch.coming.map (fun e => if e.1 == some fid then (none, e.2) else e) } }
    else ({ h with ch := { h.ch with coming := h.ch.coming.filter (fun e => e.1 != some fid) } } : Hw).count
      .FT_CH_CNT_count 7 0 waits
  let h := h.settleDeferred fid d.length
  h.over ((h.formers.filter (fun f => f.info.fid == fid)).map (·.stream)) (fun h k => h.runStream k h.formers.length)

/-- The early-released frame of a port ended with a tail status. An oversize frame ends at its byte max_len + 1, which no part of the
device is given (R74). -/
def Hw.endEarly (h : Hw) (p : Nat) (rest : List Byte) (reason : Option Nat) (err : RxErr) : Hw :=
  match (h.port p).cur with
  | none => h
  | some (fid, head) =>
    let whole := head ++ rest
    let r := match reason with
      | some r => if h.cfg .PT_CFG_max_len p < whole.length then 0x05 else r
      | none => h.tailReason p whole err
    let d := whole.take (h.cfg .PT_CFG_max_len p)
    let h := h.setPort p { h.port p with cur := none, orphan := decide ([0x03, 0x06, 0x07].contains r) }
    let h := if r = 0 then h.rxOk p d.length else match ptDropIx r with | some c => h.ptCount p c | none => h
    let h := if r = 0x0F then h.raise 0x120 (portSl p) 15 p else h
    h.giveTail fid d r

/-- TAIL_STATUS (R73, R78). -/
def execTailStatus (p : Port) (rest : List Byte) (err : RxErr) (s : State) : Host.Outcome State Fault Refusal :=
  onTx (fun h => h.endEarly p rest none err) s

/-- A frame in reception ended with a reason of R75: `arrived` is what has arrived of it. -/
def Hw.endReception (h : Hw) (p : Nat) (arrived : Option (List Byte)) (reason : Nat) : Hw :=
  if (h.port p).cur.isSome then h.endEarly p (arrived.getD []) (some reason) .good
  else match arrived with
    | none => h
    | some d =>
      let r := if h.cfg .PT_CFG_max_len p < d.length then 0x05 else reason
      (h.setPort p { h.port p with orphan := decide (r ≠ 0x05) }).rxFail p r

/-- RX_WATCHDOG (R75). -/
def execRxWatchdog (p : Port) (arrived : List Byte) (s : State) : Host.Outcome State Fault Refusal :=
  onTx (fun h => if h.link p = 5 then h.endReception p (some arrived) 0x06 else h) s

/-! ### Link states (R68 to R72, R517) -/

/-- A port's PT_LINKVEC bit in every replica. -/
def Hw.linkVec (h : Hw) (p v : Nat) : Hw :=
  h.each 8 (fun h n => h.setVal .PT_LINKVEC (setBits (h.val .PT_LINKVEC (p / 64) n) (p % 64) (p % 64) v) (p / 64) n)

/-- A port leaves UP for a state (R69, R72, R75): the frame in reception ends, its fabric link goes down. -/
def Hw.leaveUp (h : Hw) (p state : Nat) (arrived : Option (List Byte)) : Hw :=
  if h.link p ≠ 5 then h.ptWr .PT_STATUS_state p state
  else
    let h := h.endReception p arrived 0x07
    let h := ((h.ptWr .PT_STATUS_state p state).ptWr .PT_STATUS_link_up p 0).linkVec p 0
    ((h.setPort p { h.port p with leftUp := true }).sfPortDown p).edPortDone p

/-- The copies picked for a port that have not had their countersign decision discarded, those still in E0 to E3 too (R517). -/
def Hw.dropWaiting (h : Hw) (p reason : Nat) : Hw :=
  h.over (h.ctxs.filter (fun x => match x.eg with | some e => e.port == p | none => false))
    (fun h x => match x.eg with
      | some e => h.dropEgress x reason (x.storedLen e)
      | none => h)

/-- The disposal of a port's frames (R72): queues, waiting copies, and what reaches them until the port is UP again. -/
def Hw.flushLink (h : Hw) (p reason : Nat) : Hw :=
  ((h.flushPort p reason).dropWaiting p reason).setPort p { h.port p with flush := reason, leftUp := false }

/-- Whether a port negotiates: a copper or backplane port with an_enable (R65). -/
def Hw.negotiates (h : Hw) (p : Nat) : Bool := h.cfg .PT_CFG_pmd p != 0 && h.cfg .PT_CFG_an_enable p == 1
/-- The state in which training restarts (R69). -/
def Hw.trainFrom (h : Hw) (p : Nat) : Nat := if h.negotiates p then 2 else 3

/-- PARTNER_PRESENT (R70): once per gain. -/
def execPartnerPresent (p : Port) (s : State) : Host.Outcome State Fault Refusal :=
  onHw (fun h =>
    if h.link p == 0 || h.link p == 7 then h
    else
      let h := ((h.ptWr .PT_STATUS_partner_present p 1).ptEvent p 0).lanesWr .SD_LANESTAT_sig_detect p 1
      if h.link p = 1 then h.ptWr .PT_STATUS_state p (if h.cfg .PT_CFG_pmd p = 0 then 4 else h.trainFrom p) else h) s

/-- PARTNER_LOST (R70): once per loss. A port that was acquiring its link waits for a signal again. -/
def execPartnerLost (p : Port) (s : State) : Host.Outcome State Fault Refusal :=
  onHw (fun h =>
    if !h.on .PT_STATUS_partner_present (portIx p) (portSl p) then h
    else
      let h := ((h.ptWr .PT_STATUS_partner_present p 0).ptEvent p 1).lanesWr .SD_LANESTAT_sig_detect p 0
      if h.link p = 2 ∨ h.link p = 3 ∨ h.link p = 4 then
        (h.ptWr .PT_STATUS_state p 1).ptWr .PT_STATUS_lanes_locked p 0 else h) s

/-- A lane of a port loses signal, lock or alignment (R69, R75). -/
def Hw.signalLoss (h : Hw) (p : Nat) (alignLost : Bool) (arrived : Option (List Byte)) : Hw :=
  let st := h.link p
  if st = 5 ∨ st = 6 ∨ (st = 4 ∧ alignLost = true) then
    let h := h.leaveUp p (if alignLost then 4 else 6) arrived
    if alignLost then (h.ptWr .PT_STATUS_lanes_locked p 0).lanesWr .SD_LANESTAT_cdr_lock p 0 else h
  else h

/-- SIGNAL_LOSS (R69). -/
def execSignalLoss (p : Port) (alignLost : Bool) (arrived : Option (List Byte)) (s : State) :
    Host.Outcome State Fault Refusal :=
  onTx (fun h => h.signalLoss p alignLost arrived) s

/-- AN_COMPLETE (R65, R70). -/
def execAnComplete (p : Port) (code : Fin 16) (lp : Word) (s : State) : Host.Outcome State Fault Refusal :=
  onHw (fun h =>
    if h.link p ≠ 2 then h
    else
      let h := (h.wr .PT_AN_LP_lp (bits lp.toNat 12 1) (portIx p) (portSl p)).ptWr .PT_STATUS_resolved p code
      if code = h.laneMode p then ((h.ptWr .PT_STATUS_an_done p 1).ptEvent p 4).ptWr .PT_STATUS_state p 3
      else (h.ptWr .PT_STATUS_an_done p 0).ptEvent p 5) s

/-- TRAIN_DONE (R69). -/
def execTrainDone (p : Port) (s : State) : Host.Outcome State Fault Refusal :=
  onHw (fun h => if h.link p = 3 then h.ptWr .PT_STATUS_state p 4 else h) s

/-- TRAIN_FAIL (R69). -/
def execTrainFail (p : Port) (s : State) : Host.Outcome State Fault Refusal :=
  onHw (fun h =>
    if h.link p ≠ 3 then h
    else
      let h := ((h.ptEvent p 6).ptCount p 24).ptWr .PT_STATUS_state p (h.trainFrom p)
      if h.negotiates p then h.ptWr .PT_STATUS_an_done p 0 else h) s

/-- Whether a local or remote fault is in force on a port. -/
def Hw.faulted (h : Hw) (p : Nat) : Bool :=
  h.on .PT_STATUS_local_fault (portIx p) (portSl p) || h.on .PT_STATUS_remote_fault (portIx p) (portSl p)

/-- The adaptation of a port's lanes follows the line, but on a lane whose adapt_freeze is 1 (R66). -/
def Hw.track (h : Hw) (p : Nat) : Hw :=
  h.over (h.lanesOf p) (fun h l =>
    if h.on .SD_LANECFG_adapt_freeze (l % 96) (l / 96) then h else h.wr .SD_LANESTAT_adapt 2 (l % 96) (l / 96))

/-- ALIGN_LOCK (R68): every lane locked and aligned; a fault in force holds the port in FAULT. -/
def execAlignLock (p : Port) (s : State) : Host.Outcome State Fault Refusal :=
  onHw (fun h =>
    if h.link p ≠ 4 then h
    else
      let h := ((h.ptWr .PT_STATUS_lanes_locked p (h.allLocked p)).lanesWr .SD_LANESTAT_cdr_lock p 1).track p
      if h.faulted p then h.ptWr .PT_STATUS_state p 6 else h) s

/-- LINK_UP (R69): a port aligned without fault for up_hold_ms enters UP. -/
def execLinkUp (p : Port) (s : State) : Host.Outcome State Fault Refusal :=
  onHw (fun h =>
    if (h.link p = 4 ∨ h.link p = 6) ∧ h.rd .PT_STATUS_lanes_locked (portIx p) (portSl p) = h.allLocked p
      ∧ h.faulted p = false then
      let h := (((h.ptWr .PT_STATUS_state p 5).ptWr .PT_STATUS_link_up p 1).linkVec p 1).ptEvent p 2
      (h.setPort p { h.port p with leftUp := false, flush := 0 }).sfPortUp p
    else h) s

/-- LINK_DOWN (R69, R72): UP has been left for down_hold_us. -/
def execLinkDown (p : Port) (s : State) : Host.Outcome State Fault Refusal :=
  onTx (fun h =>
    if !(h.port p).leftUp then h
    else
      let h := (((h.ptEvent p 3).ptCount p 23).note (.cutOff p)).flushLink p 0x0A
      ((h.ptWr .PT_STATUS_state p 1).ptWr .PT_STATUS_an_done p 0).ptWr .PT_STATUS_lanes_locked p 0) s

/-- What a port's reconciliation sublayer sends (R69): remote fault ordered sets while a local fault is in force, idles while only
a remote fault is, else frames. A local fault wins over a remote one (PRESUMED, IEEE 802.3 clauses 46 and 81; log entry 77). -/
def Hw.sends (h : Hw) (p : Nat) : RsSends :=
  if h.on .PT_STATUS_local_fault (portIx p) (portSl p) then .remoteFault
  else if h.on .PT_STATUS_remote_fault (portIx p) (portSl p) then .idles
  else .frames

/-- What a port sends from now on, as its faults have become. -/
def Hw.signal (h : Hw) (p : Nat) : Hw := { h with sent := h.sent ++ [.signal p (h.sends p)] }

/-- A fault of a kind comes into force on a port (R69, R70). `arrived` is what has arrived of a frame in reception (R75). -/
def Hw.faultOn (h : Hw) (p : Nat) (f : Fld) (e : Nat) (arrived : Option (List Byte)) : Hw :=
  let st := h.link p
  if st = 0 ∨ st = 7 then h
  else
    let h := if h.on f (portIx p) (portSl p) then h else ((h.ptWr f p 1).ptEvent p e).signal p
    if st = 5 then h.leaveUp p 6 arrived
    else if st = 4 ∧ h.rd .PT_STATUS_lanes_locked (portIx p) (portSl p) = h.allLocked p then h.ptWr .PT_STATUS_state p 6
    else h

/-- LOCAL_FAULT (R69). -/
def execLocalFault (p : PortFault) (s : State) : Host.Outcome State Fault Refusal :=
  onTx (fun h => h.faultOn p.port .PT_STATUS_local_fault 7 p.arrived) s
/-- REMOTE_FAULT (R69). -/
def execRemoteFault (p : PortFault) (s : State) : Host.Outcome State Fault Refusal :=
  onTx (fun h => h.faultOn p.port .PT_STATUS_remote_fault 8 p.arrived) s
/-- FAULT_CLEAR (R69): the fault ends, and what the port sends follows; LINK_UP follows once up_hold_ms has passed. -/
def execFaultClear (p : Port) (remote : Bool) (s : State) : Host.Outcome State Fault Refusal :=
  onHw (fun h =>
    if h.on (if remote then .PT_STATUS_remote_fault else .PT_STATUS_local_fault) (portIx p) (portSl p) then
      (h.ptWr (if remote then .PT_STATUS_remote_fault else .PT_STATUS_local_fault) p 0).signal p
    else h) s

/-- FEC_WINDOW (R70). -/
def execFecWindow (p : Port) (codewords symbols : Nat) (s : State) : Host.Outcome State Fault Refusal :=
  onHw (fun h =>
    let i := portIx p
    let n := portSl p
    let h := (h.ptCount p 21 codewords).ptCount p 22 symbols
    if h.on .PT_STATUS_fec_degraded i n then
      if symbols < h.rd .PT_FECTHR_clr_thr i n then (h.ptWr .PT_STATUS_fec_degraded p 0).ptEvent p 10 else h
    else if h.rd .PT_FECTHR_set_thr i n ≤ symbols then
      ((h.ptWr .PT_STATUS_fec_degraded p 1).ptEvent p 9).raise 0x110 n 15 p
    else h) s

/-! ### PT_CFG (R62, R72) -/

/-- Why an enable is not accepted, in the order of R62; 0 for none. -/
def Hw.enableCause (h : Hw) (p : Nat) : Nat :=
  let ls := h.lanesOf p
  if !h.configured p then 2
  else if h.slicePower (portSl p) < 2 then 5
  else if ls.any (fun l => h.rd .SD_LANESTAT_pwr_state (l % 96) (l / 96) != 2) then 1
  else if h.laneMode p = 4 ∧ h.cfg .PT_CFG_pmd p ≠ 0 then 3
  else if ls.any (fun l => h.rd .SD_PRBS_state (l % 96) (l / 96) == 1 || h.rd .SD_LANECFG_loopback (l % 96) (l / 96) != 0)
  then 4
  else 0

/-- The fields of PT_CFG but enable written: the live ones in any case, the others while the port is not enabled. -/
def Hw.cfgFields (h : Hw) (p v : Nat) : Hw :=
  let i := portIx p
  let n := portSl p
  let put (h : Hw) (f : Fld) : Hw := h.wr f (bits v f.hi f.lo) i n
  let h := put (put h .PT_CFG_ct_enable) .PT_CFG_down_hold_us
  let h := put (put (put h .PT_CFG_up_hold_ms) .PT_CFG_rx_wd_us) .PT_CFG_max_len
  if h.cfg .PT_CFG_enable p = 1 then h
  else
    let pmd := bits v 60 59
    put ((put h .PT_CFG_fabric).wr .PT_CFG_pmd (if pmd = 3 then 0 else pmd) i n) .PT_CFG_an_enable

/-- The status bits of an acquisition that is given up. -/
def Hw.clearLink (h : Hw) (p : Nat) : Hw :=
  let h := (h.ptWr .PT_STATUS_partner_present p 0).ptWr .PT_STATUS_local_fault p 0
  let h := (h.ptWr .PT_STATUS_remote_fault p 0).ptWr .PT_STATUS_an_done p 0
  (h.ptWr .PT_STATUS_lanes_locked p 0).ptWr .PT_STATUS_fec_degraded p 0

/-- A port disabled (R72): the frame in transmission is completed first while the link is UP, and is cut off otherwise. `arrived` is
what has arrived of a frame in reception (R75). -/
def Hw.disablePort (h : Hw) (p : Nat) (arrived : Option (List Byte)) : Hw :=
  let h := h.wr .PT_CFG_enable 0 (portIx p) (portSl p)
  let h := if h.link p = 5 then h else h.note (.cutOff p)
  let h := (h.leaveUp p 0 arrived).sfPortDown p
  ((h.flushLink p 0x09).clearLink p).ptWr .PT_STATUS_refuse_cause p 0

/-- PT_CFG written (R62, R72): ignored whole where rx_wd_us or max_len is out of its range (R516). -/
def Hw.ptCfgWrite (h : Hw) (p v : Nat) (arrived : Option (List Byte)) : Hw :=
  if bits v 23 14 = 0 ∨ 1000 < bits v 23 14 ∨ bits v 13 0 < 64 ∨ 10000 < bits v 13 0 then h
  else
  let was := h.cfg .PT_CFG_enable p == 1
  let h := h.cfgFields p v
  if bit v 63 then
    if was then h
    else
      let c := h.enableCause p
      if c ≠ 0 then ((h.ptWr .PT_STATUS_state p 7).ptWr .PT_STATUS_refuse_cause p c).ptEvent p 11
      else
        let h := (h.wr .PT_CFG_enable 1 (portIx p) (portSl p)).ptWr .PT_STATUS_state p 1
        let h := h.ptWr .PT_STATUS_refuse_cause p 0
        if (h.port p).flush = 0 then h.setPort p { h.port p with flush := 0x09 } else h
  else if was then h.disablePort p arrived
  else if h.link p = 7 then (h.ptWr .PT_STATUS_state p 0).ptWr .PT_STATUS_refuse_cause p 0
  else h

/-- PORT_ENABLE (R62). -/
def execPortEnable (p : Port) (v : Word) (s : State) : Host.Outcome State Fault Refusal :=
  onTx (fun h => h.ptCfgWrite p v.toNat none) s
/-- PORT_DISABLE (R72). -/
def execPortDisable (p : Port) (v : PortStop) (s : State) : Host.Outcome State Fault Refusal :=
  onTx (fun h => h.ptCfgWrite p v.word.toNat v.arrived) s

/-! ### PRBS (R67) -/

/-- Whether a lane may run PRBS or a loopback: it belongs to no port, or to a DISABLED one. -/
def Hw.laneFree (h : Hw) (l : Nat) : Bool :=
  match h.portOf l with
  | none => true
  | some p => h.link p == 0

/-- SD_PRBS written (R67): go starts the generator and the checker and clears its count, stop stops both, which leaves the errors
counted by then; anything else stores the patterns. A pattern above 3 is reserved (R516). -/
def Hw.prbsWrite (h : Hw) (l v : Nat) : Hw :=
  let j := l % 96
  let n := l / 96
  let pats (h : Hw) : Hw := (h.wr .SD_PRBS_gen (bits v 59 57) j n).wr .SD_PRBS_chk (bits v 56 54) j n
  if 3 < bits v 59 57 ∨ 3 < bits v 56 54 then h
  else if !bit v 63 && !bit v 62 then pats h
  else if !h.laneFree l then h.wr .SD_PRBS_state 3 j n
  else if bit v 63 then ((pats h).wr .SD_PRBS_state 1 j n).setVal .SD_PRBS_ERR 0 j n
  else if h.rd .SD_PRBS_state j n = 1 then ((pats h).wr .SD_PRBS_state 2 j n).setVal .SD_PRBS_ERR (Config.bitErrors l h.up).toNat j n
  else pats h

/-- PRBS_GO (R67). -/
def execPrbsGo (l : Lane) (v : Word) (s : State) : Host.Outcome State Fault Refusal := onHw (fun h => h.prbsWrite l v.toNat) s
/-- PRBS_STOP (R67). -/
def execPrbsStop (l : Lane) (v : Word) (s : State) : Host.Outcome State Fault Refusal := onHw (fun h => h.prbsWrite l v.toNat) s

end Sys2Proof.Machine
end

