-- ==== Sys2Proof/Machine/Faults.lean ====
section
/-! DEFINITION. The fault collector: safe reactions, escalation and attribution, the log, the freeze and release commands,
and the retirement of pipelines (spec/02_isolation_and_fault_safety.md, R33, R43 to R49, R52, R53, R56; R511, R514 of 23). -/

namespace Sys2Proof.Machine

/-! ### Freezes (R44) -/

/-- FREEZE_TENANT. -/
def Hw.freezeTenant (h : Hw) (t : Nat) : Hw := (h.setBit .FC_TFROZEN_frozen (t % 64) (t / 64)).maskRewrite (tenantWord t)

/-- FREEZE_PORT: the port sends idles from here on, its frame in transmission cut off. -/
def Hw.freezePort (h : Hw) (p : Nat) : Hw := ((h.setBit .FC_PFROZEN_frozen (p % 64) (p / 64)).maskRewrite (portWord p)).note (.cutOff p)

/-- FREEZE_SLICE: the frames in the slice's buffer and spill are discarded, and its ports send idles. -/
def Hw.freezeSlice (h : Hw) (n : Nat) : Hw :=
  if bit (h.rd .FC_STATUS_slice_frozen) n then h
  else
    let h := ((h.setBit .FC_STATUS_slice_frozen n).maskRewrite sliceWord).flushSlice n 0x85
    let h := h.over (h.landings.filter (fun l => l.sl == n)) (fun h l => h.killLanding l 0x85)
    let h := h.over (h.ctxs.filter (fun x => x.sl == n && x.ph == .countersign)) (fun h x => h.dropCtx x 0x85)
    h.each 96 (fun h i => h.note (.cutOff (96 * n + i)))

/-- A frame that has left its source and whose first cell has not been released, lost with a reason. -/
def Hw.loseUnacked (h : Hw) (reason : Nat) (u : Unacked) : Hw :=
  if h.notices.any (fun x => x.key == u.key && !x.loss && x.seq == u.seq) then h
  else
    let dst := u.key.2.2
    let mine (c : Cell) : Bool := c.first && (c.src, c.pipe, c.dst) == u.key && c.seq == u.seq
    let (t, b) := match (h.flight ++ (h.stream u.key).held).find? mine with
      | some c => (mdTenant c.ext, extBound c.ext)
      | none => (0, 0)
    let h := { h with unacked := h.unacked.filter (· ≠ u) }
    ((h.dropped dst reason t u.key.2.1).errHeld dst t b).edDown u.key.1 u.bit

/-- Streams of the crossbar stopped: their cells in flight or held are gone, and they are in step again. -/
def Hw.stopStreams (h : Hw) (mine : Nat × Nat × Nat → Bool) (reason : Nat) : Hw :=
  let h := h.over (h.formers.filter (fun f => mine (f.src, f.pipe, f.dst) && f.cells == 0)) (fun h f => h.dropFormer f reason)
  let h := h.over (h.unacked.filter (fun u => mine u.key)) (fun h u => h.loseUnacked reason u)
  let h := h.over (h.landings.filter (fun l => mine l.key)) (fun h l => h.killLanding l reason)
  let still (s : Stream) : Stream := ⟨s.next, s.next, [], none, false, false⟩
  { h with
    formers := h.formers.filter (fun f => !mine (f.src, f.pipe, f.dst))
    flight := h.flight.filter (fun c => !mine (c.src, c.pipe, c.dst))
    streams := (h.streams.map (fun e => (e.1, if mine e.1 then still e.2 else e.2))).filter (fun e => e.2 ≠ Stream.idle) }

/-- DEVICE_HOLD: every frame that a pipeline, the crossbar, a queue or the recirculation path holds is dropped with 0x86, and no
port transmits; the key store is zeroized where that alarm is enabled (R329). -/
def Hw.deviceHold (h : Hw) : Hw :=
  if h.held then h
  else
    let h := h.wr .FC_STATUS_device_hold 1
    let h := (h.over h.ctxs (fun h x => h.dropCtx x 0x86)).stopStreams (fun _ => true) 0x86
    let h := h.each 8 (fun h n => h.flushSlice n 0x86)
    let h := ({ h with recirc := [] } : Hw).over h.recirc (fun h r =>
      ((h.dropped r.sl 0x86 (mdTenant r.md)).errHeld r.sl (mdTenant r.md) r.bytes.length).edDown r.sl (mdEdition r.md))
    (h.each 768 (fun h p => h.note (.cutOff p))).zeroize 7

/-! ### Reactions (R45) -/

/-- The slice that a record names. -/
def FaultRec.slice (f : FaultRec) : Option Nat :=
  if f.origin < 8 then some f.origin else if f.port < 768 then some (portSl f.port) else none

/-- The reaction applied in place of one whose entity the record lacks: the next stronger that it names. -/
def FaultRec.able (f : FaultRec) (r : Nat) : Nat :=
  let r := if r = 1 ∧ f.tenant.isNone = true then 2 else r
  let r := if r = 2 ∧ 768 ≤ f.port then 3 else r
  if r = 3 ∧ f.slice.isNone = true then 4 else r

/-- A reaction applied to what a record names. -/
def Hw.react (h : Hw) (f : FaultRec) (r : Nat) : Hw :=
  match r with
  | 0 => h
  | 1 => match f.tenant with | some t => h.freezeTenant t | none => h
  | 2 => h.freezePort f.port
  | 3 => match f.slice with | some n => h.freezeSlice n | none => h
  | _ => h.deviceHold

/-! ### Retirement (R52, R53) -/

/-- The pipeline that follows another, retired ones skipped (R50). -/
def Hw.nextPipe (h : Hw) (n p : Nat) : Nat :=
  (((List.range 9).map (fun k => (p + 1 + k) % 9)).find? (fun q => !bit (h.rd .FC_STRIP_retired n) q)).getD p
/-- The pipeline before another, retired ones skipped. -/
def Hw.prevPipe (h : Hw) (n p : Nat) : Nat :=
  (((List.range 9).map (fun k => (p + 8 - k) % 9)).find? (fun q => !bit (h.rd .FC_STRIP_retired n) q)).getD p
/-- The strip phase of a slice. -/
def Hw.stripPhase (h : Hw) (n : Nat) : StripPhase := (nth h.fc.strip n StripSt.reset).phase
/-- The strip state of a slice changed. -/
def Hw.setStrip (h : Hw) (n : Nat) (f : StripSt → StripSt) : Hw :=
  { h with fc := { h.fc with strip := setNth h.fc.strip n (f (nth h.fc.strip n StripSt.reset)) } }

/-- A slice loses its rotating strip: F-0x811 and coverage_lost. R52 says so of a first retirement with degrade_test 0; that a second
retirement, which ends a rotation that degrade_test kept, does the same is the model's choice (DESIGN CHOICE, log entry 73). -/
def Hw.coverageLost (h : Hw) (n : Nat) : Hw :=
  let h := h.setStrip n (fun s => { s with phase := .none })
  if bit (h.rd .FC_STATUS_coverage_lost) n then h else (h.setBit .FC_STATUS_coverage_lost n).raise 0x811 n

/-- A pipeline of a slice retired: the strip enters service; after the first retirement it rotates on if degrade_test is 1. -/
def Hw.retirePipe (h : Hw) (n p : Nat) : Hw :=
  let old := h.rd .FC_STRIP_retired n
  if bit old p then h
  else
    let h := (h.wr .FC_STRIP_retired (old + 2 ^ p) n).raise 0x810 n p
    let count := ((List.range 9).filter (bit (old + 2 ^ p))).length
    let former := match h.stripPhase n with
      | .draining q => h.prevPipe n q
      | .waiting q => q
      | _ => h.rd .FC_STRIP_strip n
    let h := h.wr .FC_STRIP_strip 15 n
    let h := if count = 1 ∧ h.on .FC_STRIP_degrade_test n = true then h.setStrip n (fun s => { s with phase := .waiting former })
      else h.coverageLost n
    if count = 3 then h.raise 0x812 n else h

/-! ### Records taken (R45, R46, R48, R56) -/

/-- The FC_POLICY word of a code in force: the built-in one, and F-0x821, if the entry fails its check. -/
def Hw.policy (h : Hw) (code : Nat) : Nat × Hw :=
  if h.good ⟨.FC_POLICY, 0, 0, code⟩ then (h.val .FC_POLICY code, h) else (policyReset code, h.raise 0x821 8)

/-- The reaction of a record, escalation included, and the counts advanced. A commanded freeze is not escalated (R514). -/
def Hw.reaction (h : Hw) (f : FaultRec) : Nat × Hw :=
  match f.commanded with
  | some r => (r, h)
  | none =>
    let (w, h) := h.policy f.code
    let base := max (bits w 6 4) (faultDefaults f.code).2.2
    let seen := ((h.fc.win.find? (fun e => e.1 == f.code)).map (·.2)).getD 0 + 1
    let hit := decide (h.rd .FC_CTRL_esc_count ≤ seen) && bit w 15
    let rest := h.fc.win.filter (fun e => e.1 != f.code)
    let h := { h with fc := { h.fc with win := if hit then rest else rest ++ [(f.code, seen)] } }
    (if hit then max base (bits w 10 8) else base, h)

/-- A record that names a pipeline counted against it; at retire_count the pipeline is retired (R46). -/
def Hw.attribute (h : Hw) (f : FaultRec) : Hw :=
  match f.slice with
  | none => h
  | some n =>
    if 9 ≤ f.pipe then h
    else
      let w := h.val .FC_PIPE n
      let c := min 127 (bits w (7 * f.pipe + 6) (7 * f.pipe) + 1)
      let h := h.setVal .FC_PIPE (setBits w (7 * f.pipe + 6) (7 * f.pipe) c) n
      if h.rd .FC_CTRL_retire_count ≤ c then h.retirePipe n f.pipe else h

/-- A record not logged, counted. -/
def Hw.unlogged (h : Hw) : Hw := h.countSat .FC_STATUS_overflow_count

/-- A record at the collector: its reaction decided and applied, logged, counted (R45 to R48). -/
def Hw.collect (h : Hw) (f : FaultRec) : Hw :=
  let (r, h) := h.reaction f
  let r := f.able r
  let h := if !f.queued then h.unlogged
    else if h.fc.log.length < 256 then { h with fc := { h.fc with log := h.fc.log ++ [⟨f, r⟩] } }
    else (h.wr .FC_STATUS_log_overflow 1).unlogged
  (h.attribute f).react f r

/-- The oldest record of an origin reaches the collector (R45). -/
def Hw.collectOldest (h : Hw) (origin : Nat) : Hw :=
  let mine (f : FaultRec) : Bool := f.origin == origin
  match h.fc.queue.find? mine with
  | none => h
  | some f => ({ h with fc := { h.fc with queue := delFirst mine h.fc.queue } } : Hw).collect f

/-- The counts of an escalation window cleared (R46; R235 counts cell check failures over the same windows). -/
def Hw.windowOver (h : Hw) : Hw :=
  let h := { h with fc := { h.fc with win := [] }, planeErr := [0, 0, 0, 0], hbm := { h.hbm with corr := [0, 0, 0, 0] } }
  h.each 8 (fun h n => h.setVal .FC_PIPE 0 n)

/-- ESC_WINDOW_END (R46). -/
def execEscWindowEnd (s : State) : Host.Outcome State Fault Refusal := onHw (fun h => h.windowOver) s

/-- COLLECTOR_WATCHDOG (R33): the watchdog removes transmit enable itself. -/
def execCollectorWatchdog (s : State) : Host.Outcome State Fault Refusal :=
  onTx (fun h => (h.raise 0x82F 8).deviceHold) s

/-! ### Commands (R44, R49, R511, R514) -/

/-- A freeze that a command applies, logged as F-0x8F0 with its reaction. -/
def Hw.command (h : Hw) (r origin port : Nat) (tenant : Option Nat) : Hw :=
  h.collect ⟨0x8F0, origin, 15, port, tenant, h.now, false, some r, true⟩

/-- A bit of a frozen set cleared, in the master and in every replica. -/
def Hw.thaw (h : Hw) (n : RegName) (i : Nat) : Hw :=
  ((h.setVal n (setBits (h.val n (i / 64)) (i % 64) (i % 64) 0) (i / 64)).maskRewrite
    (if n = .FC_TFROZEN then tenantWord i else portWord i)).watch
/-- The release of a slice from FREEZE_SLICE (R49): accepted only while the slice is in RETENTION. -/
def Hw.thawSlice (h : Hw) (n : Nat) : Hw :=
  if h.slicePower n = 1 then
    ((h.wr .FC_STATUS_slice_frozen (setBits (h.rd .FC_STATUS_slice_frozen) n n 0)).maskRewrite sliceWord).watch
  else h.wr .FC_STATUS_cmd_refused 1

/-- TENANT_FREEZE (R49). -/
def execTenantFreeze (t : BitVec 16) (s : State) : Host.Outcome State Fault Refusal :=
  onTx (fun h => h.command 1 8 0x3FF (some t.toNat)) s
/-- TENANT_RELEASE (R49). -/
def execTenantRelease (t : BitVec 16) (s : State) : Host.Outcome State Fault Refusal :=
  onHw (fun h => h.thaw .FC_TFROZEN t.toNat) s
/-- PORT_FREEZE (R49). -/
def execPortFreeze (p : Port) (s : State) : Host.Outcome State Fault Refusal := onTx (fun h => h.command 2 8 p none) s
/-- PORT_RELEASE (R49). -/
def execPortRelease (p : Port) (s : State) : Host.Outcome State Fault Refusal := onHw (fun h => h.thaw .FC_PFROZEN p) s
/-- SLICE_FREEZE (R49). -/
def execSliceFreeze (n : Slice) (s : State) : Host.Outcome State Fault Refusal := onTx (fun h => h.command 3 n 0x3FF none) s
/-- SLICE_RELEASE (R49): accepted only while the slice is in RETENTION. -/
def execSliceRelease (n : Slice) (s : State) : Host.Outcome State Fault Refusal :=
  onHw (fun h => h.thawSlice n) s
/-- HOLD (R44). -/
def execHold (s : State) : Host.Outcome State Fault Refusal := onTx (fun h => h.command 4 8 0x3FF none) s

/-- FC_INJECT (R511): a record handled as a detection, or ignored. -/
def Hw.inject (h : Hw) (v : Nat) : Hw :=
  let code := bits v 49 38
  let origin := bits v 57 54
  let pipe := bits v 53 50
  if !bit v 63 || !h.on .FC_CTRL_inject_en || !listedFaults.contains code || decide (8 < origin)
      || (decide (8 < pipe) && pipe != 15) then h
  else h.raise code origin pipe (bits v 37 28) (if bit v 58 then some (bits v 27 12) else none) true

/-- FC_INJECT. -/
def execFcInject (v : Word) (s : State) : Host.Outcome State Fault Refusal := onHw (fun h => h.inject v.toNat) s

/-- A logged record as FC_LOG_HEAD shows it. -/
def LogRec.word (l : LogRec) : Nat :=
  let f := l.fault
  (1 <<< 63) + (ofBool f.injected <<< 62) + ((l.reaction % 8) <<< 59) + (ofBool f.tenant.isSome <<< 58) + ((f.origin % 16) <<< 54)
    + ((f.pipe % 16) <<< 50) + ((f.code % 4096) <<< 38) + ((f.port % 1024) <<< 28) + ((f.tenant.getD 0 % 65536) <<< 12)

/-- A read of FC_LOG_HEAD: the oldest record popped and its time latched. The register word holds what the read returned. -/
def Hw.popLog (h : Hw) : Hw :=
  match h.fc.log with
  | [] => h.setVal .FC_LOG_HEAD 0
  | l :: r => (({ h with fc := { h.fc with log := r } } : Hw).setVal .FC_LOG_HEAD l.word).setVal .FC_LOG_TIME l.fault.time |>.watch

/-- LOG_POP (R48). -/
def execLogPop (s : State) : Host.Outcome State Fault Refusal := onHw Hw.popLog s

end Sys2Proof.Machine
end

