-- ==== Sys2Proof/Machine/Hbm.lean ====
section
/-! DEFINITION. The HBM controller: requests and trackers, picking accesses, refresh, errors, patrol, stack states and training
(spec/15_hbm_controller.md, R343 to R358). -/

namespace Sys2Proof.Machine

/-! ### Places (R344) -/

/-- The stack's base address (R19). -/
def stackBase (s : Nat) : Nat := 0x1000000000 + s * 0x600000000
/-- An HM_SCNT counter of a stack advanced. -/
def Hw.scnt (h : Hw) (s c : Nat) (n : Nat := 1) : Hw := h.count .HM_SCNT_count (16 * s + c) 0 n

/-! ### Requests (R346) -/

/-- The bytes of a request. -/
def hbmOpBytes (r : HbmOp) : Nat := match r.write with | some d => d.length | none => r.len

/-- Whether a request is one access to at most one granule of HBM (R346). -/
def hbmOpOk (r : HbmOp) : Bool :=
  let a := r.addr.toNat
  inHbm a && decide (0 < hbmOpBytes r) && decide (a / 512 = (a + hbmOpBytes r - 1) / 512)

/-- A request entering its bank queue: a write is accepted, and seen, from then on (R350). -/
def Hw.hbmEnter (h : Hw) (r : HbmReq) (data : Option (List Byte)) : Hw :=
  let h := match data with | some d => h.store r.addr d | none => h
  (h.requests r.cls r.addr r.len).setHbm (fun b => { b with reqs := b.reqs ++ [r] })

/-- A source's request (R346): it enters its bank queue under a tracker of its class, or waits for one, behind those of its class that
wait already. No access is performed in a stack that is not ACTIVE (R357). -/
def Hw.hbmRequest (h : Hw) (r : HbmOp) : Hw :=
  let a := r.addr.toNat
  let s := stackOf a
  let q : HbmReq := ⟨a, hbmOpBytes r, r.cls, r.write.isSome, false⟩
  if !h.stackActive a then h
  else if h.hbm.trackerFree s r.cls && !h.hbm.waiting.any (fun w => w.1.stack == s && w.1.cls == q.cls) then h.hbmEnter q r.write
  else h.setHbm (fun b => { b with waiting := b.waiting ++ [(q, r.write)] })

/-- The waiting requests of a stack that find a tracker now enter, in the order in which they came. -/
def Hw.hbmAdmit (h : Hw) (s : Nat) : Hw :=
  h.over (h.hbm.waiting.filter (fun w => w.1.stack == s)) (fun h w =>
    if h.hbm.trackerFree s w.1.cls then
      (h.setHbm (fun b => { b with waiting := delFirst (· == w) b.waiting })).hbmEnter w.1 w.2
    else h)

/-- HBM_REQUEST (R346). -/
def execHbmRequest (r : HbmOp) (s : State) : Host.Outcome State Fault Refusal :=
  guarded (hbmOpOk r) (onHw (fun h => h.hbmRequest r) s)

/-! ### Errors (R354) -/

/-- What the code finds in sectors that are read: corrected sectors, and sectors that become uncorrectable. -/
def Hw.sectorErrors (h : Hw) (s cls : Nat) (inside : Nat → Bool) (corr uncorr : List Nat) : Hw :=
  let bad := (uncorr.filter inside).eraseDups
  let n := ((corr.filter (fun x => inside x && !bad.contains x)).eraseDups).length
  let was := nth h.hbm.corr s 0
  let h := (h.scnt s 6 n).setHbm (fun b => { b with corr := setNth b.corr s (was + n) })
  let h := if was < 1000 ∧ 1000 ≤ was + n then h.raise 0x710 8 else h
  let h : Hw := { h with poison := h.poison ++ bad.filter (fun x => !h.poison.contains x) }
  h.over (h.poison.filter inside) (fun h x => h.poisonedRead cls x)

/-! ### Picking (R347 to R352) -/

/-- The requests queued in a bank, oldest first. -/
def HbmSt.queue (b : HbmSt) (s k : Nat) : List HbmReq := b.reqs.filter (fun r => r.stack == s && bankOf r.addr == k)
/-- A bank's refresh debt. -/
def HbmSt.owed (b : HbmSt) (s k : Nat) : Nat := nth (nth b.debt s []) k 0
/-- Whether a neighbour refresh waits in a bank for at least some intervals. -/
def HbmSt.nearDue (b : HbmSt) (s k least : Nat) : Bool := b.near.any (fun x => x.1 == s && x.2.1 == k && decide (least ≤ x.2.2))

/-- What a bank issues: a refresh, a neighbour refresh, or the burst of a request. -/
inductive HbmPick
  | refresh (forced : Bool)
  | near (forced : Bool)
  | burst (r : HbmReq)
  deriving DecidableEq, Repr

/-- HM_WEIGHT of a class (R347): LOOKUP to CLERK. -/
def Hw.hbmWeight (h : Hw) (cls : Nat) : Nat :=
  match cls with
  | 1 => h.rd .HM_WEIGHT_lookup
  | 2 => h.rd .HM_WEIGHT_spill
  | 3 => h.rd .HM_WEIGHT_ledger
  | 4 => h.rd .HM_WEIGHT_shadow
  | _ => h.rd .HM_WEIGHT_clerk

/-- The class whose turn it is in a bank, and the turns it has had. -/
def HbmSt.turnOf (b : HbmSt) (s k : Nat) : Nat × Nat := ((b.turn.find? (fun x => x.1 == (s, k))).map (·.2)).getD (1, 0)

/-- The next class in the rotation of a bank (step 4 of R347): the one whose turn it is while it has turns left, else the next class
with a waiting request. -/
def Hw.hbmTurn (h : Hw) (s k : Nat) (q : List HbmReq) : Option (Nat × Nat × HbmReq) :=
  let (c, used) := h.hbm.turnOf s k
  let first (c : Nat) : Option HbmReq := q.find? (fun r => r.cls.val == c)
  match (if used < h.hbmWeight c then first c else none) with
  | some r => some (c, used + 1, r)
  | none => ((List.range 5).map (fun i => (c + i) % 5 + 1)).findSome? (fun c => (first c).map (fun r => (c, 1, r)))

/-- The sectors that a request touches, the first and the one behind the last. -/
def HbmReq.span (r : HbmReq) : Nat × Nat := (r.addr / 64, (r.addr + r.len + 63) / 64)
/-- Whether two requests touch a sector in common. -/
def HbmReq.meets (r x : HbmReq) : Bool := decide (r.span.1 < x.span.2) && decide (x.span.1 < r.span.2)
/-- The requests that no earlier request of the queue to the same sector holds back (R350): `seen` lists those before. -/
def inOrder (seen : List HbmReq) : List HbmReq → List HbmReq
  | [] => []
  | r :: q => if seen.any r.meets then inOrder (r :: seen) q else r :: inOrder (r :: seen) q
/-- The requests of a bank that may be picked: in the order of their sectors, and with tokens of their share (R348). -/
def Hw.ready (h : Hw) (s k : Nat) : List HbmReq :=
  (inOrder [] (h.hbm.queue s k)).filter (fun r => h.shareAllows s r.cls (r.span.2 - r.span.1))

/-- What a bank picks, if anything (R347, R349, R351, R352). A bank with a request in its queue is not idle. -/
def Hw.bankPick (h : Hw) (s k : Nat) : Option (HbmPick × Option (Nat × Nat)) :=
  let b := h.hbm
  let q := h.ready s k
  if 8 ≤ b.owed s k then some (.refresh true, none)
  else if b.nearDue s k 8 then some (.near true, none)
  else match q.find? (fun r => r.cls == 0) with
    | some r => some (.burst r, none)
    | none => match q.find? (·.starved) with
      | some r => some (.burst r, none)
      | none =>
        if (b.queue s k).isEmpty then
          (if 0 < b.owed s k then some (.refresh false, none)
           else if b.nearDue s k 0 then some (.near false, none) else none)
        else (h.hbmTurn s k q).map (fun t => (.burst t.2.2, some (t.1, t.2.1)))

/-- A forced refresh delays the RT requests of its bank (HM_SCNT 12). -/
def Hw.rtDelayed (h : Hw) (s k : Nat) : Hw :=
  h.scnt s 12 ((h.hbm.queue s k).filter (fun r => r.cls == 0)).length

/-- The sectors of a request, by number. -/
def HbmReq.holds (r : HbmReq) (x : Nat) : Bool := (sectorsOf r.addr r.len).contains x

/-- A burst issued: it takes its tokens, opens its row, and frees the request's tracker for one that waits; a read has its sectors
checked. A command or address that the stack reports with a parity error raises F-0x717 and is retried once (R343). -/
def Hw.hbmBurst (h : Hw) (s : Nat) (r : HbmReq) (parity : Bool) (corr uncorr : List Nat) : Hw :=
  let h := if parity then (h.raise 0x717 8).scnt s 11 else h
  let h := if r.starved && r.cls != 0 then h.scnt s 9 else h
  let h := ((h.shareSpend s r.cls (r.span.2 - r.span.1)).activate [r.addr]).setHbm (fun b => { b with reqs := delFirst (· == r) b.reqs })
  (if r.write then h else h.sectorErrors s r.cls r.holds corr uncorr).hbmAdmit s

/-- A pseudo-channel issues one command to one of its banks, the first that can take one from a pointer on that rotates one bank per
issue (R347). A refresh closes its bank's row. -/
def Hw.hbmIssue (h : Hw) (s pc : Nat) (parity : Bool) (corr uncorr : List Nat) : Hw :=
  let p := nth (nth h.hbm.ptr s []) pc 0
  match ((List.range 64).map (fun i => (p + i) % 64)).findSome? (fun b => (h.bankPick s (64 * pc + b)).map (fun x => (b, x))) with
  | none => h
  | some (b, pick, turn) =>
    let k := 64 * pc + b
    let h := h.setHbm (fun m => { m with
      ptr := setNth m.ptr s (setNth (nth m.ptr s []) pc ((p + 1) % 64))
      turn := match turn with | some t => m.turn.filter (fun x => x.1 != (s, k)) ++ [((s, k), t)] | none => m.turn })
    let pay (h : Hw) : Hw := h.setHbm (fun m => { m with
      rows := m.rows.filter (fun e => e.1 != (s, k))
      debt := setNth m.debt s (setNth (nth m.debt s []) k (m.owed s k - 1)) })
    let nearby (h : Hw) : Hw := (h.setHbm (fun m => { m with
      rows := m.rows.filter (fun e => e.1 != (s, k))
      near := delFirst (fun x => x.1 == s && x.2.1 == k) m.near })).scnt s 10
    match pick with
    | .refresh forced => if forced then pay ((h.rtDelayed s k).scnt s 8) else pay h
    | .near forced => if forced then nearby (h.rtDelayed s k) else nearby h
    | .burst r => h.hbmBurst s r parity corr uncorr

/-- Whether a stack's banks are refreshed and its commands issued by the controller: IDLE or ACTIVE (R356). -/
def Hw.stackClocked (h : Hw) (s : Nat) : Bool := decide (2 ≤ h.rd .HM_STACKSTAT_state s)

/-- HBM_BURST_ISSUE (R347): `parity` says that the stack reports a command or address parity error; `corr` and `uncorr` are the sectors, by number (address / 64), in which the code finds a correctable or an
uncorrectable error if the burst reads them. -/
def execHbmBurstIssue (h : Stack) (pc : IssueSlot) (corr uncorr : List Nat) (s : State) :
    Host.Outcome State Fault Refusal :=
  onHw (fun m => if m.stackClocked h then m.hbmIssue h pc.pc pc.parity corr uncorr else m) s

/-- REFRESH_INTERVAL (R351): every bank owes one more refresh; a debt that would rise above 8 raises F-0x712. -/
def execRefreshInterval (h : Stack) (s : State) : Host.Outcome State Fault Refusal :=
  onHw (fun m =>
    if m.stackClocked h then
      let d := nth m.hbm.debt h []
      let late := (d.filter (8 ≤ ·)).length
      (m.setHbm (fun b => { b with
        debt := setNth b.debt h (d.map (fun x => min 8 (x + 1)))
        near := b.near.map (fun x => if x.1 = h.val then (x.1, x.2.1, x.2.2 + 1) else x) })).each late (fun m _ => m.raise 0x712 8)
    else m) s

/-- STARVE_PICK (R349): the oldest request of the pseudo-channel that has not been promoted becomes its bank's next pick. -/
def execStarvePick (h : Stack) (pc : Fin 32) (s : State) : Host.Outcome State Fault Refusal :=
  onHw (fun m => m.setHbm (fun b => { b with
    reqs := updFirst (fun r => r.stack == h.val && bankOf r.addr / 64 == pc.val && !r.starved)
      (fun r => { r with starved := true }) b.reqs })) s

/-- PATROL (R355): every sector of an ACTIVE stack is read as SHADOW traffic, bank by bank (log entry 49). -/
def execPatrol (h : Stack) (corr uncorr : List Nat) (s : State) : Host.Outcome State Fault Refusal :=
  onHw (fun m =>
    let a := stackBase h
    if m.stackActive a then
      ((m.scnt h 4 (0x600000000 / 512)).sectorErrors h 4 (fun x => inHbm (64 * x) && stackOf (64 * x) == h.val) corr uncorr).scnt h 13 |>.activate
        ((List.range 2048).map (fun k => a + 512 * (k / 64) + 16384 * (k % 64) + 12287 * 2 ^ 21))
    else m) s

/-- MARGIN_LOW (R358): the tracked margin is shown; margin_low sets once when it falls below the threshold. -/
def execMarginLow (h : Stack) (margin : Byte) (s : State) : Host.Outcome State Fault Refusal :=
  onHw (fun m =>
    if m.rd .HM_STACKSTAT_state h = 3 then
      let low := decide (margin.toNat < m.rd .HM_SHARE_margin_thr h)
      let was := nth m.hbm.low h false
      let m := (m.wr .HM_STACKSTAT_margin margin.toNat h).setHbm (fun b => { b with low := setNth b.low h low })
      if low && !was then m.setBit .HM_EVENT_events 2 else m
    else m) s

/-- HM_ERRLOG_CLEAR (R354). -/
def execHmErrlogClear (v : Word) (s : State) : Host.Outcome State Fault Refusal :=
  onHw (fun m => if bit v.toNat 62 then m.wr .HM_ERRLOG_valid 0 else m) s

/-! ### Stack states and training (R356 to R358, R467) -/

/-- Whether a deep-buffer region in a stack holds a block in use. -/
def Hw.stackHoldsBlocks (h : Hw) (s : Nat) : Bool :=
  (List.range 8).any (fun n => decide (0 < h.rd .HM_DB_STAT_in_use n) && stackOf (h.rd .HM_DB_base n) == s)

/-- Whether a running ledger chain has its books or ring in a stack. -/
def Hw.stackHoldsLedger (h : Hw) (s : Nat) : Bool :=
  h.chain && (stackOf (h.rd .LG_BOOK_BASE_base) == s || stackOf (h.rd .LG_RING_base) == s)

/-- A stack command ended with a result; one that was done sets state_done. -/
def Hw.stackResult (h : Hw) (s r : Nat) : Hw :=
  let h := (((h.wr .HM_STACKCMD_busy 0 s).wr .HM_STACKSTAT_training 0 s).wr .HM_STACKCMD_result r s)
  if r = 1 then h.setBit .HM_EVENT_events 0 else if r = 5 then (h.setBit .HM_EVENT_events 1).raise 0x713 8 else h

/-- A write of HM_STACKCMD: a reserved op is ignored whole (R516), as is a write with go while busy; rate 3 is stored as 0; the
target is held in the register's state field until the command ends. -/
def Hw.stackCmd (h : Hw) (s v : Nat) : Hw :=
  let op := bits v 61 60
  let target := bits v 57 56
  let cur := h.rd .HM_STACKSTAT_state s
  if op == 0 || op == 3 || (bit v 63 && h.on .HM_STACKCMD_busy s) then h
  else
    let h := h.wr .HM_STACKCMD_rate (if bits v 53 52 = 3 then 0 else bits v 53 52) s
    if !bit v 63 then h
    else if op = 2 then
      if cur = 2 then (((h.wr .HM_STACKCMD_op 2 s).wr .HM_STACKCMD_state 2 s).wr .HM_STACKCMD_busy 1 s).wr .HM_STACKSTAT_training 1 s
      else h.wr .HM_STACKCMD_result 2 s
    else if target = cur then h.stackResult s 1
    else if target = 0 && h.stackHoldsBlocks s then h.wr .HM_STACKCMD_result 3 s
    else if target = 0 && h.stackHoldsLedger s then h.wr .HM_STACKCMD_result 4 s
    else (((h.wr .HM_STACKCMD_op 1 s).wr .HM_STACKCMD_state target s).wr .HM_STACKCMD_busy 1 s).wr .HM_STACKSTAT_training (ofBool (cur == 0)) s

/-- STACK_SET_STATE (R356). -/
def execStackSetState (h : Stack) (v : Word) (s : State) : Host.Outcome State Fault Refusal :=
  onHw (fun m => m.stackCmd h v.toNat) s

/-- STACK_RETRAIN (R358). -/
def execStackRetrain (h : Stack) (v : Word) (s : State) : Host.Outcome State Fault Refusal :=
  onHw (fun m => m.stackCmd h v.toNat) s

/-- The accesses that a stack has accepted, performed before it leaves ACTIVE (R356). Those that wait for a tracker have not been
accepted: they find the stack gone (R357). -/
def Hw.stackDrain (h : Hw) (s : Nat) : Hw :=
  let h := h.over (h.hbm.reqs.filter (fun r => r.stack == s && !r.write)) (fun h r => h.sectorErrors s r.cls r.holds [] [])
  h.setHbm (fun b => { b with
    reqs := b.reqs.filter (fun r => r.stack != s), waiting := b.waiting.filter (fun w => w.1.stack != s) })

/-- A stack that enters OFF loses its contents (R356). -/
def Hw.stackLost (h : Hw) (s : Nat) : Hw :=
  { h with
    mem := h.mem.filter (fun c => !(inHbm c.1 && stackOf c.1 == s))
    poison := h.poison.filter (fun x => stackOf (64 * x) != s)
    lg := { h.lg with blank := h.lg.blank.filter (fun b => stackOf b != s) } }

/-- A stack in a state. Outside IDLE and ACTIVE no refresh is owed. -/
def Hw.stackEnter (h : Hw) (s t : Nat) : Hw :=
  let h := h.wr .HM_STACKSTAT_state t s
  let h := if t = 0 then h.stackLost s else h
  let h := if t < 2 then h.setHbm (fun b => { b with
      debt := setNth b.debt s (List.replicate 2048 0), near := b.near.filter (fun x => x.1 != s)
      rows := b.rows.filter (fun e => e.1.1 != s) }) else h
  if t = 3 then h.flushAccum else h

/-- A stack command's end: `trained` says whether the training, or the timing recheck of a stack that leaves RETENTION, passed. A
training that fails leaves the stack OFF. -/
def Hw.stackDone (h : Hw) (s : Nat) (trained : Bool) : Hw :=
  if !h.on .HM_STACKCMD_busy s then h
  else
    let cur := h.rd .HM_STACKSTAT_state s
    let target := h.rd .HM_STACKCMD_state s
    let trains := h.rd .HM_STACKCMD_op s == 2 || cur == 0
    let h := if cur = 3 then h.stackDrain s else h
    if trains && !trained then (h.stackEnter s 0).stackResult s 5
    else
      let h := if trains then (h.count .HM_STACKSTAT_trainings s).setHbm (fun b => { b with low := setNth b.low s false }) else h
      let h := if cur = 1 ∧ 1 < target ∧ !trained then h.setBit .HM_EVENT_events 2 else h
      (h.stackEnter s target).stackResult s 1

/-- STACK_CMD_DONE (R356). -/
def execStackCmdDone (h : Stack) (trained : Bool) (s : State) : Host.Outcome State Fault Refusal :=
  onHw (fun m => m.stackDone h trained) s

/-- A write of HM_SHARE (R348): outside its ranges, or with shares above 9.0 Tb/s together, it is ignored and
HM_DB_STAT[0].refused sets. -/
def Hw.shareWrite (h : Hw) (s v : Nat) : Hw :=
  let db := bits v 63 48
  let lk := bits v 47 32
  if 10 ≤ db ∧ db ≤ 40 ∧ 10 ≤ lk ∧ lk ≤ 80 ∧ db + lk ≤ 90 then
    ((h.wr .HM_SHARE_db_share db s).wr .HM_SHARE_lk_share lk s).wr .HM_SHARE_margin_thr (bits v 15 8) s
  else h.wr .HM_DB_STAT_refused 1 0

end Sys2Proof.Machine
end

