-- ==== Sys2Proof/Machine/Perf.lean ====
section
/-! DEFINITION. The performance counter sets: control writes, overflow, samples (spec/19_performance_counters.md, R429 to R435; the
events are counted where they fall, `Hw.pm` and `Hw.pmClerk`). -/

namespace Sys2Proof.Machine

/-- A write of a set's control register (R429, R433): all eight counters stop or start, and the cycle counter may be zeroed. -/
def Hw.pmControl (h : Hw) (t : PmSet) (v : Nat) : Hw :=
  match t with
  | .slice n =>
    let h := (h.wr .PM_CTRL_run (bits v 63 63) 0 n).wr .PM_CTRL_freeze_on_sample (bits v 0 0) 0 n
    if bit v 62 then h.setVal .PM_CYCLES 0 0 n else h
  | .clerk c =>
    let h := (h.wr .MC_PMCTRL_run (bits v 63 63) c).wr .MC_PMCTRL_freeze_on_sample (bits v 0 0) c
    if bit v 62 then h.setVal .MC_PMCYCLES 0 c else h

/-- PM_RUN (R433). -/
def execPmRun (t : PmSet) (v : Word) (s : State) : Host.Outcome State Fault Refusal := onHw (fun h => h.pmControl t v.toNat) s

/-- CYC_CLEAR (R429). -/
def execCycClear (t : PmSet) (s : State) : Host.Outcome State Fault Refusal :=
  onHw (fun h => match t with | .slice n => h.setVal .PM_CYCLES 0 0 n | .clerk c => h.setVal .MC_PMCYCLES 0 c) s

/-- A set as the wraps and samples name it: whether it is a clerk's, and its number. -/
def pmKey (t : PmSet) : Bool × Nat := match t with | .slice n => (false, n.val) | .clerk c => (true, c.val)

/-- A set that waits for its sample. -/
def Hw.armedSet (h : Hw) (t : Bool × Nat) : Option Armed := h.armed.find? (fun a => a.clerk == t.1 && a.unit == t.2)

/-- A counter of a set that samples has wrapped (R434): a sample is to be taken, or counted as missed; the counters may stop. -/
def Hw.takeSample (h : Hw) (t : Bool × Nat) (k : Nat) : Hw :=
  let i := t.2
  let held := (if t.1 then h.on .MC_PMSAMPLE_valid i else h.on .PM_SAMPLE_valid 0 i) || (h.armedSet t).isSome
  let h := if !held then { h with armed := h.armed ++ [⟨t.1, i, k, none⟩] }
    else if t.1 then h.countSat .MC_PMSTATUS_missed i else h.countSat .PM_STATUS_missed 0 i
  if t.1 then (if h.on .MC_PMCTRL_freeze_on_sample i then h.wr .MC_PMCTRL_run 0 i else h)
  else if h.on .PM_CTRL_freeze_on_sample 0 i then h.wr .PM_CTRL_run 0 0 i else h

/-- The wrap of a counter taken up: ovf sets, and the counter samples if it is set to. -/
def Hw.overflow (h : Hw) (t : Bool × Nat) (k : Nat) : Hw :=
  if !h.wraps.contains (t.1, t.2, k) then h
  else
    let h : Hw := { h with wraps := delFirst (· == (t.1, t.2, k)) h.wraps }
    let h := if t.1 then h.setBit .MC_PMSTATUS_ovf k t.2 else h.setBit .PM_STATUS_ovf k 0 t.2
    if (if t.1 then h.on .MC_PMSEL_sample_en (8 * t.2 + k) else h.on .PM_SEL_sample_en k t.2) then h.takeSample t k else h

/-- COUNTER_OVERFLOW (R434): a counter of the set has passed from its greatest value to 0. -/
def execCounterOverflow (t : PmSet) (k : Fin 8) (s : State) : Host.Outcome State Fault Refusal := onHw (fun h => h.overflow (pmKey t) k) s

/-- The sample of a set written once its frame or microword has come (R435). -/
def Hw.capture (h : Hw) (t : Bool × Nat) : Hw :=
  match h.armedSet t with
  | some ⟨clerk, i, k, some f⟩ =>
    let h : Hw := { h with armed := delFirst (fun a => a.clerk == clerk && a.unit == i) h.armed }
    if clerk then h.setVal .MC_PMSAMPLE (2 ^ 63 + (k <<< 60) + ((nth f 1 0 % 16) <<< 56) + nth f 0 0 % 2048) i
    else
      (h.setVal .PM_SAMPLE (2 ^ 63 + (k <<< 60) + ((nth f 2 0 % 16) <<< 56) + ((nth f 3 0 % 2) <<< 55) + ((nth f 1 0 % 1024) <<< 40)
        + nth f 0 0 % 65536) 0 i).setVal .PM_SAMPLE_TIME (nth f 4 0) 0 i
  | _ => h

/-- SAMPLE_CAPTURE (R435). -/
def execSampleCapture (t : PmSet) (s : State) : Host.Outcome State Fault Refusal := onHw (fun h => h.capture (pmKey t)) s

end Sys2Proof.Machine
end

