-- ==== Sys2Proof/Machine/Scheduler.lean ====
section
/-! DEFINITION. The port schedulers and the recirculation scheduler: eligibility, the pick, the checks at dequeue and the context
that a picked copy takes (spec/11_queues_scheduling_and_policing.md, R264 to R267, R276, R278, R280, R281; R253 of 10; R146, R148
of 06). -/

namespace Sys2Proof.Machine

/-! ### Queue links (R281) -/

/-- Every copy of a queue beyond a failing link to its head discarded with 0x6E, those of its HBM part by a purge walk (R364). -/
def Hw.checkLink (h : Hw) (n q : Nat) : Hw :=
  match (h.queue n q).die with
  | [] => h
  | c :: _ => if c.linkOk then h else (h.flushQueue n q 0x6E).raise 0x701 n

/-! ### Finish times (R267) -/

/-- Finish times given to the heads of a port that have none yet (all of them after a change to FAIR mode). -/
def Hw.giveFinish (h : Hw) (p : Nat) : Hw := h.each 16 (fun h q => h.giveHead (portSl p) (portQ p q))

/-- V advanced to a finish time: a last finish time that V passes is raised to it. -/
def Hw.advanceV (h : Hw) (p v : Nat) : Hw :=
  let h := h.setSched p { h.sched p with v := v }
  h.each 16 (fun h q =>
    let n := portSl p
    let x := h.queue n (portQ p q)
    if serialLt x.flast v then h.setQueue n (portQ p q) { x with flast := v } else h)

/-! ### Eligibility (R265, R276) -/

/-- Whether the head of a queue of a port may be picked, its link being up or the port frozen (R280). -/
def Hw.eligible (h : Hw) (p q : Nat) : Bool :=
  match (h.queue (portSl p) (portQ p q)).die with
  | [] => false
  | c :: _ => c.visible && (h.link p == 5 || h.portFrozen p) && (!h.gated p q || (h.gateOpen p q && h.fits p q c.size))

/-- Whether the head of a queue is held back only because it does not fit its window. -/
def Hw.deferred? (h : Hw) (p q : Nat) : Bool :=
  match (h.queue (portSl p) (portQ p q)).die with
  | [] => false
  | c :: _ => c.visible && h.gated p q && h.gateOpen p q && !h.fits p q c.size

/-- The counted length of the head of a queue. -/
def Hw.headCounted (h : Hw) (p q : Nat) : Nat :=
  match (h.queue (portSl p) (portQ p q)).die with
  | [] => 0
  | c :: _ => h.counted (portSl p) (portQ p q) c.size

/-! ### The pick (R266, R267) -/

/-- The number of visits that deficit round robin can need before a head is sent: the largest head over the least quantum, for each
queue. -/
def drrFuel : Nat := 5000

/-- Deficit round robin over the queues that are not strict, from the queue whose turn it is (R266.2 to R266.4). -/
def Hw.drr (h : Hw) (p : Nat) : Nat → Option Nat × Hw
  | 0 => (none, h)
  | k + 1 =>
    let n := portSl p
    let s := h.sched p
    let q := s.turn % 16
    let x := h.queue n (portQ p q)
    let next (h : Hw) : Hw := h.setSched p { h.sched p with turn := (q + 1) % 16, added := false }
    if h.on .TM_QCFG_strict (portQ p q) n then (next h).drr p k
    else if x.clear then (next (h.setQueue n (portQ p q) { x with deficit := 0 })).drr p k
    else if !h.eligible p q then (next h).drr p k
    else
      let d := if s.added then x.deficit
        else x.deficit + h.rd .TM_QCFG_weight (portQ p q) n * h.rd .TM_PORTCFG_quantum (portIx p) n
      let c : Int := h.headCounted p q
      if c ≤ d then
        (some q, (h.setQueue n (portQ p q) { x with deficit := d - c }).setSched p { s with turn := q, added := true })
      else (next (h.setQueue n (portQ p q) { x with deficit := d })).drr p k

/-- The pick of FAIR mode (R267): the eligible head of least finish time, the higher queue on a tie. -/
def Hw.fair (h : Hw) (p : Nat) : Option (Nat × Nat) :=
  let heads := (List.range 16).filterMap (fun q =>
    if h.eligible p q then
      (h.queue (portSl p) (portQ p q)).die.head?.bind (fun c => c.fin.map (fun f => (q, f)))
    else none)
  heads.foldl (fun (best : Option (Nat × Nat)) x =>
    match best with
    | none => some x
    | some b => if serialLt b.2 x.2 then some b else some x) none

/-- The queue that the scheduler of a port picks, if any is eligible. -/
def Hw.pick (h : Hw) (p : Nat) : Option Nat × Hw :=
  let n := portSl p
  let able := (List.range 16).filter (h.eligible p)
  if able.isEmpty then (none, h)
  else if h.rd .TM_PORTCFG_phase (portIx p) n = 1 then
    match (able.filter (fun q => h.on .TM_QCFG_strict (portQ p q) n)).getLast? with
    | some q => (some q, h)
    | none => h.drr p drrFuel
  else
    let h := h.giveFinish p
    match h.fair p with
    | none => (none, h)
    | some (q, f) =>
      (some q, (h.setQueue n (portQ p q) { h.queue n (portQ p q) with flast := f }).advanceV p f)

/-! ### Dequeue (R253, R259, R264) -/

/-- A copy taken from its queue: the WRED average follows, a queue that empties has its deficit set to 0, and the next copy reaches
the head. -/
def Hw.dequeue (h : Hw) (n q : Nat) (c : QCopy) : Hw :=
  let x := (h.queue n q).del c
  (h.setQueue n q { x with avg := wredAvg (h.rd .TM_WREDCTL_ewma_w (h.qWred n q) n) x.avg x.occ }).giveHead n q

/-- The buffer that a descriptor names, whatever its owner tag. -/
def Hw.bufAt (h : Hw) (n b : Nat) : Option Buf := ((h.pool n).bufs.find? (fun e => e.1 == b)).map (·.2)

/-- Whether the tenant and tag of a buffer header equal the descriptor's (R253). -/
def headerAgrees (b : Option Buf) (d : Desc) : Bool :=
  match b with
  | some b => mdTenant b.ext == d.tenant && mdTag b.ext == d.tcheck
  | none => false

/-- HV at E0 (R148). -/
def egressHv (md bytes : List Byte) : List Byte :=
  let k := if mdLen md = 0 then 384 else min (bytes.length - 4) 384
  List.replicate 128 0#8 ++ padTo 384 (bytes.take k)

/-- MD at E0 (R148): the parser's bytes, the copy's own destination, and the program area as it stood at the ingress fix. -/
def egressMd (ext : List Byte) (parsed : List Byte) (dest : Nat) : List Byte :=
  let md := if parsed.length = 16 then
      ext.take 20 ++ parsed.take 12 ++ slice ext 32 4 ++ parsed.drop 12 ++ ext.drop 40 else ext
  mdSet (mdSet md 40 2 dest) 46 2 0

/-- A picked copy enters E0 with a context of its own. -/
def Hw.enterEgress (h : Hw) (n pipe q : Nat) (c : QCopy) (b : Buf) (gateWin : Bool) (window : Option (Nat × Nat)) : Hw :=
  let (id, h) := h.fresh
  let port := if q < rcq then qPort n q else 0x3FF
  let md := egressMd b.ext b.info.parsed (if q < rcq then 0x1000 + port else 0x5000)
  let e : EgCtx := ⟨c.id, port, q % 16, c.desc.colour, decide (q = rcq), gateWin, c.cut, c.desc.buffer, c.desc.tag, b.ext, 0,
    [], c.whole, window⟩
  let x : Ctx := ⟨id, n, pipe, 12, .ready, egressHv md b.bytes, md, md, List.replicate 16 0#32, List.replicate 4 false,
    List.replicate 16 false, List.replicate 8 0#128, [], 0, [], [], [], [], [], 0, ⟨false, false, false, none, [], [], false⟩,
    b.bytes, if c.whole then some 0 else none, b.info, some e⟩
  { h with ctxs := h.ctxs ++ [x] }

/-- Whether a pipeline takes a copy into E0 (R50, R143, R144). -/
def Hw.takesEgress (h : Hw) (n pipe : Nat) : Bool :=
  h.serving n pipe && !h.held && decide (h.egressHeld n pipe < 32)
    && decide ((h.ctxs.filter (fun x => x.sl == n && x.pipe == pipe && x.engine == 12 && x.ph == .ready)).length < 8)

/-- A copy picked from a queue of a slice: its descriptor and buffer header checked (R253), discarded under FREEZE_PORT (R280), or
sent into the egress half. -/
def Hw.sendCopy (h : Hw) (n pipe q : Nat) (c : QCopy) (gateWin : Bool) (window : Option (Nat × Nat)) : Hw :=
  let b := h.bufAt n c.desc.buffer
  let drop (reason : Nat) : Hw := h.resolveCopy n q reason c.desc.tenant c.desc.ed c.size
  let freed (h : Hw) : Hw := h.free n c.desc.buffer c.desc.tag
  if !c.desc.good then (drop 0x66).raise 0x614 n pipe
  else if q < rcq && h.portFrozen (qPort n q) then (freed (drop 0x84)).maskUse n [portWord (qPort n q)]
  else if !headerAgrees b c.desc then (freed (drop 0x88)).raise 0x807 n pipe
  else match b with
    | some b =>
      let h := (h.qCount n q 0).qCount n q 1 (if q < rcq then h.counted n q c.size else 0)
      h.enterEgress n pipe q c b gateWin window
    | none => h

/-- SCHEDULER_PICK (R266): one pick of a port's scheduler, taken into a pipeline of its slice. -/
def execSchedulerPick (p : Port) (pipe : Fin 9) (s : State) : Host.Outcome State Fault Refusal :=
  onHw (fun h =>
    let n := portSl p
    if !h.takesEgress n pipe then h
    else
      let h := h.each 16 (fun h q => h.checkLink n (portQ p q))
      let late := (List.range 16).filter (h.deferred? p)
      let h := h.over late (fun h q => (h.qCount n (portQ p q) 6).pm n 0x54)
      match h.pick p with
      | (none, h) => h
      | (some q, h) =>
        match (h.queue n (portQ p q)).die with
        | [] => h
        | c :: _ =>
          let win := h.on .TM_QCFG_purchased (portQ p q) n && bit (h.sched p).slots q
          let window := if h.gated p q then some (h.counted n (portQ p q) c.size, h.gateEnd p q h.now) else none
          (h.dequeue n (portQ p q) c).sendCopy n pipe (portQ p q) c win window) s

/-- RECIRC_PICK (R146): the head of the recirculation queue enters E0. -/
def execRecircPick (n : Slice) (pipe : Fin 9) (s : State) : Host.Outcome State Fault Refusal :=
  onHw (fun h =>
    if !h.takesEgress n pipe then h
    else
      let h := h.checkLink n rcq
      match (h.queue n rcq).die with
      | [] => h
      | c :: _ => if c.visible then (h.dequeue n rcq c).sendCopy n pipe rcq c false none else h) s

end Sys2Proof.Machine
end

