-- ==== Sys2Proof/Machine/Strip.lean ====
section
/-! DEFINITION. The test strip: its rotation, its test with the reference frames of the current edition, and self-tests
(spec/02_isolation_and_fault_safety.md, R50 to R54; R129 of 05; R160 of 06). -/

namespace Sys2Proof.Machine

/-! ### Rotation (R50) -/

/-- Whether a pipeline holds no frame. -/
def Hw.pipeEmpty (h : Hw) (n p : Nat) : Bool := h.ingressHeld n p == 0 && h.egressHeld n p == 0

/-- The test of the strip begins, under the edition that is current now (R227). -/
def Hw.beginTest (h : Hw) (n : Nat) : Hw := h.setStrip n (fun s => { s with phase := .testing, ed := h.current })

/-- A drained pipeline becomes the strip, and its test begins. -/
def Hw.takeStrip (h : Hw) (n : Nat) : Hw :=
  match h.stripPhase n with
  | .draining q =>
    if h.pipeEmpty n q then ((h.wr .FC_STRIP_strip q n).count .FC_STRIP_rotations n).beginTest n else h
  | _ => h

/-- The tested pipeline rejoins service and the one that follows it stops accepting frames. -/
def Hw.rotate (h : Hw) (n former : Nat) : Hw :=
  ((h.wr .FC_STRIP_strip 15 n).setStrip n (fun s => { s with phase := .draining (h.nextPipe n former) })).takeStrip n

/-- STRIP_ROTATE (R50, R52, R464): a rotation that is due begins; one in progress completes once its pipeline has drained. -/
def execStripRotate (n : Slice) (s : State) : Host.Outcome State Fault Refusal :=
  onHw (fun h =>
    if h.inactive n then h
    else match h.stripPhase n with
      | .none => h
      | .draining _ => h.takeStrip n
      | .waiting p => h.rotate n p
      | _ => h.rotate n (h.rd .FC_STRIP_strip n)) s

/-- STRIP_STALL (R50): the next pipeline returns to service; the rotation is tried again at the next period. Whether the record names
the pipeline that did not drain the spec leaves open: it does (DESIGN CHOICE, log entry 73). -/
def execStripStall (n : Slice) (s : State) : Host.Outcome State Fault Refusal :=
  onHw (fun h =>
    match h.stripPhase n with
    | .draining q =>
      if h.pipeEmpty n q then h
      else (h.setStrip n (fun s => { s with phase := .waiting (h.prevPipe n q) })).raise 0x813 n q
    | _ => h) s

/-! ### Reference frames (R129, R160) -/

/-- The latent writes of an engine as the reference digest takes them. -/
def latentRecord (engine : Nat) (l : Latent) : List Byte :=
  let row (op a b : Nat) : List Byte := leBytes 1 op ++ leBytes 1 engine ++ leBytes 2 0 ++ leBytes 4 a ++ leBytes 8 b
  match l with
  | .cnt i n => row 1 i n
  | .meter i _ len => row 2 (i % 2) len
  | .ledger line => row 3 line 0
  | .learn _ key v => row 4 (crc crc32c 0 (beBytes 8 key)) v

/-- Every launch of a context searched: lookups on the strip are real. -/
def Hw.searchAll (h : Hw) (n c : Nat) : Nat → Hw
  | 0 => h
  | k + 1 =>
    match (h.lookupOf c).bind (fun x => x.launches.find? (fun l => l.done.isNone)) with
    | none => h
    | some l =>
      (match l.table with
        | 1 => h.search n c 1 (tcSearch n)
        | 2 => h.search n c 2 (gcSearch n)
        | 3 => h.search n c 3 (clSearch n)
        | 4 => h.search n c 4 (lpSearch n)
        | 5 => h.search n c 5 (exSearch n)
        | _ => h.search n c 6 (hxSearch n)).searchAll n c k

/-- A routine run to its end on the strip: its nano-words, and its lookups as they are launched. -/
def Hw.runRoutine (h : Hw) (n c : Nat) : Nat → Hw
  | 0 => h
  | k + 1 =>
    match h.ctx? c with
    | none => h
    | some x =>
      match x.ph with
      | .run ua =>
        if h.rd .SE_CTRL_beat_limit 0 n ≤ x.beats then h.abort x 0x37
        else ((h.nanoWord x ua).searchAll n c 2).runRoutine n c k
      | _ => h

/-- The routines of engines `e` up to and including `last` run on the strip, their latent writes taken down and not applied.
Answers the context at its last fix, none if the frame was dropped. -/
def Hw.runEngines (h : Hw) (n c last : Nat) (log : List Byte) : Nat → Option Ctx × List Byte × Hw
  | 0 => (none, log, h)
  | k + 1 =>
    match h.ctx? c with
    | none => (none, log, h)
    | some x =>
      let h := (h.startRoutine x).runRoutine n c 256
      match h.ctx? c with
      | none => (none, log, h)
      | some x =>
        let log := log ++ x.latent.flatMap (latentRecord x.engine)
        let y : Ctx := { x.restore with latent := [], metered := [] }
        if y.engine = last then (some y, log, h)
        else (h.setCtx { y with engine := y.engine + 1, ph := .ready }).runEngines n c last log k

/-- A reference record's fields. -/
def recLength (r : List Byte) : Nat := leNat (slice r 0 8) % 16384

/-- The frame of a record admitted to the strip pipeline as if it had arrived on its port, on a machine that the test discards. -/
def Hw.refAdmit (h : Hw) (n pipe : Nat) (r : List Byte) : Hw :=
  let p := 96 * n + bits (leNat (slice r 0 8)) 25 16 % 96
  let f : RxFrame := ⟨h.ids, h.now, slice r 16 (recLength r), false, some 0, none⟩
  let h := { h with ctxs := [], astray := [], formers := [], punts := [], lastDrop := 0 }
  if h.fabricPort p && etherType f.bytes == 0x88B5 then h.admitShogen n pipe p f false else h.admitReceived n pipe p f false

/-- The ingress half of a reference frame: the context at its ingress fix, if it is not dropped there, with what is recorded. -/
def Hw.refIngress (h : Hw) (n pipe : Nat) (r : List Byte) : Option Ctx × List Byte × Hw :=
  let h := h.refAdmit n pipe r
  match h.ctxs with
  | [x] =>
    match h.runEngines n x.id 11 [] 12 with
    | (some y, log, h) =>
      let quiet : Ctx := { y with
        md := mdSet y.md 44 2 0, verdicts := { y.verdicts with punts := [], mirrors := [] } }
      let h' := ({ h with lastDrop := 0 } : Hw).ingressFix quiet
      let group := mdKind (h.destination y).1 == 3 && h.on .XB_GROUP_valid (mdDest (h.destination y).1)
      if h'.lastDrop ≠ 0 ∧ group = false then (none, log, h') else (some y, log, h)
    | (none, log, h) => (none, log, h)
  | _ => (none, [], h)

/-- The egress half: the frame enters E0 of the same pipeline with its HV formed anew (R148). -/
def Hw.refEgress (h : Hw) (n pipe : Nat) (x : Ctx) (log : List Byte) : Option Ctx × List Byte × Hw :=
  let md := (h.destination x).1
  let p := mdDest md % 1024
  let q : QCopy := ⟨0, ⟨0, x.bytes.length, 0, mdTenant md, mdTag md, mdEdition md, p, 0, 0, false, false, true⟩, md, 0, 0, true, true,
    true, false, 0, true, none⟩
  let h := ({ h with ctxs := [] } : Hw).enterEgress n pipe 0 q ⟨0, 1, md, x.bytes, x.info⟩ false none
  let aim (y : Ctx) : Ctx := { y with
    md := mdSet y.md 40 2 (fieldAt md 40 2), pmd := mdSet y.pmd 40 2 (fieldAt md 40 2)
    eg := y.eg.map (fun e => { e with port := p }) }
  let h : Hw := { h with ctxs := h.ctxs.map aim }
  match h.ctxs with
  | [y] => h.runEngines n y.id 15 log 4
  | _ => (none, log, h)

/-- The counts and records that lookups leave (R129): the tables' statistics, and what the HBM controller records of HX reads. -/
def lookupCounts : List RegName := [.CL_CNT, .GC_CNT, .FT_CNT, .HM_SCNT, .HM_ERRLOG, .HM_EVENT]
/-- The faults that lookups and the reads of stores find. -/
def lookupFaults : List Nat := [0x210, 0x211, 0x401, 0x403, 0x410, 0x411, 0x412, 0x413, 0x711]

/-- What a test frame leaves behind (R129): its lookups are real, so their statistics and the faults they find stand; everything else
of the machine `t` that ran it is discarded. -/
def Hw.keepLookups (h t : Hw) : Hw :=
  let rs := ((h.words ++ t.words).map (·.1)).filter (fun r => lookupCounts.contains r.name)
  let found := (t.fc.queue.drop h.fc.queue.length).filter (fun f => lookupFaults.contains f.code)
  let h := h.over rs (fun h r => h.setReg r (t.reg r))
  { h with fc := { h.fc with queue := h.fc.queue ++ found }, drawn := t.drawn }

/-- Whether a reference record gives its expected result on a pipeline: the drop reason, or the digest; and the machine that ran it. -/
def Hw.refPasses (h : Hw) (n pipe : Nat) (r : List Byte) : Bool × Hw :=
  let w := leNat (slice r 0 8)
  let expect (h : Hw) : Bool × Hw := (bit w 31 && h.lastDrop == bits w 39 32, h)
  match h.refIngress n pipe r with
  | (none, _, h) => expect h
  | (some x, log, h) =>
    match h.refEgress n pipe x log with
    | (none, _, h) => expect h
    | (some y, log, h) =>
      match y.egressReason true with
      | some reason => (bit w 31 && reason == bits w 39 32, h)
      | none =>
        (!bit w 31 && leNat (slice r 8 8) ==
          crc crc64 0 (mdSet x.md 8 8 0 ++ log ++ y.hv ++ leBytes 4 (nth y.g 15 0#32).toNat), h)

/-- Reference records run in index order, up to the first that fails: `k` records from record `i`, under an edition. Answers the
record that fails. -/
def Hw.refRecords (h : Hw) (n pipe ed base i : Nat) : Nat → Option Nat × Hw
  | 0 => (none, h)
  | k + 1 =>
    let (ok, t) := (h.wr .ED_STATUS_current ed).refPasses n pipe (h.load (base + 1024 * i) 1024)
    let h := h.keepLookups t
    if ok then h.refRecords n pipe ed base (i + 1) k else (some i, h)

/-- The reference part of a pipeline's test on the records of an edition's bank (R160): the first record that fails. The records are
read by class SHADOW (R345); if they cannot be read, the part is skipped and F-0x214 raised, naming no pipeline (R162). -/
def Hw.refRun (h : Hw) (n pipe ed : Nat) : Option Nat × Hw :=
  let base := h.rd .SE_REFBASE_base 0 n ed
  let k := h.rd .SE_REFBASE_ref_count 0 n ed
  if k = 0 then (none, h)
  else if !h.stackActive base then (none, h.raise 0x214 n)
  else match h.fetch 4 base (1024 * k) with
    | (false, h) => (none, h.raise 0x214 n)
    | (true, h) => h.refRecords n pipe ed base 0 k

/-- A pipeline's test (R51) under an edition: the first item that fails, `fault` being what its self-test and countersign vectors
find. -/
def Hw.testPipe (h : Hw) (n pipe ed : Nat) (fault : Option Nat) : Option Nat × Hw :=
  let (r, h) := h.refRun n pipe ed
  (fault <|> r, h)

/-- The self-test that runs in a slice notes that a pipeline has been tested (R54): a failing item is the record or item that fails
for STRIP_NOW, the pipeline for PIPELINES_ALL. -/
def StripSt.tested (s : StripSt) (pipe : Nat) (fault : Option Nat) : StripSt :=
  match s.selftest with
  | some 0 => { s with failed := s.failed <|> fault }
  | some 1 => { s with failed := s.failed <|> fault.map (fun _ => pipe), left := s.left.filter (· != pipe) }
  | _ => s

/-- The strip's test ends (R51): its pipeline passes, or raises F-0x810 and is retired. -/
def Hw.endTest (h : Hw) (n : Nat) (fault : Option Nat) : Hw :=
  let p := h.rd .FC_STRIP_strip n
  let (fault, h) := h.testPipe n p (nth h.fc.strip n StripSt.reset).ed fault
  let h := h.setStrip n (fun s => s.tested p fault)
  match fault with
  | none => h.setStrip n (fun s => { s with phase := .rest })
  | some _ => h.retirePipe n p

/-- STRIP_TEST_DONE (R51): the strip's test ends; `fault` is the first item that its self-test finds to fail. -/
def execStripTestDone (n : Slice) (fault : Option (BitVec 16)) (s : State) : Host.Outcome State Fault Refusal :=
  onHw (fun h => if h.stripPhase n = .testing then h.endTest n (fault.map BitVec.toNat) else h) s

/-! ### Self-tests (R54) -/

/-- Whether a self-test target can run in a slice now: on its strip, or, for any target, in RETENTION. -/
def Hw.canTest (h : Hw) (n target : Nat) : Bool :=
  h.slicePower n == 1 || (decide (2 ≤ h.slicePower n) && [0, 1, 4].contains target && h.rd .FC_STRIP_strip n != 15)

/-- FC_SELFTEST written (R54). -/
def Hw.selftest (h : Hw) (v : Nat) : Hw :=
  let n := bits v 62 60
  let t := bits v 59 56
  if !bit v 63 || h.rd .FC_SELFTEST_STATUS_state == 1 || decide (5 < t) then h
  else
    let h := (h.wr .FC_SELFTEST_STATUS_pass 0).wr .FC_SELFTEST_STATUS_first_fail 0
    if !h.canTest n t then h.wr .FC_SELFTEST_STATUS_state 3
    else
      let strip := decide (2 ≤ h.slicePower n)
      let h := h.setStrip n (fun s => { s with
        selftest := some t, failed := none,
        left := if t = 1 then (List.range 9).filter (fun p => !bit (h.rd .FC_STRIP_retired n) p) else [] })
      (if t < 2 ∧ strip = true then h.beginTest n else h).wr .FC_SELFTEST_STATUS_state 1

/-- SELFTEST. -/
def execSelftest (v : Word) (s : State) : Host.Outcome State Fault Refusal := onHw (fun h => h.selftest v.toNat) s

/-- The self-test that runs in a slice is over with its result: pass, or the first item that fails. -/
def Hw.selftestResult (h : Hw) (n : Nat) (fault : Option Nat) : Hw :=
  let h := h.setStrip n (fun s => { s with selftest := none, left := [], failed := none })
  let h := (h.wr .FC_SELFTEST_STATUS_state 2).wr .FC_SELFTEST_STATUS_pass (ofBool fault.isNone)
  match fault with | none => h | some i => h.wr .FC_SELFTEST_STATUS_first_fail i

/-- PIPELINES_ALL in a slice in RETENTION, where every pipeline can be tested: one that fails its test is retired. Answers the first
that fails; `fault` is the pipeline that its self-test finds to fail. -/
def Hw.testAll (h : Hw) (n : Nat) (fault : Option Nat) : List Nat → Option Nat × Hw
  | [] => (none, h)
  | p :: r =>
    let (f, h) := h.testPipe n p h.current (if fault = some p then fault else none)
    let (later, h) := (if f.isSome then h.retirePipe n p else h).testAll n fault r
    (if f.isSome then some p else later, h)

/-- SELFTEST_DONE (R54): the self-test that runs in a slice comes to its end; `firstFail` is the first item that the hardware finds to
fail. STRIP_NOW ends with the strip's test; PIPELINES_ALL goes on until every pipeline has been the strip or the slice has no strip
left. -/
def execSelftestDone (n : Slice) (firstFail : Option (BitVec 16)) (s : State) : Host.Outcome State Fault Refusal :=
  onHw (fun h =>
    let fault := firstFail.map BitVec.toNat
    match (nth h.fc.strip n StripSt.reset).selftest with
    | none => h
    | some t =>
      if t < 2 ∧ 2 ≤ h.slicePower n then
        let h := if h.stripPhase n = .testing then h.endTest n fault else h
        let x := nth h.fc.strip n StripSt.reset
        if t = 1 ∧ x.left ≠ [] ∧ x.phase ≠ .none then h else h.selftestResult n x.failed
      else if t = 1 then
        let (f, h) := h.testAll n fault (nth h.fc.strip n StripSt.reset).left
        h.selftestResult n f
      else
        let p := h.rd .FC_STRIP_strip n
        let h := h.selftestResult n fault
        if t = 0 ∧ fault.isSome = true ∧ p < 9 then h.retirePipe n p else h) s

end Sys2Proof.Machine
end

