-- ==== Sys2Proof/Machine/Power.lean ====
section
/-! DEFINITION. Power states of slices, lanes and clerks, supply alarms, power failure and temperature
(spec/21_clocks_power_and_reset.md, R461 to R472). -/

namespace Sys2Proof.Machine

/-- A PW_EVENT bit set. -/
def Hw.pwEvent (h : Hw) (b : Nat) : Hw := h.setBit .PW_EVENT_events b

/-! ### Slices (R462 to R465) -/

/-- A slice's state in force. -/
def Hw.setSlice (h : Hw) (n v : Nat) : Hw := h.wr .PW_SLICESTAT_state v n

/-- The frames that a slice still holds discarded (R464): contexts, copies, landing frames, frames that wait for places. -/
def Hw.sliceDiscard (h : Hw) (n : Nat) : Hw :=
  let h := h.over (h.ctxs.filter (fun x => x.sl == n)) (fun h x => h.dropCtx x 0x11)
  let h := h.over (h.formers.filter (fun f => f.src == n && f.cells == 0)) (fun h f => h.dropFormer f 0x11)
  let h := h.over (h.landings.filter (fun l => l.sl == n)) (fun h l => h.killLanding l 0x11)
  let h := h.flushSlice n 0x11
  let h : Hw := { h with astray := h.astray.filter (fun x => x.sl != n) }
  ({ h with recirc := h.recirc.filter (fun r => r.sl != n) } : Hw).over (h.recirc.filter (fun r => r.sl == n)) (fun h r =>
    ((h.dropped n 0x11 (mdTenant r.md)).errHeld n (mdTenant r.md) r.bytes.length).edDown n (mdEdition r.md))

/-- Whether a slice holds no packet context and every queue of it is empty (R464). -/
def Hw.sliceDrained (h : Hw) (n : Nat) : Bool :=
  !h.ctxs.any (fun x => x.sl == n) && !h.formers.any (fun f => f.src == n && f.ctx.isSome) && (h.busyQueues n).isEmpty

/-- Entry into RETENTION: what the slice's buffer, queues, contexts and crossbar places hold is lost. -/
def Hw.enterRetention (h : Hw) (n : Nat) : Hw :=
  ((h.sliceDiscard n).stopStreams (fun k => k.1 == n || k.2.2 == n) 0x11).setSlice n 1

/-- The arrays that lie in every slice, each its own. -/
def sliceArrays : List RegName :=
  [.A_TC, .A_EX, .A_ROOT, .A_SLOT, .A_LEAF, .A_CO, .A_CLV, .A_CLM, .A_CLA0, .A_CLA1, .A_GCW, .A_GCA, .A_PCP, .A_PCB,
   .A_FREEZE]

/-- Whether a slice loses a register or array word when it is power-gated: its reference monitor is the SerDes chiplet's own. -/
def lostOff (n : Nat) (r : Reg) : Bool :=
  r.sl == n && r.name != .SD_REFSTAT
    && (sliceArrays.contains r.name || ((regRow r.name).space == .slice && !(regRow r.name).shared))

/-- Every register, store, table and counter of a slice at its reset value. -/
def Hw.sliceReset (h : Hw) (n : Nat) : Hw :=
  let h : Hw := { h with
    words := h.words.filter (fun e => !lostOff n e.1)
    bad := h.bad.filter (fun r => !lostOff n r)
    wrote := h.wrote.filter (fun r => !lostOff n r)
    pools := h.pools.filter (fun e => e.1 != n)
    queues := h.queues.filter (fun e => e.1 / 2048 != n)
    dbs := h.dbs.filter (fun e => e.1 != n)
    scheds := h.scheds.filter (fun e => portSl e.1 != n)
    ports := h.ports.filter (fun e => portSl e.1 != n)
    links := h.links.filter (fun e => portSl e.1 != n)
    moves := h.moves.filter (fun m => m.1 != n)
    cam := h.cam.filter (fun x => x.sl != n) }
  h.watch

/-- Entry into OFF (R462, R465): what the slice holds is lost, and its replica is stale. -/
def Hw.enterOff (h : Hw) (n : Nat) : Hw := ((h.setSlice n 0).sliceReset n).wr .FT_STATUS_stale 1 0 n

/-- Leaving OFF (R465): the slice holds reset values everywhere; its replica stays stale where it was. -/
def Hw.leaveOff (h : Hw) (n : Nat) : Hw :=
  ((h.sliceReset n).wr .FT_STATUS_stale (h.rd .FT_STATUS_stale 0 n) 0 n).setSlice n 1

/-- The start-up test of a slice (R463): all nine pipelines, those retired apart; `failed` are the pipelines whose self-test fails. -/
def Hw.startupTest (h : Hw) (n failed : Nat) : Hw :=
  h.each 9 (fun h p =>
    if bit (h.rd .FC_STRIP_retired n) p then h
    else
      let (fault, h) := h.testPipe n p h.current (if bit failed p then some p else none)
      if fault.isNone then h else h.retirePipe n p)

/-- The next state on the way from a state to a target (R463). -/
def sliceStep (cur target : Nat) : Nat :=
  if target < cur then cur - 1 else if cur = 0 then 1 else 3

/-- The refusal of a step (R461, R463): 0 for none. -/
def Hw.stepRefusal (h : Hw) (n target : Nat) : Nat :=
  if h.slicePower n = 2 ∧ target < 2 then
    (if (List.range 96).any (fun i => h.rd .PT_STATUS_state i n != 0) then 3 else 0)
  else if target = 3 ∧ h.on .FT_STATUS_stale 0 n = true then 4 else 0

/-- A slice command ends with a result. -/
def Hw.sliceEnd (h : Hw) (n result : Nat) : Hw :=
  (((h.wr .PW_SLICECMD_busy 0 n).wr .PW_SLICESTAT_testing 0 n).wr .PW_SLICECMD_result result n).pwEvent 0

/-- The next step of a slice command begins, unless its target is reached or the step refused. -/
def Hw.sliceGo (h : Hw) (n : Nat) : Hw :=
  let target := h.rd .PW_SLICECMD_state n
  if h.slicePower n = target then h.sliceEnd n 1
  else
    let r := h.stepRefusal n target
    if r ≠ 0 then h.sliceEnd n r
    else h.wr .PW_SLICESTAT_testing (ofBool (h.slicePower n == 1 && target == 3)) n

/-- PW_SLICECMD written (R461, R463, R465): a write with go while busy is ignored. -/
def Hw.sliceCmd (h : Hw) (n v : Nat) : Hw :=
  let bank (h : Hw) : Hw := h.wr .PW_SLICECMD_load_bank (if bits v 53 52 = 3 then 0 else bits v 53 52) n
  if !bit v 63 then bank h
  else if h.on .PW_SLICECMD_busy n then h
  else
    let h := bank h
    let cur := h.slicePower n
    let target := bits v 57 56
    if cur = target then h.sliceEnd n 1
    else if h.held = true ∧ cur < target ∧ 1 < target then h.sliceEnd n 6
    else if cur < 2 ∧ cur < target ∧ ¬(cur = 1 ∧ target = 3) ∧ ¬(cur = 0 ∧ target = 1) then h.sliceEnd n 2
    else ((h.wr .PW_SLICECMD_busy 1 n).wr .PW_SLICECMD_state target n).sliceGo n

/-- SLICE_POWER_CMD (R463). -/
def execSlicePowerCmd (n : Slice) (v : Word) (s : State) : Host.Outcome State Fault Refusal := onTx (fun h => h.sliceCmd n v.toNat) s

/-- A state change that the device forces on a slice (R469, R471). -/
def Hw.forceSlice (h : Hw) (n v : Nat) : Hw :=
  if h.slicePower n ≤ v then h
  else
    let h := h.sliceDiscard n
    (if v = 0 then (h.enterRetention n).enterOff n else h.setSlice n v).pwEvent 7

/-- A slice forced to a state, once a commanded transition in progress has completed (R472). -/
def Hw.forceSliceLater (h : Hw) (n v : Nat) : Hw :=
  if h.on .PW_SLICECMD_busy n then { h with io := { h.io with forced := h.io.forced ++ [(n, v)] } } else h.forceSlice n v

/-- The changes forced on a slice or a lane that have waited. -/
def Hw.forcedNow (h : Hw) (who : Nat) (f : Hw → Nat → Hw) : Hw :=
  ({ h with io := { h.io with forced := h.io.forced.filter (fun e => e.1 != who) } } : Hw).over
    (h.io.forced.filter (fun e => e.1 == who)) (fun h e => f h e.2)

/-- A step of a slice command completed: the state it leads to is in force. -/
def Hw.sliceReach (h : Hw) (n failed : Nat) : Hw :=
  let target := h.rd .PW_SLICECMD_state n
  let h := match sliceStep (h.slicePower n) target with
    | 0 => h.enterOff n
    | 1 => if h.slicePower n = 0 then h.leaveOff n else h.enterRetention n
    | 2 => h.setSlice n 2
    | _ => if h.slicePower n = 1 then ((h.startupTest n failed).poolInit n).setSlice n 3 else h.setSlice n 3
  let h := h.sliceGo n
  if h.on .PW_SLICECMD_busy n then h else h.forcedNow n (fun h v => h.forceSlice n v)

/-- SLICE_TRANSITION_DONE (R463, R464): QUIESCENT is reached only once the slice has drained. -/
def execSliceTransitionDone (n : Slice) (failed : BitVec 9) (s : State) : Host.Outcome State Fault Refusal :=
  onTx (fun h =>
    if !h.on .PW_SLICECMD_busy n then h
    else if h.slicePower n == 3 && !h.sliceDrained n then h
    else h.sliceReach n failed.toNat) s

/-- QUIESCE_TIMEOUT (R464): the remaining copies are discarded, and entry completes. -/
def execQuiesceTimeout (n : Slice) (s : State) : Host.Outcome State Fault Refusal :=
  onTx (fun h =>
    if h.on .PW_SLICECMD_busy n && h.slicePower n == 3 && decide (h.rd .PW_SLICECMD_state n < 3) then
      (h.sliceDiscard n).sliceReach n 0
    else h) s

/-! ### Lanes (R62, R66, R67, R466) -/

/-- SD_LANECFG written: the fields of R62 only on a lane of no enabled port, a loopback only on a free lane. -/
def Hw.laneWrite (h : Hw) (l v : Nat) : Hw :=
  let j := l % 96
  let n := l / 96
  if bits v 63 62 = 3 ∨ 2 < bits v 57 55 then h
  else
    let taken := match h.portOf l with | some p => h.cfg .PT_CFG_enable p == 1 | none => false
    let h := ((h.wr .SD_LANECFG_adapt_freeze (bits v 59 59) j n).wr .SD_LANECFG_tx_eq_override (bits v 58 58) j n).wr
      .SD_LANECFG_tx_pre2 (bits v 47 40) j n
    let h := ((h.wr .SD_LANECFG_tx_pre1 (bits v 39 32) j n).wr .SD_LANECFG_tx_main (bits v 31 24) j n).wr
      .SD_LANECFG_tx_post1 (bits v 23 16) j n
    let h := if h.rd .SD_LANESTAT_adapt j n = 0 then h
      else h.wr .SD_LANESTAT_adapt (if bit v 59 then 3 else if h.on .SD_LANESTAT_cdr_lock j n then 2 else 1) j n
    if taken then h
    else
      let h := ((h.wr .SD_LANECFG_pwr (bits v 63 62) j n).wr .SD_LANECFG_rx_invert (bits v 61 61) j n).wr
        .SD_LANECFG_tx_invert (bits v 60 60) j n
      if h.laneFree l then h.wr .SD_LANECFG_loopback (bits v 57 55) j n else h

/-- LANE_POWER (R466). -/
def execLanePower (l : Lane) (v : Word) (s : State) : Host.Outcome State Fault Refusal := onHw (fun h => h.laneWrite l v.toNat) s

/-- A lane in a power state: its PLL is locked but in OFF, its receiver adapts only in ACTIVE. -/
def Hw.setLane (h : Hw) (l v : Nat) : Hw :=
  let j := l % 96
  let n := l / 96
  let h := (h.wr .SD_LANESTAT_pwr_state v j n).wr .SD_LANESTAT_pll_lock (ofBool (v != 0)) j n
  let h := if v = 0 then h.wr .SD_LANESTAT_sig_detect 0 j n else h
  if v = 2 then h.wr .SD_LANESTAT_adapt (if h.on .SD_LANECFG_adapt_freeze j n then 3 else 1) j n
  else (h.wr .SD_LANESTAT_cdr_lock 0 j n).wr .SD_LANESTAT_adapt 0 j n

/-- A state forced on a lane: its ports leave UP with its lock. -/
def Hw.forceLane (h : Hw) (l v : Nat) : Hw :=
  if h.rd .SD_LANESTAT_pwr_state (l % 96) (l / 96) ≤ v then h
  else
    let h := match h.portOf l with | some p => h.signalLoss p true (h.midFrame p) | none => h
    ((h.setLane l v).wr .SD_LANECFG_pwr v (l % 96) (l / 96)).pwEvent 7

/-- LANE_TRANSITION_DONE (R466): one step toward SD_LANECFG.pwr. -/
def execLaneTransitionDone (l : Lane) (s : State) : Host.Outcome State Fault Refusal :=
  onTx (fun h =>
    let j := portIx l
    let n := portSl l
    let cur := h.rd .SD_LANESTAT_pwr_state j n
    let target := h.rd .SD_LANECFG_pwr j n
    if cur = target then h
    else
      let h := h.setLane l (if cur = 0 ∧ target = 2 then 1 else target)
      if h.rd .SD_LANESTAT_pwr_state j n = target then h.forcedNow (8 + l) (fun h v => h.forceLane l v) else h) s

/-! ### Clerks (R468) -/

/-- A clerk's power state. -/
def Hw.setClerkPower (h : Hw) (c v : Nat) : Hw :=
  h.wr .PW_STATUS_clerk_pwr (setBits (h.rd .PW_STATUS_clerk_pwr) (2 * c + 1) (2 * c) v)

/-- A clerk command ends with a result. -/
def Hw.clerkEnd (h : Hw) (c result : Nat) : Hw :=
  ((h.wr .PW_CLERKCMD_busy 0 c).wr .PW_CLERKCMD_result result c).pwEvent 1

/-- PW_CLERKCMD written (R461, R468): target 2 is reserved. -/
def Hw.clerkPowerCmd (h : Hw) (c v : Nat) : Hw :=
  let target := bits v 57 56
  if !bit v 63 || h.on .PW_CLERKCMD_busy c || target == 2 then h
  else if h.clerkPower c = target then h.clerkEnd c 1
  else if h.clerkPower c = 0 ∧ target = 1 then h.clerkEnd c 2
  else if target = 0 ∧ h.clerkState c ≠ 0 then h.clerkEnd c 5
  else (h.wr .PW_CLERKCMD_busy 1 c).wr .PW_CLERKCMD_state target c

/-- CLERK_POWER_CMD (R468). -/
def execClerkPowerCmd (c : Clerk) (v : Word) (s : State) : Host.Outcome State Fault Refusal :=
  onHw (fun h => h.clerkPowerCmd c v.toNat) s

/-- A clerk power-gated: its stores, registers and local memory are lost. -/
def Hw.clerkOff (h : Hw) (c : Nat) : Hw :=
  let lost (r : Reg) : Bool :=
    (r.name == .MC_UW && r.ix / 2048 == c) || (r.name == .MC_NW && r.bank < 8 && r.ix / 8192 == c)
      || (r.name == .MC_NW && r.bank == 8 && r.ix / 8 == c)
  let h : Hw := { h with
    words := h.words.filter (fun e => !lost e.1)
    bad := h.bad.filter (fun r => !lost r)
    mem := h.mem.filter (fun e => !(decide (0x11000000 + 0x80000 * c ≤ e.1) && decide (e.1 < 0x11080000 + 0x80000 * c))) }
  h.setClerk c (fun _ => ClerkSt.reset)

/-- CLERK_POWER_DONE (R468): RETENTION waits until the clerk's accesses have completed. -/
def execClerkPowerDone (c : Clerk) (s : State) : Host.Outcome State Fault Refusal :=
  onHw (fun h =>
    let target := h.rd .PW_CLERKCMD_state c
    if !h.on .PW_CLERKCMD_busy c then h
    else if target = 1 ∧ (h.clerk c).loads ≠ [] then h
    else
      let h := if target = 0 then (h.clerkOff c).setClerkState c 0 else h
      ((h.setClerkPower c target).clerkEnd c 1).watch) s

/-! ### Supply, power failure and temperature (R469 to R471) -/

/-- Whether a rail supplies a die (R469): dies 0 and 1 core, 2 to 9 chiplets, 10 I/O, 11 to 14 stacks. -/
def railUsed (rail die : Nat) : Bool :=
  match rail with
  | 0 => die < 2 || die == 10
  | 1 => die < 2 || die == 10
  | 2 => decide (2 ≤ die) && decide (die < 10)
  | 3 => decide (2 ≤ die) && decide (die < 10)
  | 6 => die == 10
  | _ => decide (11 ≤ die)

/-- SUPPLY_ALARM (R469): the alarm, its fault and the changes that the device forces. -/
def Hw.supplyAlarm (h : Hw) (rail die : Nat) (glitch : Bool) : Hw :=
  let h := if h.rd .PW_RAILALARM_rails = 0 then h.wr .PW_RAILALARM_die die else h
  let h := ((h.setBit .PW_RAILALARM_rails rail).wr .PW_STATUS_supply_alarm 1).pwEvent 4
  if die < 2 then
    (h.raise (if glitch then 2 else 1) 8).over ((List.range 4).map (4 * die + ·)) (fun h n =>
      if h.slicePower n = 3 ∨ h.on .PW_SLICECMD_busy n = true then h.forceSliceLater n 2 else h)
  else if die < 10 then
    (h.raise 3 (die - 2)).over ((List.range 96).map (96 * (die - 2) + ·)) (fun h l =>
      if h.rd .SD_LANESTAT_pwr_state (l % 96) (l / 96) != h.rd .SD_LANECFG_pwr (l % 96) (l / 96) then
        { h with io := { h.io with forced := h.io.forced ++ [(8 + l, 1)] } }
      else h.forceLane l 1)
  else if die = 10 then (h.raise (if glitch then 2 else 1) 8).zeroize 2
  else h.raise 4 8

/-- SUPPLY_ALARM (R469). A rail that the die does not use is no event of the device. -/
def execSupplyAlarm (rail : Fin 7) (die : Fin 15) (glitch : Bool) (s : State) : Host.Outcome State Fault Refusal :=
  guarded (railUsed rail die) (onTx (fun h => h.supplyAlarm rail die glitch) s)

/-- PWR_FAIL_N (R470): registered once until device reset, the cut of last-gasp where it is armed. -/
def execPwrFailN (s : State) : Host.Outcome State Fault Refusal :=
  onTx (fun h =>
    if h.on .PW_STATUS_pwr_fail then h
    else (((h.wr .PW_STATUS_pwr_fail 1).pwEvent 5).raise 5 8).lastGaspCut) s

/-- Whether a stack is hotter than 85 degrees, as HM_STATUS.hot shows it, from a temperature in 1/16 degree. -/
def isHot (t : Int) : Bool := decide (85 * 16 < t)

/-- The temperature of a die as the device last had it, in 1/16 degree: whole degrees for a stack. -/
def Hw.dieTemp (h : Hw) (d : Nat) : Int :=
  if d < 11 then signed 16 (h.rd .PW_TEMP_temp d) else 16 * signed 8 (h.rd .HM_STACKSTAT_temp (d - 11))

/-- A reading of a die's hottest sensor. -/
def Hw.setTemp (h : Hw) (d t : Nat) : Hw :=
  if d < 11 then
    let h := h.wr .PW_TEMP_temp t d
    if signed 16 (h.rd .PW_TEMP_max d) < signed 16 t then h.wr .PW_TEMP_max t d else h
  else
    let i := d - 11
    let h := h.wr .HM_STACKSTAT_temp (unsigned 8 (signed 16 t / 16)) i
    h.wr .HM_STATUS_hot (setBits (h.rd .HM_STATUS_hot) i i (ofBool (isHot (signed 16 t))))

/-- THERMAL_WARN (R471): a die whose temperature reaches warn_c. -/
def execThermalWarn (d : Fin 15) (temp : BitVec 16) (s : State) : Host.Outcome State Fault Refusal :=
  onHw (fun h =>
    let limit : Int := 16 * h.rd .PW_CTRL_warn_c
    let below := h.dieTemp d < limit
    let h := h.setTemp d temp.toNat
    if below ∧ limit ≤ signed 16 temp.toNat then (h.pwEvent 2).raise 8 8 else h) s

/-- The critical trip (R471): every port's enable cleared, every slice and lane forced OFF, the key store's alarm given. -/
def Hw.criticalTrip (h : Hw) : Hw :=
  let h := (((h.raise 9 8).wr .PW_STATUS_thermal_critical 1).pwEvent 3).zeroize 4
  let h := h.over ((List.range 768).filter (fun p => h.cfg .PT_CFG_enable p == 1)) (fun h p => h.disablePort p (h.midFrame p))
  let h := h.each 768 (fun h l =>
    if h.rd .SD_LANESTAT_pwr_state (l % 96) (l / 96) = h.rd .SD_LANECFG_pwr (l % 96) (l / 96) then h.forceLane l 0
    else { h with io := { h.io with forced := h.io.forced ++ [(8 + l, 0)] } })
  h.each 8 (fun h n => h.forceSliceLater n 0)

/-- THERMAL_CRITICAL (R471): a die reaches 115 degrees. -/
def execThermalCritical (d : Fin 15) (temp : BitVec 16) (s : State) : Host.Outcome State Fault Refusal :=
  onTx (fun h =>
    let below := h.dieTemp d < 1840
    let h := h.setTemp d temp.toNat
    if below ∧ 1840 ≤ signed 16 temp.toNat then h.criticalTrip else h) s

end Sys2Proof.Machine
end

