-- ==== Sys2Proof/Machine/Address.lean ====
section
/-! DEFINITION. The internal address space: what an address names, who may reach it, and the causes for which an access fails
(spec/01_device_overview.md, R19 to R22; spec/16_clerks_and_boot.md, R370, R371; R134 of 05; R400, R401 of 17). -/

namespace Sys2Proof.Machine

/-- What an address names: an instance of a register (seen through slice `n` if it is a slice's), a clerk's local memory, clerk
shared memory, HBM, or nothing. -/
inductive Place
  | reg (r : RegName) (n ix : Nat)
  | own (c : Nat)
  | shared
  | hbm
  | nothing
  deriving DecidableEq, Repr

/-- The row-major index of the instance that lies `d` bytes after the first, under dimensions (count, stride). -/
def dimIndex : List (Nat × Nat) → Nat → Option Nat
  | [], d => if d = 0 then some 0 else none
  | (c, st) :: r, d =>
    if d / st < c then (dimIndex r (d % st)).map (d / st * (r.map (·.1)).foldl (· * ·) 1 + ·) else none

/-- The register instance at an offset of a space (the register maps; R20). EV_HANDLER has no level 0, and a unit's window takes
any word of its 4 KiB (R339). -/
def findReg (sp : RegSpace) (off : Nat) : Option (RegName × Nat) :=
  if sp = .dev ∧ 0x510000 ≤ off ∧ off < 0x520000 then some (.CK_UWIN, (off - 0x510000) / 0x1000)
  else
    match mapNames.findSome? (fun r =>
      let row := regRow r
      if row.space = sp ∧ row.off ≤ off then (dimIndex row.dims (off - row.off)).map (fun i => (r, i)) else none) with
    | some (.EV_HANDLER, i) => if i % 16 = 0 then none else some (.EV_HANDLER, i)
    | x => x

/-- What an address names (R19, R20). A register is found by the aligned word of the address. -/
def place (a : Nat) : Place :=
  let w := a / 8 * 8
  if a < 0xE00000 then
    match findReg .dev w with | some (r, i) => .reg r 0 i | none => .nothing
  else if 0x10000000 ≤ a ∧ a < 0x11000000 then .shared
  else if 0x11000000 ≤ a ∧ a < 0x11400000 then .own ((a - 0x11000000) / 0x80000)
  else if 0x100000000 ≤ a ∧ a < 0x120000000 then
    match findReg .slice ((w - 0x100000000) % 0x4000000) with
    | some (r, i) => .reg r ((a - 0x100000000) / 0x4000000) i
    | none => .nothing
  else if inHbm a then .hbm
  else .nothing

/-- Registers that only MC_PRIV.sec lets a clerk write, and no slip writes: the freeze, hold and inject commands, the CX block and
the MC block (R370, R400). -/
def RegName.secured (r : RegName) : Bool :=
  let row := regRow r
  row.space == .dev && (row.off / 0x100000 == 6 || row.off / 0x100000 == 12
    || (decide (0x400020 ≤ row.off) && decide (row.off ≤ 0x400040)))

/-- Registers that no slip writes (R400): those, the TW block, and the CL, GC and FT blocks. -/
def RegName.noSlip (r : RegName) : Bool :=
  let row := regRow r
  r.secured || (row.space == .dev && row.off / 0x100000 == 11)
    || (row.space == .slice && decide (0x800000 ≤ row.off) && decide (row.off < 0x3200000))

/-- Whether the rights of an originator deny an access (R370, R400). MC_PRIV and MC_HBMWIN take writes of clerk 0 alone, and only
before the lock; every clerk writes EV_DONE (the EV map of 18); the boot ROM reaches everything. -/
def Hw.denies (h : Hw) (o : Originator) (write : Bool) (a : Nat) (p : Place) : Bool :=
  match o, p with
  | .clerk c, .reg r _ _ =>
    write && r != .EV_DONE && (if r = .MC_PRIV ∨ r = .MC_HBMWIN then
        c.val != 0 || h.on .MC_CTRL_priv_lock || !h.on .MC_PRIV_sec c
      else if r.secured then !h.on .MC_PRIV_sec c else !h.on .MC_PRIV_reg c)
  | .clerk c, .own d => c.val != d
  | .clerk c, .hbm => !(decide (h.rd .MC_HBMWIN_base c ≤ a / 2 ^ 24) && decide (a / 2 ^ 24 < h.rd .MC_HBMWIN_limit c))
  | .host, .reg r _ _ => write && (r.noSlip || !h.on .TW_HOSTPRIV_reg)
  | .host, .own _ => write
  | .host, .hbm => !(decide (h.rd .TW_HBMWIN_base ≤ a / 2 ^ 24) && decide (a / 2 ^ 24 < h.rd .TW_HBMWIN_limit))
  | _, _ => false

/-- Whether an access of `size` bytes breaks R134: registers take words of 8 bytes; an atomic operation takes a word of clerk
memory. -/
def misaligned (a size : Nat) (atomic : Bool) (p : Place) : Bool :=
  match p with
  | .reg _ _ _ => a % 8 != 0 || size != 8 || atomic
  | .hbm => a % size != 0 || atomic
  | _ => a % size != 0

/-- The cause for which an access fails before its data are looked at, 0 none, in the order of R371: 4 UNMAPPED, 3 ALIGN, 7 PRIV,
6 STACK_IDLE. -/
def Hw.judge (h : Hw) (o : Originator) (write atomic : Bool) (a size : Nat) : Nat :=
  let p := place a
  if p = .nothing then 4
  else if misaligned a size atomic p then 3
  else if h.denies o write a p then 7
  else if p = .hbm ∧ h.stackActive a = false then 6
  else 0

end Sys2Proof.Machine
end

