-- ==== Sys2Proof/Machine/Time.lean ====
section
/-! DEFINITION. The timebase: the passing of time, minute marks, steps and sets, the gate lists that follow it, PPS, time-of-day
messages, two-step timestamps (spec/21_clocks_power_and_reset.md, R477 to R480; R273, R275 of 11). -/

namespace Sys2Proof.Machine

/-! ### Time and marks (R477, R478) -/

/-- Time carried to an instant, minute by minute: every multiple of 60 s on the way is a minute mark. -/
def Hw.carry (h : Hw) (t : Nat) : Nat → Hw
  | 0 => h
  | n + 1 =>
    if t < nextMark h.now then (if h.now < t then { h with time := t <<< 32 } else h)
    else (({ h with time := nextMark h.now <<< 32 } : Hw).minuteMark).carry t n

/-- What follows when the time has moved on from `before`: one edge of PPS_OUT if it passed a whole second (R478, R479). -/
def Hw.ppsEdge (h : Hw) (before : Nat) : Hw :=
  let second := h.now / unitsPerSecond
  if before / unitsPerSecond < second ∧ h.on .TB_CTRL_pps_out_en = true then
    { h with sent := h.sent ++ [Out.pps], io := { h.io with pps := some second } }
  else h

/-- The time carried forward to an instant that has come. -/
def Hw.reachTime (h : Hw) (t : Nat) : Hw := (h.carry t (t / (60 * unitsPerSecond) - h.minute + 1)).ppsEdge h.now

/-- MINUTE_MARK (R478). -/
def execMinuteMark (s : State) : Host.Outcome State Fault Refusal :=
  onTx (fun h => h.reachTime (nextMark h.now)) s

/-- The rate's excess over one, in parts of 2 ^ 32 of a unit for each unit (R477): TB_ADJ in units of 2 ^ -16 ppb. -/
def Hw.drift (h : Hw) (units : Nat) : Int := signed 48 (h.rd .TB_ADJ_adj) * 65536 * units / 1000000000

/-- A number of 1.25 ns units of the TIME clock pass. -/
def Hw.advance (h : Hw) (units : Nat) : Hw :=
  let new := (h.time + units * 2 ^ 32 + h.drift units).toNat % 2 ^ 96
  let r : Hw := { h with time := new }
  (if new >>> 32 < nextMark h.now then r else r.minuteMark).ppsEdge h.now

/-- A microsecond of every clerk's timer (R413). -/
def Hw.timers (h : Hw) : Hw :=
  h.each 8 (fun h c =>
    match h.rd .EV_TIMER_count c with
    | 0 => h
    | n + 1 => if n = 0 then (h.wr .EV_TIMER_count 0 c).wr .EV_CSTAT_timer 1 c else h.wr .EV_TIMER_count n c)

/-- One tick of the idle device, 2.5 ns (DESIGN CHOICE, log entry 2): 2 TIME clocks, 4 core clocks of every ACTIVE slice, 3 CLERK
clocks of every ACTIVE clerk, and every whole microsecond a step of the timers. -/
def Hw.tick (h : Hw) : Hw :=
  let h := ({ h with up := h.up + 2 } : Hw).advance 2
  let h := if h.up % 800 < 2 then h.timers else h
  let h := h.each 8 (fun h n => if h.slicePower n = 3 then h.setVal .PM_CYCLES (h.val .PM_CYCLES 0 n + 4) 0 n else h)
  h.each 8 (fun h c => if h.clerkPower c = 3 then h.setVal .MC_PMCYCLES (h.val .MC_PMCYCLES c + 3) c else h)

/-- One tick of the idle device with what it sets off in the transmit path. -/
def Dev.tick (d : Dev) : Dev := ({ d with hw := d.hw.tick } : Dev).settle

/-! ### Steps and sets (R478) -/

/-- TB_TIME moved to a new value: one mark if the move passes a multiple of 60 s forward; stepped, F-0x021, counted. -/
def Hw.stepTo (h : Hw) (time : Nat) : Hw :=
  let before := h.now
  let h : Hw := { h with time := time % 2 ^ 96 }
  let h := (if before / (60 * unitsPerSecond) < h.minute then h.minuteMark else h).ppsEdge before
  ((h.setBit .TB_EVENT_events 3).raise 0x021 8).count .TB_CNT_count 7

/-- TB_STEP written. -/
def Hw.tbStep (h : Hw) (v : Nat) : Hw := h.stepTo ((h.time + signed 64 v * 2 ^ 32) % 2 ^ 96).toNat
/-- TB_SET written. -/
def Hw.tbSet (h : Hw) (v : Nat) : Hw := h.stepTo (v <<< 32)

/-- TB_STEP (R478). -/
def execTbStep (v : Word) (s : State) : Host.Outcome State Fault Refusal := onTx (fun h => h.tbStep v.toNat) s
/-- TB_SET (R478). -/
def execTbSet (v : Word) (s : State) : Host.Outcome State Fault Refusal := onTx (fun h => h.tbSet v.toNat) s

/-! ### Gate lists (R273, R275) -/

/-- GCL_SWITCH (R273): the start instant comes, and the new list is operative from entry 0. -/
def Hw.gclSwitch (h : Hw) (p : Nat) : Hw :=
  let i := portIx p
  let n := portSl p
  if h.on .TM_GCLCMD_pending i n then
    let h := h.reachTime (h.sched p).newStart
    h.regate p (fun h =>
      let s := h.sched p
      let b := 1 - h.operBank p
      let h := (h.wr .TM_GCLCMD_pending 0 i n).wr .TM_GCLCMD_oper_bank b i n
      let h := h.wr .TM_GCLCMD_cycle_us (h.cycle p b s.newLen / 800) i n
      (h.setSched p { s with len := s.newLen, base := s.newStart, newLen := 0, newStart := 0 }).syncEntry p)
  else h

/-- GCL_SWITCH (R273). -/
def execGclSwitch (p : Port) (s : State) : Host.Outcome State Fault Refusal := onTx (fun h => h.gclSwitch p) s

/-- GATE_ENTRY_ADVANCE (R275): the interval of the entry in force ends. -/
def execGateEntryAdvance (p : Port) (s : State) : Host.Outcome State Fault Refusal :=
  onTx (fun h =>
    let x := h.sched p
    let h := h.reachTime (x.start + h.gateSpan p (h.operBank p) x.entry)
    h.regate p (fun h => h.syncEntry p)) s

/-! ### PPS and time of day (R479) -/

/-- PPS_IN: the edge latched; with tod_arm 1 the second that a held valid message names takes force. The edge consumes the message. -/
def Hw.ppsIn (h : Hw) : Hw :=
  let h := ((h.setVal .TB_PPSCAP h.now).setBit .TB_EVENT_events 0).count .TB_CNT_count 1
  if !h.on .TB_TODRX_valid then h
  else
    let h := h.wr .TB_TODRX_valid 0
    if h.on .TB_CTRL_tod_arm then (h.wr .TB_CTRL_tod_arm 0).tbSet (h.rd .TB_TODRX_seconds * unitsPerSecond) else h

/-- PPS_IN (R479). -/
def execPpsIn (s : State) : Host.Outcome State Fault Refusal := onTx Hw.ppsIn s

/-- CRC-16/CCITT with no folding, as a TOD message carries it (R479). -/
def todCheck (d : List Byte) : Nat := crc crc16 0 d

/-- A TOD message of a second (R479). -/
def todMessage (second : Nat) : List Byte :=
  let d := [0xA5#8] ++ beBytes 6 second ++ [1#8, 0#8]
  d ++ beBytes 2 (todCheck d)

/-- TOD_IN_MESSAGE (R479): discarded with F-0x020 where byte 0 or the check is wrong. -/
def execTodInMessage (bytes : List Byte) (s : State) : Host.Outcome State Fault Refusal :=
  guarded (bytes.length == 11) (onHw (fun h =>
    if byteAt bytes 0 ≠ 0xA5 ∨ fieldAt bytes 9 2 ≠ todCheck (bytes.take 9) then (h.raise 0x020 8).count .TB_CNT_count 3
    else
      let h := (h.wr .TB_TODRX_valid (byteAt bytes 7 % 2)).wr .TB_TODRX_seconds (fieldAt bytes 1 6)
      (h.setBit .TB_EVENT_events 1).count .TB_CNT_count 2) s)

/-- PPS_OUT (R479): the next whole second comes, and PPS_OUT rises while it is enabled. -/
def execPpsOut (s : State) : Host.Outcome State Fault Refusal :=
  onTx (fun h => h.reachTime ((h.now / unitsPerSecond + 1) * unitsPerSecond)) s

/-- TOD_OUT (R479): the message of the last edge of PPS_OUT is sent, once. -/
def execTodOut (s : State) : Host.Outcome State Fault Refusal :=
  onHw (fun h =>
    match h.io.pps with
    | some second =>
      let h : Hw := { h with io := { h.io with pps := none } }
      if h.on .TB_CTRL_tod_out_en then { h with sent := h.sent ++ [Out.tod (todMessage second)] } else h
    | none => h) s

/-! ### Two-step timestamps (R480) -/

/-- TB_TXTS_HEAD as it reads. -/
def Hw.txtsHead (h : Hw) : Nat :=
  match h.txts with
  | (p, tag, _) :: _ => 2 ^ 63 + ((p % 1024) <<< 48) + tag % 65536
  | [] => 0

/-- A read of TB_TXTS_HEAD: the oldest entry is popped and its time latched. -/
def Hw.txtsPop (h : Hw) : Hw :=
  match h.txts with
  | (_, _, t) :: r => ({ h with txts := r } : Hw).setVal .TB_TXTS_TIME t
  | [] => h

/-- TXTS_POP (R480). -/
def execTxtsPop (s : State) : Host.Outcome State Fault Refusal := onHw Hw.txtsPop s

/-! ### The timebase source (R460, R477) -/

/-- TS_CLK_LOSS (R460): while TS_CLK_IN is the source, the timebase enters holdover. -/
def execTsClkLoss (s : State) : Host.Outcome State Fault Refusal :=
  onHw (fun h =>
    if h.on .TB_CTRL_src && !h.io.holdover then
      let h := ((h.wr .PW_CLKMON_ts_clk 1).raise 0x012 8).setBit .PW_EVENT_events 6
      ({ h with io := { h.io with holdover := true } } : Hw).setBit .TB_EVENT_events 4
    else h) s

/-- TS_CLK_RELOCK (R477). -/
def execTsClkRelock (s : State) : Host.Outcome State Fault Refusal :=
  onHw (fun h => { h with io := { h.io with holdover := false } }) s

end Sys2Proof.Machine
end

