-- ==== Sys2Proof/Machine/Pins.lean ====
section
/-! DEFINITION. Pins of the board: resets by pin, register and I2C, the I2C target, the regulator poll, GPIO, ALARM_N, JTAG
(spec/22_pins_electrical_and_package.md, R494 to R500; R474 of 21; R44 of 02). -/

namespace Sys2Proof.Machine

/-! ### Device reset (R474) -/

/-- RESET_N (R474): low for 1 us or more. -/
def execResetN (s : State) : Host.Outcome State Fault Refusal := onTx (fun h => h.note (.reset 1)) s

/-- The time within which a go follows its arm (R474): 1 ms. -/
def armWindow : Nat := 800000

/-- GL_RESET written: arm opens the window for its originator, with or without go; go within it resets. -/
def Hw.glReset (h : Hw) (o : Originator) (v : Nat) : Hw :=
  if bit v 63 then { h with io := { h.io with arm := some (o, h.up) } }
  else if bit v 62 then
    match h.io.arm with
    | some (who, t) => if who = o ∧ h.up - t ≤ armWindow then h.note (.reset 2) else h
    | none => h
  else h

/-- GL_RESET_ARM (R474). -/
def execGlResetArm (o : Originator) (v : Word) (s : State) : Host.Outcome State Fault Refusal := onTx (fun h => h.glReset o v.toNat) s
/-- GL_RESET_GO (R474). -/
def execGlResetGo (o : Originator) (v : Word) (s : State) : Host.Outcome State Fault Refusal := onTx (fun h => h.glReset o v.toNat) s

/-! ### I2C target (R495 to R497) -/

/-- ALARM_N is driven low (R44, R494). -/
def Hw.alarmN (h : Hw) : Bool :=
  !h.io.rom || h.held || (h.on .FC_CTRL_alarm_on_slice && h.rd .FC_STATUS_slice_frozen != 0)

/-- The SMBus CRC-8, bit by bit. -/
def crc8Bits : Nat → Nat → Nat
  | 0, r => r
  | n + 1, r => crc8Bits n (if bit r 7 then (2 * r % 256) ^^^ 7 else 2 * r)
/-- The SMBus packet error code of a message. -/
def pec (d : List Byte) : Nat := d.foldl (fun r b => crc8Bits 8 (r ^^^ b.toNat)) 0

/-- The data of a block read (R496). -/
def Hw.i2cBlock (h : Hw) (cmd : Nat) : List Byte :=
  match cmd with
  | 0 => leBytes 8 (h.val .GL_ID) ++ leBytes 8 (h.val .GL_DEVICE_ID)
  | 1 =>
    let b0 := ofBool h.held + 2 * h.rd .PW_STATUS_pwr_fail + 4 * h.rd .PW_STATUS_thermal_critical + 8 * h.rd .PW_STATUS_supply_alarm
      + 16 * ofBool h.alarmN + 32 * ofBool h.io.zeroized + 64 * ofBool (h.rd .TW_HSTATUS_phase == 2)
      + 128 * ofBool (h.rd .TW_HSTATUS_phase == 1)
    let b2 := ((List.range 8).map (fun n => ofBool (h.slicePower n == 3) <<< n)).foldl (· + ·) 0
    [BitVec.ofNat 8 b0, BitVec.ofNat 8 (h.rd .FC_STATUS_slice_frozen), BitVec.ofNat 8 b2,
      BitVec.ofNat 8 (h.rd .GL_RESET_CAUSE_cause)] ++ leBytes 4 (h.now / unitsPerSecond)
  | 2 => (List.range 11).flatMap (fun d => leBytes 2 (h.rd .PW_TEMP_temp d))
      ++ (List.range 4).map (fun i => BitVec.ofNat 8 (h.rd .HM_STACKSTAT_temp i))
  | 3 => (List.range 16).flatMap (fun k => leBytes 4 (bits (h.val .PW_VRDATA k) 47 16))
  | _ => []

/-- I2C_BLOCK_READ (R495, R496): count, data and packet error code leave on the bus. The emergency commands are not read. -/
def execI2cBlockRead (cmd : Byte) (s : State) : Host.Outcome State Fault Refusal :=
  onHw (fun h =>
    if !h.io.rom || decide (0x80 ≤ cmd.toNat) then h
    else
      let d := h.i2cBlock cmd.toNat
      let a := 2 * h.rd .GL_I2CT_address
      let msg := BitVec.ofNat 8 d.length :: d
      let check := pec ([BitVec.ofNat 8 a, cmd, BitVec.ofNat 8 (a + 1)] ++ msg)
      { h with sent := h.sent ++ [Out.i2c (msg ++ [BitVec.ofNat 8 check])] }) s

/-- An emergency command (R497): acted on and counted if its first data byte is right, else counted as refused. -/
def Hw.emergency (h : Hw) (arg : Byte) (act : Hw → Hw) : Hw :=
  if !h.io.rom then h
  else if arg = 0xA5#8 then act (h.countSat .GL_I2CT_accepted)
  else h.countSat .GL_I2CT_refused

/-- I2C_ZEROIZE (R497). -/
def execI2cZeroize (arg : Byte) (s : State) : Host.Outcome State Fault Refusal := onTx (fun h => h.emergency arg (·.zeroize 1)) s
/-- I2C_HOLD (R497). -/
def execI2cHold (arg : Byte) (s : State) : Host.Outcome State Fault Refusal :=
  onTx (fun h => h.emergency arg (·.command 4 8 0x3FF none)) s
/-- I2C_RESET (R497). -/
def execI2cReset (arg : Byte) (s : State) : Host.Outcome State Fault Refusal :=
  onTx (fun h => h.emergency arg (·.note (.reset 3))) s

/-! ### I2C controller (R498) -/

/-- `m` times 2 to a power, rounded toward zero. -/
def scale (m : Nat) (e : Int) : Nat := if e < 0 then m / 2 ^ (-e).toNat else m * 2 ^ e.toNat

/-- A LINEAR16 reading in millivolts; another mode's value is free. -/
def vrMillivolts (mode : Byte) (vout : BitVec 16) : Nat :=
  if mode.toNat / 32 = 0 then min 65535 (scale (vout.toNat * 1000) (signed 5 mode.toNat)) else (Config.vrVout mode vout).toNat

/-- A LINEAR11 reading in units of 10 mA. -/
def vrCurrent (iout : BitVec 16) : Nat :=
  let m := signed 11 iout.toNat
  if m < 0 then 0 else min 65535 (scale (m.toNat * 100) (signed 5 (iout.toNat / 2048)))

/-- A poll of a regulator: its reading, or a failure. -/
def Hw.vrPoll (h : Hw) (k : Nat) (reading : Option VrReading) : Hw :=
  if !h.on .PW_VRCTRL_enable || !h.on .PW_VR_valid k then h
  else match reading with
    | none =>
      let h := h.countSat .PW_VRDATA_failures k
      if h.rd .PW_VRDATA_failures k = 3 then (h.wr .PW_VRDATA_stale 1 k).raise 0x030 8 else h
    | some r =>
      let mode := (nth h.io.vrMode k none).getD r.mode.toNat
      let h : Hw := { h with io := { h.io with vrMode := setNth h.io.vrMode k (some mode) } }
      let h := ((h.wr .PW_VRDATA_valid 1 k).wr .PW_VRDATA_stale 0 k).wr .PW_VRDATA_failures 0 k
      (h.wr .PW_VRDATA_vout_mv (vrMillivolts (BitVec.ofNat 8 mode) r.vout) k).wr .PW_VRDATA_iout (vrCurrent r.iout) k

/-- VR_POLL (R498). -/
def execVrPoll (k : Fin 16) (reading : Option VrReading) (s : State) : Host.Outcome State Fault Refusal :=
  onHw (fun h => h.vrPoll k reading) s

/-- PW_VRCTRL written: enabling it clears what earlier polls have found. -/
def Hw.vrCtrl (h : Hw) (v : Nat) : Hw :=
  let poll := bits v 47 32
  if poll = 0 ∨ 1000 < poll then h
  else
    let starts := bit v 63 && !h.on .PW_VRCTRL_enable
    let h := ((h.wr .PW_VRCTRL_enable (bits v 63 63)).wr .PW_VRCTRL_poll_ms poll).wr .PW_VRCTRL_speed
      (if bits v 1 0 = 3 then 1 else bits v 1 0)
    if starts then
      ({ h with io := { h.io with vrMode := List.replicate 16 none } } : Hw).each 16 (fun h k => h.wr .PW_VRDATA_valid 0 k)
    else h

/-! ### GPIO and JTAG (R499, R500) -/

/-- GL_GPIO_IN as it reads: an output reads what it drives, an input what the board puts on it. -/
def Hw.gpioIn (h : Hw) : Nat :=
  let d := h.rd .GL_GPIO_DIR_dir
  (h.rd .GL_GPIO_OUT_out &&& d) ||| ((Config.gpio h.up).toNat &&& (65535 - d))

/-- JTAG_INSTRUCTION (R500): pin control and scan access force DEVICE_HOLD; scan access is the alarm DEBUG. -/
def execJtagInstruction (ir : JtagIr) (s : State) : Host.Outcome State Fault Refusal :=
  onTx (fun h =>
    match ir with
    | .extest => (h.raise 0x031 8).deviceHold
    | .extestPulse => (h.raise 0x031 8).deviceHold
    | .extestTrain => (h.raise 0x031 8).deviceHold
    | .highz => (h.raise 0x031 8).deviceHold
    | .clamp => (h.raise 0x031 8).deviceHold
    | .scanAccess => ((h.zeroize 5).raise 0x031 8).deviceHold
    | _ => h) s

end Sys2Proof.Machine
end

