-- ==== Sys2Proof/Machine/Receipts.lean ====
section
/-! DEFINITION. Receipts of the teller window: their words, the receive FIFO, the receipts of clerks, the endpoint reset
(spec/17_teller_window.md, R394, R405 to R408). -/

namespace Sys2Proof.Machine

/-- The teller window beside its registers, changed. -/
def Hw.setTw (h : Hw) (f : TellerSt → TellerSt) : Hw := { h with tw := f h.tw }
/-- A TW_HCNT counter advanced. -/
def Hw.twCount (h : Hw) (c : Nat) (n : Nat := 1) : Hw := h.count .TW_HCNT_count c 0 n
/-- A TW_EVENT bit set. -/
def Hw.twEvent (h : Hw) (b : Nat) : Hw := h.setBit .TW_EVENT_events b

/-- The check of the words of a slip (destination 0) or of a receipt (destination 1) under a sequence number (R395, R405). -/
def slipCheck (dest seq : Nat) (ws : List Word) : Nat :=
  crcFold crc32c 0x61 (dest * 2 ^ 32 + seq) (ws.flatMap (fun w => beBytes 8 w.toNat))

/-- The words of a receipt (R405): kind, status, rseq, word 1 and payload. -/
def receiptWords (kind status rseq : Nat) (w1 : Word) (payload : List Word) : List Word :=
  let n := payload.length + 3
  let ws := BitVec.ofNat 64 ((kind <<< 56) + ((status % 256) <<< 48) + (n <<< 32) + rseq % 2 ^ 32) :: w1 :: payload
  ws ++ [BitVec.ofNat 64 (slipCheck 1 (rseq % 2 ^ 32) ws)]

/-- A receipt produced: it takes the next rseq and waits for room. `slip` says that the slip in turn waits for it. -/
def Hw.produce (h : Hw) (clerk : Option Nat) (slip : Bool) (kind status : Nat) (w1 : Word) (payload : List Word) : Hw :=
  let r := h.rd .TW_RSEQ_rseq
  (h.setTw (fun t => { t with out := t.out ++ [(clerk, slip, receiptWords kind status r w1 payload)] })).wr .TW_RSEQ_rseq (r + 1)

/-- Words in the receive FIFO that the driver has not consumed. -/
def TellerSt.level (t : TellerSt) : Nat := (t.rx.map List.length).foldl (· + ·) 0

/-- The words that the receive FIFO and the transmit FIFO hold. -/
def fifoWords : Nat := 8192

/-- The free words of the transmit FIFO: the words of the slip in turn are among those it holds. -/
def Hw.txFree (h : Hw) : Nat := fifoWords - (h.tw.fifo.length + if h.tw.orphan || h.tw.emptied then 0 else h.tw.slip.length)

/-- DISCARD entered with an ERROR receipt for a slip whose header is not trusted (R393, R396, R397): tag 0. -/
def Hw.lose (h : Hw) (slip : Bool) (status sseq payload : Nat) : Hw :=
  ((h.produce none slip 2 status (BitVec.ofNat 64 sseq) [BitVec.ofNat 64 payload]).wr .TW_HSTATUS_state 2).twEvent 2

/-- The slip in assembly lost: its words are gone, and the window answers before it takes another slip. -/
def Hw.loseSlip (h : Hw) (status sseq payload : Nat) : Hw :=
  (h.setTw (fun t => { t with slip := [], phase := SlipPhase.reply })).lose true status sseq payload

/-- The assembler takes waiting words (R396): only when no slip is in turn, and not in DISCARD. A length out of range is judged at
word 0. -/
def Hw.assemble (h : Hw) : Hw :=
  if h.tw.phase != .none || h.rd .TW_HSTATUS_state == 2 then h
  else match h.tw.slip ++ h.tw.fifo with
    | [] => h.wr .TW_HSTATUS_state 0
    | w :: r =>
      let n := bits w.toNat 47 32
      if n < 3 ∨ 4096 < n then
        (h.setTw (fun t => { t with fifo := r })).loseSlip 3 (bits w.toNat 31 0) (h.rd .TW_HSTATUS_expect_seq)
      else
        (h.setTw (fun t => { t with
          slip := (w :: r).take n, fifo := (w :: r).drop n
          phase := if n ≤ r.length + 1 then SlipPhase.complete else SlipPhase.none })).wr .TW_HSTATUS_state 1

/-- The slip in turn ends without a receipt, or its receipt is in the FIFO: the next slip is assembled. -/
def Hw.endSlip (h : Hw) : Hw :=
  (h.setTw (fun t => { t with phase := SlipPhase.none, slip := [], orphan := false, emptied := false })).assemble

/-- The oldest produced receipt placed in the receive FIFO, once it has room (R394): its slip ends, its clerk's busy clears. -/
def Hw.placeReceipt (h : Hw) : Hw :=
  match h.tw.out with
  | [] => h
  | (clerk, slip, ws) :: rest =>
    if fifoWords < h.tw.level + ws.length then h
    else
      let h := h.setTw (fun t => { t with out := rest, rx := t.rx ++ [ws] })
      let h := match clerk with | some c => h.wr .TW_CRCMD_busy 0 c | none => h
      let h := (h.twCount 5).twEvent 0
      let h := if bits (ws.headD 0).toNat 63 56 = 2 then h.twEvent 1 else h
      if slip then h.endSlip else h

/-- RECEIPT_PLACE (R394). -/
def execReceiptPlace (s : State) : Host.Outcome State Fault Refusal := onHw Hw.placeReceipt s

/-- The receive FIFO without its first words. -/
def dropWords : Nat → List (List Word) → List (List Word)
  | _, [] => []
  | m, r :: rs => if m < r.length then r.drop m :: rs else dropWords (m - r.length) rs

/-- TW_RXPOP written (R394): words consumed, or the write discarded. -/
def Hw.rxPop (h : Hw) (v : Nat) : Hw :=
  let m := v % 16384
  if h.tw.level < m then h.wr .TW_HSTATUS_bad_pop 1
  else if m = 0 then h
  else h.setTw (fun t => { t with rx := dropWords m t.rx })

/-- RXPOP (R394). -/
def execRxpop (v : Word) (s : State) : Host.Outcome State Fault Refusal := onHw (fun h => h.rxPop v.toNat) s

/-- TW_RXLEVEL, TW_TXFREE and TW_RXAPT as they read. -/
def Hw.rxLevel (h : Hw) : Nat := (h.tw.rx.length <<< 16) + h.tw.level
/-- Word `k` of the receive FIFO, zero beyond its level. -/
def Hw.rxWord (h : Hw) (k : Nat) : Nat := (nth h.tw.rx.flatten k 0#64).toNat

/-! ### Clerk receipts (R407) -/

/-- A word staged in TW_CRCPT by a clerk: its own, and only while no receipt of it waits. -/
def Hw.crcptWrite (h : Hw) (who : Option Nat) (c w v : Nat) : Hw :=
  if who ≠ some c ∨ h.on .TW_CRCMD_busy c = true then h else h.setVal .TW_CRCPT v (4094 * c + w)

/-- TW_CRCMD written with go: the device adds word 0 and the check. A count out of range is ignored whole (R516). -/
def Hw.clerkReceipt (h : Hw) (who : Option Nat) (c v : Nat) : Hw :=
  let n := bits v 11 0
  if who ≠ some c ∨ h.on .TW_CRCMD_busy c = true ∨ bit v 63 = false ∨ n = 0 ∨ 4094 < n then h
  else
    let ws := (List.range n).map (fun w => h.reg ⟨.TW_CRCPT, 0, 0, 4094 * c + w⟩)
    (h.wr .TW_CRCMD_busy 1 c).produce (some c) false 4 (bits v 55 48) (ws.headD 0) ws.tail

/-- CLERK_RECEIPT (R407). -/
def execClerkReceipt (c : Clerk) (v : Word) (s : State) : Host.Outcome State Fault Refusal :=
  onHw (fun h => h.clerkReceipt (some c) c v.toNat) s

/-! ### Endpoint reset (R408) -/

/-- The teller window reset with the PCIe endpoint: the slip that executes completes its effects without a receipt. The
configuration of MSI-X in the endpoint returns to its reset state. -/
def Hw.endpointReset (h : Hw) : Hw :=
  let runs := h.tw.phase == .execute || h.tw.phase == .waiting || h.tw.phase == .importing
  let h := h.over h.tw.out (fun h r => match r.1 with | some c => h.wr .TW_CRCMD_busy 0 c | none => h)
  let h := h.setTw (fun t => { t with
    fifo := [], slip := if runs then t.slip else [], phase := if runs then t.phase else SlipPhase.none
    orphan := runs, out := [], rx := [] })
  let h := ((h.wr .TW_HSTATUS_state 0).wr .TW_HSTATUS_expect_seq 0).wr .TW_RSEQ_rseq 0
  let h := ((h.count .TW_HSTATUS_epoch).raise 0xD05 8).twEvent 3
  let msix (r : Reg) : Bool := r.name == .A_MSIX_ADDR || r.name == .A_MSIX_DATA || r.name == .A_MSIX_CTL
  let h : Hw := { h with
    ev := { h.ev with msixOn := false, masked := false, master := false }
    words := h.words.filter (fun e => !msix e.1) }
  h.watch

/-- ENDPOINT_RESET (R408). -/
def execEndpointReset (s : State) : Host.Outcome State Fault Refusal := onHw Hw.endpointReset s

end Sys2Proof.Machine
end

