-- ==== Sys2Proof/Machine/Reads.lean ====
section
/-! DEFINITION. Reads of registers and of memory by clerks, slips and the boot ROM: the values computed from state, the reads that
have an effect (spec/00_scope.md, R1 to R7; the register maps; R401 of 17, R134 and R371). -/

namespace Sys2Proof.Machine

/-- The bank that a read of a banked register of a slice returns: read_bank 0 the next edition's, 1 the current one's. -/
def Hw.readBank (h : Hw) (r : RegName) (n : Nat) : Nat :=
  let off := (regRow r).off
  let cur := if off < 0x300000 then h.on .PA_CTRL_read_bank 0 n
    else if off < 0x800000 then h.on .SE_CTRL_read_bank 0 n
    else if off < 0x1000000 then h.on .CL_CTRL_read_bank 0 n
    else if off < 0x1200000 then h.on .GC_CTRL_read_bank 0 n
    else h.on .FT_CTRL_read_bank 0 n
  if cur then h.current else h.next

/-- The register or its bank, as the map's readable bits show it. -/
def Hw.shown (h : Hw) (r : RegName) (n ix : Nat) : Nat :=
  let row := regRow r
  h.val r ix (if row.shared then 0 else n) (if row.banked then h.readBank r n else 0) &&& row.readable

/-- The free buffers of a denomination (R245, BP_FREE). -/
def Hw.freeCount (h : Hw) (n d : Nat) : Nat :=
  ((List.range (carveCount (h.pool n).carve d)).filter (fun i => (h.pool n).free (bufNo d i))).length

/-- A word of the device's public key (R320): x, then y. -/
def devPub (w : Nat) : Nat :=
  match mulPt (some g384) Config.devicePrivateKey 384 with
  | some (x, y) => let c := if w < 6 then x else y; bits c (63 + 64 * (5 - w % 6)) (64 * (5 - w % 6))
  | none => 0

/-- A source's configuration and state as EV_SRC reads (R415). -/
def Hw.srcShown (h : Hw) (i : Nat) : Nat :=
  let st := if h.srcActive i then 2 else if h.srcPending i then 1 else 0
  (st <<< 62) + (ofBool (bit (h.val .EV_STRANDED (i / 64)) (i % 64)) <<< 61) + (ofBool (h.asserted i) <<< 60)
    + (h.val .EV_SRC i &&& 0x3F0F0F)

/-- A priority stack as EV_STACK reads. -/
def Hw.stackShown (h : Hw) (c : Nat) : Nat :=
  match (h.clerk c).stack with
  | [] => 0
  | e :: r => (((r.length + 1) % 16) <<< 60) + (e.level <<< 56) + e.id % 8192

/-- A word of EV_HPEND. -/
def Hw.hostShown (h : Hw) (w : Nat) : Nat :=
  ((List.range 64).map (fun b => ofBool (h.hostPending (64 * w + b)) <<< b)).foldl (· + ·) 0

/-- A register as a read without effect returns it: its word, with the fields that report state of the block computed from that
state. -/
def Hw.view (h : Hw) (r : RegName) (n ix : Nat) : Nat :=
  let w := h.shown r n ix
  match r with
  | .PA_STATUS | .SE_STATUS | .CL_STATUS | .GC_STATUS | .FT_STATUS => setBits w 63 63 (ofBool h.bankBusy)
  | .FT_CH_STATUS => setBits (setBits w 44 32 (min 4096 h.ch.queue.length)) 20 0 h.chOccupancy
  | .ED_STATUS => setBits w 59 59 (ofBool h.closePermitted)
  | .ED_DRAIN => h.drainCount ix
  | .BP_FREE => ((List.range 4).map (fun d => h.freeCount n d <<< (48 - 16 * d))).foldl (· + ·) 0
  | .TM_PORTSTAT =>
    let strict := (List.range 16).filter (fun q => h.on .TM_QCFG_strict (16 * ix + q) n)
    (ofBool (h.rd .TM_PORTCFG_phase ix n != 1) <<< 63) + strict.length % 8
  | .TM_QSTAT => (((h.queue n ix).onDie % 2 ^ 32) <<< 32) + ceilDiv (h.queue n ix).hbm 1024 % 2 ^ 32
  | .TM_QSTAT2 => (((h.queue n ix).avg / 256 % 2 ^ 24) <<< 40) + (h.queue n ix).cnt % 2 ^ 32
  | .TM_GCL => setBits w 15 0 (crcFold crc16 0x36 (((ix / 2048) <<< 32) + ((ix / 1024 % 2) <<< 16) + ix % 1024) (beBytes 6 (w >>> 16)))
  | .CX_STATUS => setBits w 13 0 ((h.words.filter (fun e => e.1.name == .CX_SA && bits e.2.toNat 63 62 == 1)).length)
  | .CX_DEVPUB => devPub ix
  | .CK_STATUS => h.ckStatus
  | .HM_STATUS => setBits w 63 60 (((List.range 4).map (fun s => ofBool (h.rd .HM_STACKSTAT_state s == 3) <<< s)).foldl (· + ·) 0)
  | .MC_WAKE => setBits w 1 0 (h.wakeLevel ix)
  | .TW_STATUS => h.shown .TW_HSTATUS 0 0
  | .TW_TXFREE => h.txFree
  | .TW_RXLEVEL => h.rxLevel
  | .TW_RXAPT => h.rxWord ix
  | .EV_STACK => h.stackShown ix
  | .EV_SRC => h.srcShown ix
  | .EV_PRIV => if ix % 64 = 0 then 15 else w
  | .EV_HPEND => h.hostShown ix
  | .SF_STATUS => setBits w 9 0 ((List.range 768).filter h.linkLive).length
  | .TP_STATUS => setBits w 3 0 h.pairLinks.length
  | .TB_TIME => h.now
  | .GL_GPIO_IN => h.gpioIn
  | .SD_PRBS_ERR => if h.rd .SD_PRBS_state ix n = 1 then (Config.bitErrors (96 * n + ix) h.up).toNat else w
  | .SD_LANESTAT => if h.rd .SD_LANESTAT_adapt ix n = 0 then w else setBits w 31 0 (Config.eye (96 * n + ix) h.up).toNat
  | .FC_STATUS => setBits w 8 0 h.fc.log.length
  | _ => w

/-- A read of a register by an originator: the value, and what the read does. EV_CLAIM claims for a clerk and returns zero to
anyone else (R419); the log and timestamp heads pop; CS_PERMIT compares its copies (R40). -/
def Hw.readReg (h : Hw) (o : Originator) (r : RegName) (n ix : Nat) : Nat × Hw :=
  match r with
  | .EV_CLAIM => match o with | .clerk c => h.polledClaim c | _ => (0, h)
  | .FC_LOG_HEAD => let h := h.popLog; (h.val .FC_LOG_HEAD, h)
  | .TB_TXTS_HEAD => (h.txtsHead, h.txtsPop)
  | .CS_PERMIT =>
    let (a, b) := h.permitWord n (ix / 1024) (ix % 1024)
    (a &&& b, if a = b then h else h.raise 0x809 n)
  | _ => (h.view r n ix, h)

/-- A read of `size` bytes by an originator (R134, R371, R401): the value, or the cause for which it fails. Memory is read under
class CLERK (R345). -/
def Hw.busRead (h : Hw) (o : Originator) (a size : Nat) : Except Nat Nat × Hw :=
  let c := h.judge o false false a size
  if c ≠ 0 then (.error c, h)
  else match place a with
    | .reg r n ix => let (v, h) := h.readReg o r n ix; (.ok v, h)
    | _ =>
      let (good, h) := h.fetch 5 a size
      if good then (.ok (leNat (h.view8 a size)), h) else (.error 5, h)

end Sys2Proof.Machine
end

