-- ==== Sys2Proof/Machine/Writes.lean ====
section
/-! DEFINITION. Writes of registers and of memory by clerks, slips and the boot ROM: ranges, substitutes, status bits, commands
(spec/00_scope.md, R1 to R8, R516; the register maps of the chapters). -/

namespace Sys2Proof.Machine

/-- A field of a written word. -/
def fld (f : Fld) (v : Nat) : Nat := bits v f.hi f.lo

/-- Whether a field of a written word lies outside its range. -/
def outside (f : Fld) (lo hi v : Nat) : Bool := decide (fld f v < lo) || decide (hi < fld f v)

/-- Whether a write to a register without a command carries a value outside a range of its map, or a reserved encoding, for which the
map gives no other handling: it is ignored whole (R516). -/
def Hw.ignores (h : Hw) (r : RegName) (ix v : Nat) : Bool :=
  match r with
  | .CS_CTRL => outside .CS_CTRL_scrub_ms 1 1000 v
  | .PA_CTRL => outside .PA_CTRL_scrub_ms 1 1000 v
  | .SE_CTRL => outside .SE_CTRL_scrub_ms 1 1000 v || outside .SE_CTRL_beat_limit 2 64 v
  | .CL_CTRL => outside .CL_CTRL_scrub_ms 1 1000 v
  | .GC_CTRL => outside .GC_CTRL_scrub_ms 1 1000 v
  | .FT_CTRL => outside .FT_CTRL_scrub_ms 1 1000 v
  | .CX_CTRL => outside .CX_CTRL_scrub_ms 1 1000 v
  | .FC_STRIP => outside .FC_STRIP_rotate_s 1 600 v
  | .FT_TARGET => outside .FT_TARGET_table 0 4 v
  | .FT_LP_BANKMAP => outside .FT_LP_BANKMAP_level 0 11 v
  | .FT_CH_CTRL =>
    outside .FT_CH_CTRL_move_hold 1 16383 v || outside .FT_CH_CTRL_age_limit 1 65535 v || outside .FT_CH_CTRL_age_tick_ms 1 65535 v
  | .FT_CH_SEED => h.chOccupancy != 0
  | .ED_CTRL => outside .ED_CTRL_drain_limit_ms 1 65535 v || outside .ED_CTRL_marker_wait_us 1 65535 v
  | .XB_CTRL =>
    outside .XB_CTRL_reseq_timeout_ns 1200 16000 v || outside .XB_CTRL_src_hold_ns 100 10000 v || outside .XB_CTRL_plane_err_thr 1 255 v
  | .BP_ALLOW => outside .BP_ALLOW_limit 0 131072 v
  | .TM_PORTCFG => outside .TM_PORTCFG_quantum 64 65535 v
  | .TM_QCFG2 => decide (fld .TM_QCFG2_spill_kib v < 32)
  | .LG_LGPORT => h.on .LG_CTRL_lg_arm || outside .LG_LGPORT_tmpl_len 14 64 v
  | .LG_BOOK_BASE => h.chain
  | .LG_RING => h.chain || outside .LG_RING_log2_slots 1 4 v
  | .CX_SECY => fld .CX_SECY_conf_offset v == 3 && h.cfg .PT_CFG_enable ix == 0
  | .HM_CTRL => outside .HM_CTRL_patrol_h 1 168 v || outside .HM_CTRL_pnr_log2 4 15 v || outside .HM_CTRL_starve_us 2 1000 v
  | .TW_CTRL => outside .TW_CTRL_idle_us 100 10000 v || outside .TW_CTRL_req_wait_us 10 65535 v
  | .TW_REQRING =>
    let base := fld .TW_REQRING_base v / 32768 * 32768
    outside .TW_REQRING_log2_slots 1 6 v || (base != 0 && !inShared base (32768 <<< fld .TW_REQRING_log2_slots v))
  | .EV_CTRL => outside .EV_CTRL_strand_us 10 65535 v
  | .EV_PRIV => ix % 64 == 0
  | .SF_CTRL =>
    outside .SF_CTRL_hello_us 10 1000 v || outside .SF_CTRL_dead_us 20 10000 v || outside .SF_CTRL_hop_max 1 63 v
      || decide (fld .SF_CTRL_dead_us v < 2 * fld .SF_CTRL_hello_us v)
  | .TP_CTRL => outside .TP_CTRL_hb_us 10 1000 v
  | .PW_CTRL => outside .PW_CTRL_quiesce_us 10 65535 v || outside .PW_CTRL_warn_c 60 110 v
  | .TB_CTRL => outside .TB_CTRL_pps_width_us 1 1000 v
  | _ => false

/-- The performance events of a slice (R432). -/
def pmSliceEvents : List Nat :=
  [0x01, 0x02, 0x03, 0x10, 0x11, 0x12, 0x20, 0x21, 0x22, 0x23, 0x30, 0x31, 0x40, 0x41, 0x42, 0x43, 0x44, 0x50, 0x51, 0x52, 0x53, 0x54,
   0x60, 0x61, 0x70]

/-- A FC_POLICY word as it is stored: a reaction below the floor or reserved, or a reserved escalation, as the floor (R47). -/
def policyStored (old v : Nat) : Nat :=
  let floor := fld .FC_POLICY_floor old
  let act := fld .FC_POLICY_reaction v
  let esc := fld .FC_POLICY_esc_reaction v
  setBits (setBits v 6 4 (if act < floor ∨ 4 < act then floor else act)) 10 8 (if 4 < esc then floor else esc)

/-- The word stored in place of a written one, where the maps substitute a value for what a field carries. `n` is the slice, and
`old` the word held. -/
def Hw.substitute (h : Hw) (r : RegName) (ix old v : Nat) : Nat :=
  let least (f : Fld) (v : Nat) : Nat := setBits v f.hi f.lo (max 1 (fld f v))
  match r with
  | .FC_CTRL =>
    let v := least .FC_CTRL_esc_window_us (least .FC_CTRL_esc_count (least .FC_CTRL_retire_count v))
    setBits v 23 16 (min 127 (fld .FC_CTRL_retire_count v))
  | .FC_POLICY => policyStored old v
  | .PT_FECTHR => setBits v 31 0 (min (fld .PT_FECTHR_clr_thr v) (fld .PT_FECTHR_set_thr v))
  | .HM_WEIGHT =>
    least .HM_WEIGHT_clerk (least .HM_WEIGHT_shadow (least .HM_WEIGHT_ledger (least .HM_WEIGHT_spill (least .HM_WEIGHT_lookup v))))
  | .XB_MIRROR =>
    let t := fld .XB_MIRROR_trunc_len v
    if t < 64 ∨ 10000 < t then setBits v 13 0 0 else v
  | .PM_SEL => if pmSliceEvents.contains (fld .PM_SEL_event v) then v else setBits v 7 0 0
  | .MC_PMSEL => if fld .MC_PMSEL_event v ≤ 13 then v else setBits v 7 0 0
  | .EV_CFG => setBits v 3 0 (min 14 (fld .EV_CFG_threshold v))
  | .EV_PRIV => setBits v 3 0 (min 14 (v % 16))
  | .TB_ADJ =>
    let lim : Int := 500000 * 65536
    setBits v 47 0 (unsigned 48 (max (-lim) (min lim (signed 48 v))))
  | .CX_ALARM_EN => v ||| 0x23
  | .CX_CTRL => v ||| (old % 2)
  | .MC_CTRL => v ||| (bits old 63 63 <<< 63)
  | .CX_PNSTOP => if ix = 0 then min (2 ^ 32 - 1) v else v
  | .FT_HX_ENTRY => if ix = 3 then setBits v 15 0 (bits old 15 0) else v
  | .CX_SECY => if h.cfg .PT_CFG_enable ix = 1 then setBits v 63 58 (bits old 63 58) else v
  | .CS_SHADOW_BASE => setBits v 21 0 0
  | .CL_SHADOW_BASE => setBits v 22 0 0
  | .GC_SHADOW_BASE => setBits v 19 0 0
  | .FT_SHADOW_BASE => setBits v 26 0 0
  | .LG_BOOK_BASE => setBits v 25 0 0
  | .LG_RING => setBits v (25 + fld .LG_RING_log2_slots v) 0 0
  | .LG_LGPORT => setBits v 2 0 0
  | .TW_IMGBASE => setBits v 26 0 0
  | .TW_REQRING => setBits v 14 0 0
  | .TM_CAL => if ix % 23 = 22 then v % 2 ^ 32 else v
  | .BP_GROUP => if ix % 2 = 1 then v % 2 ^ 32 else v
  | .FT_CH_CTRL => if fld .FT_CH_CTRL_learn_ed v = 0 then setBits v 9 8 3 else v
  | _ => v

/-- The fields that clear with a status bit that a 1 clears: its bit, and the fields. -/
def clearedWith (r : RegName) : List (Nat × Fld) :=
  match r with
  | .FC_STATUS => [(62, .FC_STATUS_overflow_count)]
  | .SE_STATUS => [(62, .SE_STATUS_refused_cause), (62, .SE_STATUS_refused_engine), (62, .SE_STATUS_refused_block),
      (62, .SE_STATUS_refused_offset)]
  | .CL_STATUS => [(61, .CL_STATUS_cause)]
  | .GC_STATUS => [(61, .GC_STATUS_cause)]
  | .FT_STATUS => [(61, .FT_STATUS_cause)]
  | .FT_CH_STATUS => [(62, .FT_CH_STATUS_cause)]
  | .ED_STATUS => [(60, .ED_STATUS_cause)]
  | .TM_STATUS => [(62, .TM_STATUS_cause), (62, .TM_STATUS_refused_offset)]
  | .CX_STATUS => [(60, .CX_STATUS_cause)]
  | .MC_STATUS => [(63, .MC_STATUS_store_clerk)]
  | .PM_SAMPLE => [(63, .PM_STATUS_missed)]
  | .MC_PMSAMPLE => [(63, .MC_PMSTATUS_missed)]
  | _ => []

/-- A write to a register without a command: its RW bits take the written ones, its W1C bits that are written 1 clear (R2 to R5),
and the word's check is made anew. -/
def Hw.plainWrite (h : Hw) (r : RegName) (n ix v : Nat) : Hw :=
  let row := regRow r
  let sl := if row.shared then 0 else n
  if (row.rw == 0 && row.w1c == 0) || h.ignores r ix v then h
  else
    let old := h.val r ix sl
    let x := h.substitute r ix old v
    let new := (old &&& (2 ^ 64 - 1 - row.rw)) + (x &&& row.rw)
    let h := (h.setVal r (new - (new &&& v &&& row.w1c)) ix sl).mark ⟨r, sl, 0, ix⟩ false
    let h := h.over ((clearedWith r).filter (fun e => bit v e.1)) (fun h e => h.wr e.2 0 ix sl)
    h.watch

/-- A write of TM_QCFG, TM_WRED, TM_GCL: refused with the lowest cause that applies (R283), else made. It drops no copy that is already
admitted (R263). -/
def Hw.tmWrite (h : Hw) (r : RegName) (n ix v : Nat) : Hw :=
  match r with
  | .TM_QCFG =>
    let others := (List.range 16).filter (fun q => q != ix % 16 && h.on .TM_QCFG_strict (ix / 16 * 16 + q) n)
    let cause := if bit v 63 ∧ 4 ≤ others.length then 1 else if outside .TM_QCFG_weight 1 1024 v then 4 else 0
    if cause ≠ 0 then h.tmRefuse n cause (0x10000 + 16 * ix)
    else h.plainWrite r n ix v
  | .TM_WRED =>
    if bit v 63 ∧ fld .TM_WRED_max_kib v ≤ fld .TM_WRED_min_kib v then h.tmRefuse n 4 (0x6000 + ix / 3 * 0x20 + ix % 3 * 8)
    else h.plainWrite r n ix v
  | .TM_GCL =>
    let i := ix / 2048
    let b := ix / 1024 % 2
    let cause := if b = h.rd .TM_GCLCMD_oper_bank i n then 2 else if h.on .TM_GCLCMD_pending i n then 3
      else if outside .TM_GCL_interval_us 1 1000000 v then 4 else 0
    if cause ≠ 0 then h.tmRefuse n cause (0x200000 + i * 0x4000 + b * 0x2000 + ix % 1024 * 8) else h.plainWrite r n ix v
  | _ => h.plainWrite r n ix v

/-- A write of TM_PORTCFG (R265): entering NORMAL zeroes every deficit; entering FAIR sets every queue's last finish time to the
port's virtual time. -/
def Hw.portCfgWrite (h : Hw) (n ix v : Nat) : Hw :=
  let was := h.rd .TM_PORTCFG_phase ix n == 1
  let h := h.plainWrite .TM_PORTCFG n ix v
  let is := h.rd .TM_PORTCFG_phase ix n == 1
  if was == is then h
  else
    let time := (h.sched (96 * n + ix)).v
    h.each 16 (fun h q =>
      let x := h.queue n (16 * ix + q)
      (h.setQueue n (16 * ix + q) (if is then { x with deficit := 0 }
        else { x with flast := time, die := x.die.map (fun c => { c with fin := none }) })).giveHead n (16 * ix + q))

/-- A write of a store word of an engine (R157): a microword, or a word of a nano-word, of which word 7 commits. -/
def Hw.storeWrite (h : Hw) (n : Nat) (nano : Bool) (ix v : Nat) : Hw :=
  if !nano then h.microWrite n (ix / 2048) (ix % 2048) v
  else if ix % 8 < 7 then h.setReg (stagedWord n (ix / 8192) (ix % 8)) (BitVec.ofNat 64 v)
  else h.nanoCommit n (ix / 8192) (ix / 8 % 1024) v

/-- A freeze or release command of the collector (R49): op 1 freezes, 2 releases; 0 and 3 are reserved. The map places the port and
the slice in the low bits of target and gives the bits above them no meaning: a target with one of those set is outside the range of
the field, and the write is ignored (R516; DESIGN CHOICE, log entry 70). -/
def Hw.freezeCmd (h : Hw) (v : Nat) (freeze release : Hw → Hw) : Hw :=
  match bits v 63 62 with
  | 1 => freeze h
  | 2 => release h
  | _ => h

/-- A change of the pair's configuration (R452): the pair links are counted again. -/
def Hw.pairWrite (h : Hw) (r : RegName) (n ix v : Nat) : Hw :=
  let before := h.pairLinks.length
  (h.plainWrite r n ix v).pairCheck before

/-- A write of a slice's register that is a command, or of a register with rules of its own; `off` is the offset in the slice. -/
def Hw.sliceWrite (h : Hw) (r : RegName) (n ix v : Nat) : Hw :=
  match r with
  | .PT_GMODE => h.gmodeWrite n ix (v % 2 ^ 32)
  | .PT_CFG => h.ptCfgWrite (96 * n + ix) v (h.midFrame (96 * n + ix))
  | .SD_LANECFG => h.laneWrite (96 * n + ix) v
  | .SD_PRBS => h.prbsWrite (96 * n + ix) v
  | .PA_BANKCOPY => if bit v 63 then h.paBankcopy n else h
  | .SE_BANKCOPY => if bit v 63 then h.seBankcopy n else h
  | .NS_UW => h.storeWrite n false ix v
  | .NS_NW => h.storeWrite n true ix v
  | .SE_PCNT_CMD =>
    match v % 4 with | 1 => h.pcnt n true false | 2 => h.pcnt n true true | 3 => h.pcnt n false true | _ => h
  | .SE_BUDGET => if bit v 63 then h.setVal .SE_BUDGET 0 ix n else h
  | .CL_CMD => h.clCmd n (v % 8) (bits v 9 8)
  | .CL_LIST => h.clListWrite n ix v
  | .GC_PROBE_MASK => h.gcProbeWrite n false ix v
  | .GC_PROBE_CFG => h.gcProbeWrite n true ix v
  | .GC_CMD => h.gcCmd n v
  | .FT_CMD => match v % 4 with | 1 => h.ftRead n | 2 => h.ftWrite n (bits v 15 8) | _ => h
  | .FT_SYNC => h.ftSync n v
  | .FT_LP_FENCE => if bit v 63 then h.lpFence n (bits v 15 8) else h
  | .FT_LP_PROFILE => h.lpProfileWrite n ix v
  | .FT_HX_DESC => h.hxDescWrite n ix v
  | .FT_HX_CMD => match v % 4 with | 1 => h.hxRead n | 2 => h.hxWrite n | _ => h
  | .FT_CH_CMD => h.chCmdWrite (v % 8) (bits v 61 56)
  | .FT_CH_RING => h.chRingWrite v
  | .FT_CH_CTRL =>
    let tick := h.ageTick
    let old := h.rd .FT_CH_CTRL_age_tick_ms
    let h := h.plainWrite r n ix v
    if h.rd .FT_CH_CTRL_age_tick_ms = old then h else { h with ch := { h.ch with tick0 := tick, mark := h.up } }
  | .ED_CMD => match v % 8 with | 1 => h.edFlip | 2 => h.edClose | 3 => h.forceClose | _ => h
  | .BP_CARVE => h.carveWrite n v
  | .BP_STATUS => let h := h.plainWrite r n ix v; if bit v 62 then h.setVal .BP_FREEFAULT 0 0 n else h
  | .TM_PORTCFG => h.portCfgWrite n ix v
  | .TM_GCLCMD => h.gclGo (96 * n + ix) v
  | .TM_QCFG | .TM_WRED | .TM_GCL => h.tmWrite r n ix v
  | .TM_POL_CMD => match v % 4 with | 1 => h.polRead | 2 => h.polWrite n false | 3 => h.polWrite n true | _ => h
  | .CS_CO_CMD => match v % 4 with | 1 => h.coRead n | 2 => h.coWrite n | 3 => h.coInvalidate n | _ => h
  | .CS_PERMIT => (h.setVal r v ix n).setVal r v ix n 1
  | .PM_CTRL => if n < 8 then h.pmControl (.slice (Fin.ofNat 8 n)) v else h
  | .PA_POLICY | .PA_PORTCFG | .PA_TKMAP | .PA_STATE0 | .PA_STATE1 | .PA_STATE2 | .PA_STATE3 | .PA_TRANS0 | .PA_TRANS1 => h
  | _ => h.plainWrite r n ix v

/-- A write of a device register by an originator that is a command, or of a register with rules of its own. -/
def Hw.deviceWrite (h : Hw) (o : Originator) (r : RegName) (ix v : Nat) : Hw :=
  let clerk : Option Nat := match o with | .clerk c => some c.val | _ => none
  let who := clerk.getD 16
  match r with
  | .GL_RESET => h.glReset o v
  | .PW_SLICECMD => h.sliceCmd ix v
  | .PW_CLERKCMD => h.clerkPowerCmd ix v
  | .PW_TEMP => if bit v 63 then h.wr .PW_TEMP_max 0 ix else h
  | .PW_VRCTRL => h.vrCtrl v
  | .TB_STEP => h.tbStep v
  | .TB_SET => h.tbSet v
  | .EV_SRC => h.srcWrite ix v
  | .EV_SOFT_SET => h.softSet ix v
  | .EV_PSOFT_SET => h.privSet ix v
  | .FC_TENANT_CMD =>
    h.freezeCmd v (fun h => h.command 1 8 0x3FF (some (v % 65536))) (fun h => h.thaw .FC_TFROZEN (v % 65536))
  | .FC_PORT_CMD =>
    if 768 ≤ v % 65536 then h
    else h.freezeCmd v (fun h => h.command 2 8 (v % 65536) none) (fun h => h.thaw .FC_PFROZEN (v % 65536))
  | .FC_SLICE_CMD =>
    let n := v % 65536
    if 8 ≤ n then h
    else h.freezeCmd v (fun h => h.command 3 n 0x3FF none) (fun h => h.thawSlice n)
  | .FC_HOLD => if bit v 0 then h.command 4 8 0x3FF none else h
  | .FC_INJECT => h.inject v
  | .FC_SELFTEST => h.selftest v
  | .CK_UCTRL => h.ckCtrl who ix v
  | .CK_UCMD => h.ckCmd who ix v true
  | .CK_UWIN => h.ckWindow who ix v
  | .CK_UINIT | .CK_UFOLD | .CK_UTAIL | .CK_UEXPECT | .CK_URESULT | .CK_USTATUS => h.ckWrite who ix (fun h => h.plainWrite r 0 ix v)
  | .CX_TXMAP => h.saMapWrite ix false v
  | .CX_RXMAP => h.saMapWrite ix true v
  | .CX_PN => h.pnWrite ix v
  | .CX_IMPORT_BUF => h.setVal r v ix
  | .CX_IMPORT_CMD => h.importStart v
  | .CX_ERASE => h.keyErase v
  | .CX_ZEROIZE => if bit v 0 then h.zeroize 0 else h
  | .LG_CTRL => h.lgCtrlWrite v
  | .SF_MEMBER => h.sfMemberWrite v
  | .SF_REACH_CMD => match v % 4 with | 1 => h.reachRead | 2 => h.reachWrite | _ => h
  | .TP_CTRL | .TP_PAIR => h.pairWrite r 0 ix v
  | .XB_RESTORE => h.planeRestore v
  | .TW_CRCMD => h.clerkReceipt clerk ix v
  | .TW_CRCPT => h.crcptWrite clerk (ix / 4094) (ix % 4094) v
  | .MC_CMD => h.clerkCmd ix (v % 4)
  | .MC_KICK => if bit v 0 then h.kick ix else h
  | .MC_RXRING => h.ringWrite ix false v
  | .MC_TXRING => h.ringWrite ix true v
  | .MC_CLASS => h.classWrite ix v
  | .MC_CLASSB => h.burstWrite ix v
  | .MC_UW => h.clerkStore (0x10000 + 8 * ix) v
  | .MC_NW => h.clerkStore (0x80000 + 8 * ix) v
  | .MC_FUSECMD => h.fuseCmd o v
  | .MC_PMCTRL => if ix < 8 then h.pmControl (.clerk (Fin.ofNat 8 ix)) v else h
  | .HM_STACKCMD => h.stackCmd ix v
  | .HM_SHARE => h.shareWrite ix v
  | .HM_DB => h.regionWrite ix v
  | .HM_ERRLOG => if bit v 62 then h.wr .HM_ERRLOG_valid 0 else h
  | _ => h.plainWrite r 0 ix v

/-- A write to a banked register of the parser or the stage engines, by its offset in the slice. -/
def Hw.bankedWrite (h : Hw) (n off v : Nat) : Hw :=
  if off < 0x300000 then h.paWrite n (off - 0x200000) v else h.seBankedWrite n (off - 0x300000) v

/-- A write of a register by an originator (EV_DONE of a clerk apart). -/
def Hw.writeReg (h : Hw) (o : Originator) (a : Nat) (r : RegName) (n ix v : Nat) : Hw :=
  let row := regRow r
  if row.banked && (decide (0x200000 ≤ row.off) && decide (row.off < 0x400000)) then
    h.bankedWrite n ((a - 0x100000000) % 0x4000000) v
  else if row.space == .slice then h.sliceWrite r n ix v
  else h.deviceWrite o r ix v

/-- A write of `size` bytes by an originator (R134, R371, R401): 0, or the cause for which it fails; and whether a clerk's store to
EV_DONE ended a handler. -/
def Hw.busWrite (h : Hw) (o : Originator) (a size v : Nat) : Nat × Bool × Hw :=
  let c := h.judge o true false a size
  if c ≠ 0 then (c, false, h)
  else match place a with
    | .reg .EV_DONE _ _ =>
      match o with
      | .clerk k => let (ended, h) := h.evDone k (v % 8192); (0, ended, h.watch)
      | _ => (0, false, h)
    | .reg r n ix => (0, false, h.writeReg o a r n ix v)
    | _ => (0, false, (h.store a (leBytes size v)).granules 5 a size)

/-- REGISTER_WRITE: an aligned write of 8 bytes in the internal address space. A write that fails changes nothing here: its originator
reports it (R371, R401). -/
def Hw.registerWrite (h : Hw) (o : Originator) (a v : Nat) : Hw := (h.busWrite o a 8 v).2.2

end Sys2Proof.Machine
end

