-- ==== Sys2Proof/Machine/Nano.lean ====
section
/-! DEFINITION. The clerks at work: microwords, memory slots, block words, loads that return (spec/05_odkacel_instruction_set.md,
R110 to R112, R115, R118, R133 to R136; R141 of 06; R369 to R373 of 16; R421, R422 of 18; R435 of 19). -/

namespace Sys2Proof.Machine

/-! ### Fetch (R159, R369) -/

/-- A word of a clerk's store: copy 0 if it passes its check, else copy 1, else none. A failure of only one copy, whichever, raises
F-0x302. -/
def Hw.clerkWord (h : Hw) (name : RegName) (ix : Nat) : Option Nat × Hw :=
  match h.good ⟨name, 0, 0, ix⟩, h.good ⟨name, 0, 2, ix⟩ with
  | true, true => (some (h.val name ix), h)
  | true, false => (some (h.val name ix), h.raise 0x302 8)
  | false, true => (some (h.val name ix 0 2), h.raise 0x302 8)
  | false, false => (none, h)

/-- Consecutive words of a clerk's store, as one number: none if one of them fails in both copies. -/
def Hw.clerkWords (h : Hw) (name : RegName) (ix : Nat) : Nat → Option Nat × Hw
  | 0 => (some 0, h)
  | k + 1 =>
    let (a, h) := h.clerkWord name ix
    let (r, h) := h.clerkWords name (ix + 1) k
    (match a, r with | some x, some y => some (x + 2 ^ 64 * y) | _, _ => none, h)

/-- The microword of a clerk that begins next and its nano-word. -/
def Hw.clerkFetch (h : Hw) (c : Nat) : Option (Nat × Nat) × Hw :=
  let (w, h) := h.clerkWord .MC_UW (2048 * c + (h.clerk c).ua)
  match w with
  | none => (none, h)
  | some w =>
    let (n, h) := h.clerkWords .MC_NW ((1024 * c + uwNano w) * 8) 8
    (n.map (fun n => (w, n)), h)

/-! ### Registers in use (R118, R135) -/

/-- The X registers that an operation slot names. -/
def opRegs (raw : Nat) : List Nat :=
  let s := opSlot raw
  if s.op = 0 then []
  else ((if opcodesNoA.contains s.op then [] else [s.a]) ++ (if opcodesNoB.contains s.op then [] else [s.b]) ++ [s.dst]).filterMap
    (fun d => if opSpace d = 0 then some (bits d 4 0) else none)

/-- The X registers that a memory slot names. -/
def memRegs (raw : Nat) : List Nat :=
  let s := memSlot raw
  match s.op with
  | 0 | 8 => []
  | 1 | 2 | 3 | 4 => [s.xa, s.xd]
  | _ => [s.xa, s.xd, s.xc]

/-- Whether a nano-word waits for a pending load: it names a register that one will write, or it holds a FENCE. -/
def loadWait (nano : Nat) (loads : List (Nat × Word)) : Bool :=
  let mem := [nwLk nano 0, nwLk nano 1]
  let regs := (List.range 4).flatMap (fun k => opRegs (nwOp nano k)) ++ mem.flatMap memRegs
  !loads.isEmpty && (mem.any (fun m => (memSlot m).op == 8) || loads.any (fun l => l.1 != 0 && regs.contains l.1))

/-! ### Memory slots (R133 to R135) -/

/-- What the memory slots of a nano-word have done so far: the hardware, the cause and address of a failed access (0 none), loads
whose data are to return, registers to write, the success of a CAS, and whether a store has given the clerk another microword. -/
structure MemRun where
  hw : Hw
  cause : Nat
  addr : Nat
  loads : List (Nat × Word)
  regs : List (Nat × Nat)
  cas : Option Bool
  moved : Bool
  deriving DecidableEq, Repr

/-- The 40-bit address of a memory slot. -/
def memAddr (base : Nat) (offset : Int) : Nat := unsigned 40 ((base : Int) + offset)

/-- Counts of an access (R431): the event, and HBM_ACCESS. -/
def Hw.countAccess (h : Hw) (c ev a : Nat) : Hw :=
  let h := h.pmClerk c ev
  if inHbm a then h.pmClerk c 9 else h

/-- Whether a store restarts the clerk that makes it: MC_CMD[c] with RESET. -/
def restarts (c a v : Nat) : Bool :=
  match place a with | .reg .MC_CMD _ i => i == c && v % 4 == 3 | _ => false

/-- An atomic operation on an aligned word of clerk memory (R133, R134): the old value, and the word that `f` puts there, if any. -/
def Hw.atomic (h : Hw) (c : Clerk) (a : Nat) (f : Nat → Option Nat) : Except Nat Nat × Hw :=
  let cause := h.judge (.clerk c) true true a 8
  if cause ≠ 0 then (.error cause, h)
  else
    let old := h.load64 a
    (.ok old, match f old with | some v => h.store64 a v | none => h)

/-- One memory slot performed, its registers read from `x` before any slot writes. Two CAS slots of one nano-word both write C16, and
M1's result stands (DESIGN CHOICE, log entry 94). -/
def MemRun.slot (m : MemRun) (c : Clerk) (x : List Nat) (raw : Nat) : MemRun :=
  let s := memSlot raw
  let a := memAddr (nth x s.xa 0) s.offset
  let d := nth x s.xd 0
  let fails (k : Nat) (h : Hw) : MemRun := { m with hw := h, cause := k, addr := a }
  match s.op with
  | 3 =>
    let (k, ended, h) := m.hw.busWrite (.clerk c) a s.size (d % 2 ^ (8 * s.size))
    if k ≠ 0 then fails k h
    else { m with hw := h.countAccess c 3 a, moved := m.moved || ended || restarts c a d }
  | 4 =>
    match m.hw.atomic c a (fun old => some ((old + d) % 2 ^ 64)) with
    | (.error k, h) => fails k h
    | (.ok old, h) => { m with hw := h.pmClerk c 4, regs := m.regs ++ [(s.xd, old)] }
  | 5 =>
    let want := nth x s.xc 0
    match m.hw.atomic c a (fun old => if old = want then some d else none) with
    | (.error k, h) => fails k h
    | (.ok old, h) =>
      let h := h.pmClerk c 4
      { m with hw := if old = want then h else h.pmClerk c 5, regs := m.regs ++ [(s.xd, old)], cas := some (old == want) }
  | 1 | 2 =>
    match m.hw.busRead (.clerk c) a s.size with
    | (.error k, h) => fails k h
    | (.ok v, h) =>
      let v := if s.op = 2 then unsigned 64 (signed (8 * s.size) v) else v
      { m with hw := h.countAccess c 2 a, loads := m.loads ++ [(s.xd, BitVec.ofNat 64 v)] }
  | _ => m

/-- Both memory slots, M0 and then M1; a slot whose guard is false, or after a failed access, performs nothing. -/
def MemRun.slots (m : MemRun) (c : Clerk) (e : Env) (nano : Nat) : MemRun :=
  [nwLk nano 0, nwLk nano 1].foldl (fun (m : MemRun) raw =>
    if m.cause ≠ 0 || !e.guard (memSlot raw).g then m else m.slot c e.reg raw) m

/-! ### A microword (R110 to R112, R141, R371, R372, R422) -/

/-- A clerk's registers as operands name them. -/
def Hw.clerkEnv (h : Hw) (c imm : Nat) : Env :=
  let x := h.clerk c
  ⟨true, x.x.map BitVec.toNat, [], [], [], clerkConds x.c x.cas (h.above c), [], imm⟩

/-- A register of a clerk written; X0 discards. -/
def ClerkSt.put (x : ClerkSt) (r v : Nat) : ClerkSt := if r = 0 then x else { x with x := setNth x.x r (BitVec.ofNat 64 v) }

/-- The exception that the sequencing of a microword causes (R371): 1 STACK, 2 END_IN_HANDLER, 0 none. -/
def Hw.seqCause (h : Hw) (c w : Nat) : Nat :=
  let x := h.clerk c
  if uwEnd w then (if x.stack.any (fun e => e.resume.isSome) then 2 else 0)
  else match nextAddress w [] x.rstack 8 with | some _ => 0 | none => 1

/-- The clerk goes on to its next microword, or, at END, the task ends: WAIT with an empty return stack; a clerk that its own store
has halted stays so. -/
def Hw.goOn (h : Hw) (c w : Nat) : Hw :=
  let x := h.clerk c
  if uwEnd w then
    let h := h.setClerk c (fun x => { x with rstack := [], ua := if h.clerkState c = 1 then x.ua else waitPoint })
    if h.clerkState c = 1 then h.setClerkState c 2 else h
  else match nextAddress w (clerkConds x.c x.cas (h.above c)) x.rstack 8 with
    | some (a, st) => h.setClerk c (fun x => { x with
        ua := a, rstack := st,
        rstore := if x.rstack.length < st.length then setNth x.rstore (st.length - 1) (nth st 0 0) else x.rstore })
    | none => h

/-- The sample of a clerk's counter set (R435): the microword that begins, and the depth of the priority stack. -/
def Hw.sampleMicroword (h : Hw) (c : Nat) : Hw :=
  let x := h.clerk c
  { h with armed := h.armed.map (fun a =>
      if a.clerk && a.unit == c && a.found.isNone then { a with found := some [x.ua, x.stack.length] } else a) }

/-- Whether a clerk executes: powered and RUNNING. -/
def Hw.executes (h : Hw) (c : Nat) : Bool := h.clerkPower c == 3 && h.clerkState c == 1

/-- The block operation of a nano-word whose guard lets it act and whose count is not spent. -/
def blockOf (e : Env) (nano : Nat) : Option MemSlot :=
  [memSlot (nwLk nano 0), memSlot (nwLk nano 1)].find? (fun s => isBlock s.op && e.guard s.g && nth e.reg s.xc 0 != 0)

/-- A microword executed (R141): its operations read before any slot writes; its memory slots are judged before any of them has an
effect that stands; an exception leaves everything else as it was. A store that ends a handler makes NEXT, BMODE and END
ignored (R422). -/
def Hw.microword (h : Hw) (c : Clerk) (w nano : Nat) : Hw :=
  let ua := (h.clerk c).ua
  let e := h.clerkEnv c (uwImm w)
  let r := e.operations [] h.now nano
  let h1 := h.setClerk c (fun x => { x with x := r.reg.map (BitVec.ofNat 64), c := r.cond.take 16 })
  let m := MemRun.slots ⟨h1, 0, 0, [], [], none, false⟩ c e nano
  if m.cause ≠ 0 then
    let seen := if m.cause = 5 then (h.fetch 5 m.addr 1).2 else h
    seen.clerkExcept c m.cause ua m.addr
  else if !m.moved && h.seqCause c w != 0 then h.clerkExcept c (h.seqCause c w) ua 0
  else
    let h := m.hw.setClerk c (fun x => { m.regs.foldl (fun (x : ClerkSt) p => x.put p.1 p.2) x with
      cas := m.cas.getD x.cas, loads := x.loads ++ m.loads })
    ((if m.moved then h else h.goOn c w).pmClerk c 1).watch

/-- CLERK_NANO_WORD (R141): the microword that begins next, unless it waits for a load; words of a block operation are
BLOCK_WORD's. -/
def execClerkNanoWord (c : Clerk) (s : State) : Host.Outcome State Fault Refusal :=
  onTx (fun h =>
    if !h.executes c then h
    else
      let h := h.sampleMicroword c
      match h.clerkFetch c with
      | (none, h) => h.clerkExcept c 8 (h.clerk c).ua 0
      | (some (w, nano), h) =>
        if loadWait nano (h.clerk c).loads || (blockOf (h.clerkEnv c 0) nano).isSome then h else h.microword c w nano) s

/-- CLERK_LOAD_RETURN (R135): the oldest load's data are written into its register. -/
def execClerkLoadReturn (c : Clerk) (s : State) : Host.Outcome State Fault Refusal :=
  onHw (fun h => h.setClerk c (fun x =>
    match x.loads with
    | l :: r => { x.put l.1 l.2.toNat with loads := r }
    | [] => x)) s

/-! ### Block operations (R136) -/

/-- The registers of a block operation after a word, all at once. A register that the operation names twice takes a value that the
spec does not state (log entry 32). -/
def Hw.blockStep (h : Hw) (c : Nat) (s : MemSlot) (x : List Nat) : Hw :=
  let at' (r : Nat) (v : Nat) (h : Hw) : Hw := h.setClerk c (fun k => k.put r (v % 2 ^ 64))
  let named := if s.op = 6 then [s.xa, s.xd, s.xc] else [s.xa, s.xc]
  let h := at' s.xa (nth x s.xa 0 + 8) h
  let h := if s.op = 6 then at' s.xd (nth x s.xd 0 + 8) h else h
  let h := at' s.xc (nth x s.xc 0 + 2 ^ 64 - 1) h
  h.over (named.eraseDups.filter (fun r => r != 0 && decide (1 < named.count r))) (fun h r =>
    let (v, h) := h.random
    at' r v h)

/-- One word of a block operation: read or taken from Xd, written, and the registers moved on; a word whose access fails stops the
operation with the registers at it. After the last word the clerk goes on. -/
def Hw.blockWord (h : Hw) (c : Clerk) (w : Nat) (s : MemSlot) : Hw :=
  let x := (h.clerk c).x.map BitVec.toNat
  let ua := (h.clerk c).ua
  let src := nth x s.xa 0 % 2 ^ 40
  let dst := if s.op = 6 then nth x s.xd 0 % 2 ^ 40 else src
  let o := Originator.clerk c
  let before := if s.op = 6 then h.judge o false false src 8 else 0
  let stores := h.judge o true false dst 8
  if before ≠ 0 then h.clerkExcept c before ua src
  else if stores ≠ 0 then h.clerkExcept c stores ua dst
  else
    match (if s.op = 6 then h.busRead o src 8 else (.ok (nth x s.xd 0), h)) with
    | (.error k, h) => h.clerkExcept c k ua src
    | (.ok v, h) =>
      let h := h.blockStep c s x
      let (_, ended, h) := h.busWrite o dst 8 v
      let h := h.countAccess c 6 dst
      let h := if s.op = 6 ∧ inHbm src = true then h.pmClerk c 9 else h
      if ended || restarts c dst v then h
      else if nth ((h.clerk c).x) s.xc 0#64 != 0#64 then h
      else if h.seqCause c w != 0 then h.clerkExcept c (h.seqCause c w) ua 0
      else (h.goOn c w).pmClerk c 1

/-- BLOCK_WORD (R136). -/
def execBlockWord (c : Clerk) (s : State) : Host.Outcome State Fault Refusal :=
  onTx (fun h =>
    if !h.executes c then h
    else match h.clerkFetch c with
      | (none, h) => h.clerkExcept c 8 (h.clerk c).ua 0
      | (some (w, nano), h) =>
        if loadWait nano (h.clerk c).loads then h
        else match blockOf (h.clerkEnv c (uwImm w)) nano with
          | some s => (h.blockWord c w s).watch
          | none => h) s

end Sys2Proof.Machine
end

