-- ==== Sys2Proof/Machine/Teller.lean ====
section
/-! DEFINITION. Slips: the transmit FIFO, judgement, the six opcodes, loss and resync (spec/17_teller_window.md, R392 to R404,
R406). -/

namespace Sys2Proof.Machine

/-! ### The transmit FIFO (R393, R396, R397) -/

/-- A slip that has not been judged is gone when the window enters DISCARD: no further receipt is produced (R397). -/
def Hw.dropUnjudged (h : Hw) : Hw :=
  if h.tw.phase == .none || h.tw.phase == .complete then h.setTw (fun t => { t with slip := [], phase := SlipPhase.none }) else h

/-- A word pushed: discarded and counted in DISCARD; lost with OVERFLOW where the FIFO is full. -/
def Hw.txPush (h : Hw) (v : Word) : Hw :=
  if h.rd .TW_HSTATUS_state = 2 then h.twCount 4
  else if h.txFree = 0 then
    (((h.wr .TW_HSTATUS_tx_overflow 1).raise 0xD03 8).twCount 6).dropUnjudged.lose false 6 0
      (h.rd .TW_HSTATUS_expect_seq)
  else (h.setTw (fun t => { t with fifo := t.fifo ++ [v] })).assemble

/-- TXWIN_PUSH (R393). -/
def execTxwinPush (v : Word) (s : State) : Host.Outcome State Fault Refusal := onHw (fun h => h.txPush v) s

/-- A receipt for the slip in turn, whose header is trusted; that of a slip orphaned by an endpoint reset is discarded (R408). -/
def Hw.reply (h : Hw) (kind status : Nat) (payload : List Word) : Hw :=
  if h.tw.orphan then h.endSlip
  else
    let w0 := (nth h.tw.slip 0 0#64).toNat
    let w1 := (nth h.tw.slip 1 0#64).toNat
    (h.setTw (fun t => { t with phase := SlipPhase.reply })).produce none true kind status
      (BitVec.ofNat 64 ((bits w1 63 48 <<< 48) + bits w0 31 0)) payload

/-- An ERROR receipt with its payload word (R406). -/
def Hw.replyError (h : Hw) (status payload : Nat) : Hw := h.reply 2 status [BitVec.ofNat 64 payload]

/-- The success of a slip that is answered only when it asks for it. -/
def Hw.done (h : Hw) : Hw := if bit (nth h.tw.slip 0 0#64).toNat 48 then h.reply 1 0 [] else h.endSlip

/-- The opcode of the slip in turn. -/
def Hw.slipOp (h : Hw) : Nat := bits (nth h.tw.slip 0 0#64).toNat 63 56
/-- Its param: 48 bits (R395). -/
def Hw.slipParam (h : Hw) : Nat := bits (nth h.tw.slip 1 0#64).toNat 47 0
/-- Its payload. -/
def Hw.slipPayload (h : Hw) : List Word := (h.tw.slip.drop 2).dropLast

/-- The bits of param that an opcode assigns, and the length that it fixes, if any (R399). -/
def slipForm (op : Nat) : Option (Nat × Option Nat) :=
  match op with
  | 1 => some (0, none)
  | 2 => some (2 ^ 40 - 1, none)
  | 3 => some (2 ^ 48 - 1, some 3)
  | 4 => some (0x07000000FFFF, none)
  | 5 => some (0x800000FFFFFF, none)
  | 6 => some (2 ^ 30 - 1, some 21)
  | _ => none

/-- Whether a slip carries a reserved value: an opcode, flag or bit that R395 and R399 do not assign, or a length that does not match
its opcode. -/
def slipReserved (ws : List Word) : Bool :=
  let w0 := (nth ws 0 0#64).toNat
  let param := bits (nth ws 1 0#64).toNat 47 0
  match slipForm (bits w0 63 56) with
  | none => true
  | some (mask, n) =>
    bits w0 55 49 != 0 || (param &&& mask) != param || (n.isSome && n != some ws.length)
      || bits (ws.getLastD 0#64).toNat 63 32 != 0

/-- A complete slip judged (R396): its check, then its sequence number; one that passes both consumes its number and executes, unless
it carries a reserved value or the boot ROM does not serve its opcode (R398, R399). -/
def Hw.judgeSlip (h : Hw) : Hw :=
  let ws := h.tw.slip
  let seq := bits (nth ws 0 0#64).toNat 31 0
  let expect := h.rd .TW_HSTATUS_expect_seq
  if slipCheck 0 seq ws.dropLast ≠ bits (ws.getLastD 0#64).toNat 31 0 then ((h.raise 0xD01 8).twCount 1).loseSlip 1 seq expect
  else
    let h := if h.rd .TW_HSTATUS_state = 2 then h else h.wr .TW_HSTATUS_state 0
    if seq ≠ expect then (h.twCount 2).replyError 2 expect
    else
      let h := (h.wr .TW_HSTATUS_expect_seq (expect + 1)).twCount 0
      if h.romServes = true ∧ h.slipOp ≠ 1 ∧ h.slipOp ≠ 5 then h.replyError 14 0
      else if slipReserved ws then h.replyError 4 0
      else h.setTw (fun t => { t with phase := SlipPhase.execute })

/-- SLIP_COMPLETE (R396). -/
def execSlipComplete (s : State) : Host.Outcome State Fault Refusal :=
  onHw (fun h => if h.tw.phase == .complete then h.judgeSlip else h) s

/-- SLIP_IDLE_TIMEOUT (R397): the slip in assembly has waited idle_us for its next word. -/
def execSlipIdleTimeout (s : State) : Host.Outcome State Fault Refusal :=
  onHw (fun h =>
    if h.tw.phase != .none || h.rd .TW_HSTATUS_state != 1 then h
    else
      let got := h.tw.slip.length
      let seq := bits (nth h.tw.slip 0 0#64).toNat 31 0
      ((h.raise 0xD02 8).twCount 3).loseSlip 5 seq ((got <<< 32) + h.rd .TW_HSTATUS_expect_seq)) s

/-- TW_HCTRL.resync (R397): the transmit FIFO is emptied, a slip in assembly with it, and the window is READY; a slip in turn
completes, its words in the FIFO no more. -/
def Hw.resync (h : Hw) : Hw :=
  (h.setTw (fun t => { t with
    fifo := [], slip := if t.phase == .none then [] else t.slip, emptied := t.phase != .none })).wr .TW_HSTATUS_state 0

/-- RESYNC (R397). -/
def execResync (s : State) : Host.Outcome State Fault Refusal := onHw Hw.resync s

/-! ### Opcodes (R399 to R404) -/

/-- Whether the slip in turn executes an opcode. -/
def Hw.executing (h : Hw) (op : Nat) : Bool := h.tw.phase == .execute && h.slipOp == op

/-- ECHO (R399): the payload returned. -/
def execEcho (s : State) : Host.Outcome State Fault Refusal :=
  onHw (fun h => if h.executing 1 then h.reply 3 0 h.slipPayload else h) s

/-- The ERROR status of a failed access (R401, R406), from the cause that `Hw.judge` gives. -/
def slipStatus (cause : Nat) : Nat :=
  match cause with
  | 3 => 9
  | 4 => 7
  | 5 => 10
  | 6 => 11
  | _ => 8

/-- Words written from an address, ascending, up to the first that fails: its number and status, if any. -/
def Hw.hostWrite (h : Hw) (a k : Nat) : List Word → Option (Nat × Nat) × Hw
  | [] => (none, h)
  | w :: r =>
    match h.busWrite .host (a + 8 * k) 8 w.toNat with
    | (0, _, h) => h.hostWrite a (k + 1) r
    | (c, _, h) => (some (k, slipStatus c), h)

/-- Words read from an address, ascending, up to the first that fails. -/
def Hw.hostRead (h : Hw) (a k : Nat) : Nat → Except (Nat × Nat) (List Word) × Hw
  | 0 => (.ok [], h)
  | n + 1 =>
    match h.busRead .host (a + 8 * k) 8 with
    | (.error c, h) => (.error (k, slipStatus c), h)
    | (.ok v, h) =>
      match h.hostRead a (k + 1) n with
      | (.ok ws, h) => (.ok (BitVec.ofNat 64 v :: ws), h)
      | e => e

/-- WRITE_WORDS (R401): an unaligned address fails at word 0; the slip stops at a word that fails. -/
def execWriteWords (s : State) : Host.Outcome State Fault Refusal :=
  onTx (fun h =>
    let a := bits h.slipParam 39 0
    if !h.executing 2 then h
    else if a % 8 ≠ 0 then h.replyError 9 0
    else match h.hostWrite a 0 h.slipPayload with
      | (none, h) => h.done.watch
      | (some (k, st), h) => (h.replyError st k).watch) s

/-- READ_WORDS (R401): a count of 0 or above 4,093 reads nothing (R399). The count is bits [52:40] of word 1, whose upper five are also
the lowest of the tag (log entry 33). -/
def execReadWords (s : State) : Host.Outcome State Fault Refusal :=
  onHw (fun h =>
    let a := bits h.slipParam 39 0
    let n := bits (nth h.tw.slip 1 0#64).toNat 52 40
    if !h.executing 3 then h
    else if n = 0 ∨ 4093 < n then h.replyError 15 0
    else if a % 8 ≠ 0 then h.replyError 9 0
    else match h.hostRead a 0 n with
      | (.ok ws, h) => (h.reply 3 0 ws).watch
      | (.error (k, st), h) => (h.replyError st k).watch) s

/-- Whether a clerk's request ring has no free slot. -/
def Hw.ringFull (h : Hw) (c : Nat) : Bool :=
  decide (2 ^ h.rd .TW_REQRING_log2_slots c ≤ between (h.rd .TW_REQPROD_prod c) (h.rd .TW_REQCONS_cons c))

/-- Steps 2 to 4 of R402: the slip in turn waits while the ring is full; else its words are copied, the slot counted, the clerk
kicked, and the slip ends without a receipt of the device. -/
def Hw.place402 (h : Hw) (c : Nat) : Hw :=
  if h.ringFull c then h.setTw (fun t => { t with phase := SlipPhase.waiting })
  else
    let prod := h.rd .TW_REQPROD_prod c
    let a := h.rd .TW_REQRING_base c + 0x8000 * (prod % 2 ^ h.rd .TW_REQRING_log2_slots c)
    let h := h.store a (h.tw.slip.flatMap (fun w => leBytes 8 w.toNat))
    ((h.wr .TW_REQPROD_prod (prod + 1) c).kick c).endSlip

/-- The slip in turn deposited in a clerk's request ring (R402): CLERK_DOWN for a clerk that does not run or has no ring. -/
def Hw.deposit (h : Hw) (c : Nat) : Hw :=
  if h.clerkState c = 0 ∨ h.clerkState c = 3 ∨ h.rd .TW_REQRING_base c = 0 then h.replyError 12 c else h.place402 c

/-- Whether the slip in turn, of an opcode, waits for a slot of a request ring. -/
def Hw.slotWait (h : Hw) (op : Nat) : Bool := h.tw.phase == .waiting && h.slipOp == op

/-- RUN_PROGRAM (R402). -/
def execRunProgram (s : State) : Host.Outcome State Fault Refusal :=
  onHw (fun h =>
    let c := bits h.slipParam 42 40
    if h.executing 4 then h.deposit c else if h.slotWait 4 then h.place402 c else h) s

/-- The clerk for whose ring the slip in turn waits: RUN_PROGRAM's, or the image clerk of a last LOAD_IMAGE (R402, R403). -/
def Hw.depositClerk (h : Hw) : Option Nat :=
  if h.slotWait 4 then some (bits h.slipParam 42 40)
  else if h.slotWait 5 then some (h.rd .TW_CTRL_image_clerk)
  else none

/-- CLERK_BUSY (R402): req_wait_us has passed without a free slot. -/
def execClerkBusy (s : State) : Host.Outcome State Fault Refusal :=
  onHw (fun h =>
    match h.depositClerk with
    | none => h
    | some c => if h.ringFull c then h.replyError 13 c else h) s

/-- Image words staged in memory, ascending, up to the first whose stack is not ACTIVE (R357, R403). -/
def Hw.stage (h : Hw) (a k : Nat) : List Word → Option Nat × Hw
  | [] => (none, h)
  | w :: r =>
    if inHbm (a + 8 * k) && !h.stackActive (a + 8 * k) then (some k, h)
    else ((h.store64 (a + 8 * k) w.toNat).granules 5 (a + 8 * k) 8).stage a (k + 1) r

/-- LOAD_IMAGE (R403): words staged, once; the last slip has the boot ROM judge and load the image, or goes to the image clerk. -/
def Hw.loadImage (h : Hw) : Hw :=
  let rom := h.romServes
  let base := if rom then bootArea else h.rd .TW_IMGBASE_base
  let size := if rom then bootAreaSize else 2 ^ 27
  let off := bits h.slipParam 23 0
  if base = 0 then h.replyError 14 0
  else if size / 8 < off + h.slipPayload.length then h.replyError 15 0
  else match h.stage (base + 8 * off) 0 h.slipPayload with
    | (some k, h) => h.replyError 11 k
    | (none, h) =>
      if !bit h.slipParam 47 then h.done
      else if rom then let h := h.bootHost; h.reply 1 0 [h.reg ⟨.MC_BOOT, 0, 0, 0⟩]
      else h.deposit (h.rd .TW_CTRL_image_clerk)

/-- LOAD_IMAGE (R403). -/
def execLoadImage (s : State) : Host.Outcome State Fault Refusal :=
  onTx (fun h =>
    if h.executing 5 then h.loadImage
    else if h.slotWait 5 then h.place402 (h.rd .TW_CTRL_image_clerk) else h) s

/-- IMPORT_KEY (R404): begins once the import logic is idle; answers once the import has ended. -/
def execImportKey (s : State) : Host.Outcome State Fault Refusal :=
  onHw (fun h =>
    if h.on .CX_IMPORT_CMD_busy then h
    else if h.executing 6 then
      let ws := h.slipPayload
      let h := h.setVal .CX_IMPORT_PN (nth ws 0 0#64).toNat
      let h := h.each 17 (fun h w => h.setVal .CX_IMPORT_BUF (nth ws (w + 1) 0#64).toNat w)
      (h.importStart (2 ^ 63 + (h.slipParam <<< 32))).setTw (fun t => { t with phase := SlipPhase.importing })
    else if h.tw.phase == .importing then h.reply 1 0 [BitVec.ofNat 64 (h.view .CX_IMPORT_STATUS 0 0)]
    else h) s

/-- HOST_BAD_ACCESS (R392). -/
def execHostBadAccess (s : State) : Host.Outcome State Fault Refusal :=
  onHw (fun h => h.wr .TW_HSTATUS_bad_access 1) s

end Sys2Proof.Machine
end

