-- ==== Sys2Proof/Machine/Host.lean ====
section
/-! DEFINITION. Register writes as commands, the host's BAR0, and the clock monitors and resets of the pins
(spec/00_scope.md, R516; R391, R392 of 17; R426 of 18; R460, R474, R475 of 21). -/

namespace Sys2Proof.Machine

/-- A doubleword written to the MSI-X table (R391, PCIe Base Specification 5.0): an entry's lower and upper address, its data, its
vector control. -/
def Hw.msixHalf (h : Hw) (off v : Nat) : Hw :=
  let k := off / 16
  match off / 4 % 4 with
  | 0 => h.setVal .A_MSIX_ADDR (setBits (h.val .A_MSIX_ADDR k) 31 0 (v % 2 ^ 32 / 4 * 4)) k
  | 1 => h.setVal .A_MSIX_ADDR (setBits (h.val .A_MSIX_ADDR k) 63 32 (v % 2 ^ 32)) k
  | 2 => h.setVal .A_MSIX_DATA (v % 2 ^ 32) k
  | _ => h.maskVector k (v % 2)
/-- A word written to the MSI-X table: its two doublewords, ascending. -/
def Hw.msixWrite (h : Hw) (off v : Nat) : Hw := (h.msixHalf off (v % 2 ^ 32)).msixHalf (off + 4) (v / 2 ^ 32)

/-- Whether an offset of BAR0 lies in the MSI-X table. -/
def inMsix (off : Nat) : Bool := decide (0xF0000 ≤ off) && decide (off < 0xF0400)
/-- Whether BAR0 accepts an access (R392): aligned words, and in the MSI-X table aligned doublewords too. -/
def bar0Ok (off : Nat) (half : Bool) : Bool := if half then inMsix off && off % 4 == 0 else off % 8 == 0

/-- A word, or a doubleword, that the host writes in BAR0 (R391 to R393): reserved offsets discard it; any other access sets
bad_access. -/
def Hw.bar0Write (h : Hw) (off v : Nat) (half : Bool) : Hw :=
  if !bar0Ok off half then h.wr .TW_HSTATUS_bad_access 1
  else if half then h.msixHalf (off - 0xF0000) v
  else if 0x10000 ≤ off ∧ off < 0x20000 then h.txPush (BitVec.ofNat 64 v)
  else if inMsix off then h.msixWrite (off - 0xF0000) v
  else match findReg .bar0 off with
    | some (.TW_HCTRL, _) => if bit v 63 then h.resync else h
    | some (.TW_RXPOP, _) => h.rxPop v
    | some (.TW_HSTATUS, _) => h.plainWrite .TW_HSTATUS 0 0 v
    | _ => h

/-- A word of the MSI-X table as it reads. -/
def Hw.msixWord (h : Hw) (off : Nat) : Nat :=
  let k := off / 16
  if off / 8 % 2 = 0 then h.val .A_MSIX_ADDR k else h.val .A_MSIX_DATA k % 2 ^ 32 + (h.val .A_MSIX_CTL k % 2) * 2 ^ 32
/-- What a read of BAR0 returns and does (R391, R392, R394): the registers, the receive aperture, the MSI-X table and its pending bit
array; reserved offsets read zero; an access that BAR0 does not accept returns zero and sets bad_access. -/
def Hw.bar0Read (h : Hw) (off : Nat) (half : Bool) : Nat × Hw :=
  if !bar0Ok off half then (0, h.wr .TW_HSTATUS_bad_access 1)
  else if inMsix off then
    let w := h.msixWord ((off - 0xF0000) / 8 * 8)
    (if half then bits w (32 * (off / 4 % 2) + 31) (32 * (off / 4 % 2)) else w, h)
  else if off = 0xF8000 then (((List.range 64).map (fun k => ofBool (h.vecPending k) <<< k)).foldl (· + ·) 0, h)
  else match findReg .bar0 off with
    | some (r, ix) => (h.view r 0 ix, h)
    | none => (0, h)

/-- REGISTER_WRITE (R516): by a clerk, a slip or the boot ROM in the internal address space; by the host in BAR0, where `half` says
that the access is of 32 bits. -/
def execRegisterWrite (o : Originator) (addr : BitVec 40) (v : BusData) (s : State) :
    Host.Outcome State Fault Refusal :=
  onTx (fun h =>
    match o with
    | .bar0 => if addr.toNat < 2 ^ 20 then (h.bar0Write addr.toNat v.word.toNat v.half).watch else h
    | _ => h.registerWrite o addr.toNat v.word.toNat) s

/-! ### Clock monitors (R460) and resets (R474, R475) -/

/-- The bits of PW_CLKMON that a condition of CLOCK_MONITOR_FAULT can be: a derived clock, or CORE_REFCLK. -/
def clockBit (b : Nat) : Bool := decide (b < 6) || b == 8

/-- A derived clock off nominal, or CORE_REFCLK absent: transmit enable is removed at once, and the CLOCK alarm is raised. -/
def Hw.clockFault (h : Hw) (b : Nat) : Hw :=
  let h := h.setVal .PW_CLKMON (h.val .PW_CLKMON ||| 2 ^ b)
  ((h.raise 0x010 8).pwEvent 6).deviceHold.zeroize 3

/-- CLOCK_MONITOR_FAULT (R460). -/
def execClockMonitorFault (bit : Fin 9) (s : State) : Host.Outcome State Fault Refusal :=
  guarded (clockBit bit) (onTx (fun h => h.clockFault bit) s)

/-- A reference of the SerDes lost: the lanes served lose lock, and their ports leave UP (R69). -/
def Hw.refLoss (h : Hw) (k : Nat) : Hw :=
  let n := k / 3
  let h := ((h.setBit .SD_REFSTAT_lost (k % 3) 0 n).wr .SD_REFSTAT_present (setBits (h.rd .SD_REFSTAT_present 0 n) (k % 3) (k % 3) 0)
    0 n).raise 0x011 n
  let lanes := (List.range 32).map (32 * k + ·)
  let ports := (lanes.filterMap h.portOf).eraseDups
  let h := h.over ports (fun h p => h.signalLoss p true (h.midFrame p))
  (h.over lanes (fun h l => (h.wr .SD_LANESTAT_pll_lock 0 (l % 96) n).wr .SD_LANESTAT_cdr_lock 0 (l % 96) n)).pwEvent 6

/-- SD_REFCLK_LOSS (R460). -/
def execSdRefclkLoss (k : Fin 24) (s : State) : Host.Outcome State Fault Refusal := onTx (fun h => h.refLoss k) s

/-- PCIE_REFCLK_LOSS (R460): the PCIe link goes down, with the endpoint reset of R408. -/
def execPcieRefclkLoss (s : State) : Host.Outcome State Fault Refusal :=
  onHw (fun h => (((h.wr .PW_CLKMON_pcie_refclk 1).raise 0x013 8).pwEvent 6).endpointReset) s

/-- PERST_N (R475). -/
def execPerstN (s : State) : Host.Outcome State Fault Refusal := onHw Hw.endpointReset s

/-- POWER_ON (R474). -/
def execPowerOn (s : State) : Host.Outcome State Fault Refusal := onDev (fun d => d.reset 0) s

end Sys2Proof.Machine
end

