-- ==== Sys2Proof/Machine/Upsets.lean ====
section
/-! DEFINITION. Hardware faults in stored bits and the checks that find them: the location that each folded check covers, when a
check misses a change, and what is left marked for the next access (spec/14_check_value_units.md, R333 to R337; R29, R56 of 02; R107
of 04; R159 of 06; R218 of 09; R250, R252, R253 of 10; R281 of 11; R296 of 12; R326 of 13; R369 of 16; R416 of 18). Log entry 15. -/

namespace Sys2Proof.Machine

/-- How the words of a register, array or store are guarded: by nothing that the manual names; by a check that stands in the words
themselves, or a second copy that is compared word for word; by copies whose disagreement is what is found; or by a folded check kept
beside the words, with its polynomial, structure code and location. -/
inductive Guard
  | none
  | inside
  | copies
  | folded (k : CrcKind) (code loc : Nat)
  deriving DecidableEq, Repr

/-- The offset of an instance from the first, under dimensions (count, stride). -/
def dimOffset : List (Nat × Nat) → Nat → Nat
  | [], _ => 0
  | (_, st) :: r, i =>
    let w := (r.map (·.1)).foldl (· * ·) 1
    i / w * st + dimOffset r (i % w)

/-- The offset of a register in its block over 8, as locations count it (R337): `base` is the block's. -/
def wordOffset (r : Reg) (base : Nat) : Nat := ((regRow r.name).off - base + dimOffset (regRow r.name).dims r.ix) / 8

/-- The location of a microword, nano-word word or SE word (R337): bank, engine, offset. -/
def storeLoc (r : Reg) (base engine : Nat) : Nat := (r.bank % 2) <<< 40 + engine <<< 32 + wordOffset r base

/-- The location of a key copy (R337): kind, generation, slot. -/
def Hw.keyLoc (h : Hw) (kind slot : Nat) : Nat := kind <<< 32 + h.rd (keyGen kind) slot <<< 16 + slot

/-- How a word is guarded, with the codes and locations of R337. -/
def Hw.guardOf (h : Hw) (r : Reg) : Guard :=
  match r.name with
  | .PA_STATE0 | .PA_TRANS0 => .folded crc16 0x10 ((r.bank % 2) <<< 32 + wordOffset r 0x200000)
  | .SE_KEYPROF => .folded crc16 0x11 (storeLoc r 0x300000 (r.ix / 192))
  | .SE_ENTRY => .folded crc16 0x11 (storeLoc r 0x300000 r.ix)
  | .SE_REFBASE => .folded crc16 0x11 (storeLoc r 0x300000 0)
  | .NS_UW => .folded crc16 0x11 (storeLoc r 0x400000 (r.ix / 2048))
  | .NS_NW => .folded crc16 0x11 (storeLoc r 0x400000 (r.ix / 8192))
  | .MC_UW => .folded crc16 0x11 ((16 + r.ix / 2048) <<< 32 + wordOffset r 0xC00000)
  | .MC_NW => .folded crc16 0x11 ((16 + r.ix / 8192) <<< 32 + wordOffset r 0xC00000)
  | .A_FREEZE => .folded crc16 0x13 (r.sl <<< 16 + r.ix)
  | .FC_POLICY => .folded crc16 0x14 r.ix
  | .A_STAMP => .folded crc16 0x29 r.ix
  | .A_POL0 => .folded crc16 0x35 r.ix
  | .TM_GCL => .folded crc16 0x36 ((r.ix / 2048) <<< 32 + (r.ix / 1024 % 2) <<< 16 + r.ix % 1024)
  | .TM_CAL => .folded crc16 0x37 ((r.ix / 23) <<< 8 + r.ix % 23)
  | .A_SAK => .folded crc32c 0x50 (h.keyLoc 0 r.ix)
  | .A_SEAL => .folded crc32c 0x50 (h.keyLoc 1 r.ix)
  | .A_KEK => .folded crc32c 0x50 (h.keyLoc 2 r.ix)
  | .A_REACH | .EV_SRC | .PT_GMODE => .copies
  | .A_TC | .A_EX | .A_ROOT | .A_SLOT | .A_LEAF | .A_CO | .A_CLV | .A_CLM | .A_CLA0 | .A_CLA1 | .A_GCW | .A_GCA
  | .CS_PERMIT => .inside
  | _ => .none

/-- The words that the check of a word's structure covers, the word named first. -/
def Reg.covered (r : Reg) : List Reg :=
  match r.name with
  | .PA_STATE0 => paStateNames.map (fun n => { r with name := n })
  | .PA_TRANS0 => paTransNames.map (fun n => { r with name := n })
  | .A_POL0 => [.A_POL0, .A_POL1, .A_POL2, .A_POLC, .A_POLE].map (fun n => { r with name := n })
  | .A_SAK | .A_SEAL | .A_KEK => if r.bank = 2 then [] else (List.range 4).map (fun w => { r with ix := 4 * r.ix + w })
  | .A_FREEZE | .A_REACH | .EV_SRC | .PT_GMODE => []
  | _ => [r]

/-- Whether a folded check misses a change: the check of the changed words at the location delivered differs from that of the words
addressed by exactly the change of the stored check. The checks of R332 are affine, so the words themselves do not matter. -/
def flipMissed (f : Flip) (k : CrcKind) (code loc : Nat) : Bool :=
  let fed := f.words.flatMap (fun w => beBytes 8 w.toNat)
  crcFold k code (loc ^^^ f.loc.toNat) fed ^^^ crcFold k code loc (List.replicate fed.length 0#8) == f.check.toNat

/-- A register word with bits changed. -/
def Hw.flipReg (h : Hw) (r : Reg) (w : BitVec 64) : Hw := h.setReg r (h.reg r ^^^ w)

/-- The words of a structure changed, the first words of the change to the first words of the structure. -/
def Hw.flipWords (h : Hw) (r : Reg) (f : Flip) : Hw := h.over (r.covered.zip f.words) (fun h e => h.flipReg e.1 e.2)

/-- A word struck: its bits change, and what its guard would find is marked for the next access. -/
def Hw.strikeWord (h : Hw) (r : Reg) (f : Flip) : Hw :=
  match h.guardOf r with
  | .none => h
  | .inside => h.flipWords r f
  | .copies => if f.words.all (· == 0) then h else h.mark r true
  | .folded k code loc => if flipMissed f k code loc then h.flipWords r f else (h.flipWords r f).mark r true

/-! ### Structures of the buffers and queues (R252, R253, R281) -/

/-- The 112 bits of a descriptor above its check (R253), as two words of 64 and 48 bits. -/
def Desc.words (d : Desc) : Nat × Nat :=
  let hi := d.buffer <<< 47 + d.len <<< 33 + d.tag <<< 17 + d.tenant <<< 1 + d.tcheck / 2 ^ 15
  let lo := (d.tcheck % 2 ^ 15) <<< 33 + d.ed <<< 32 + d.port <<< 22 + d.queue <<< 18 + d.colour <<< 16
    + ofBool d.early <<< 15 + ofBool d.replica <<< 14
  (hi, lo)

/-- The descriptor that the words spell. -/
def Desc.ofWords (hi lo : Nat) (good : Bool) : Desc :=
  ⟨bits hi 63 47, bits hi 46 33, bits hi 32 17, bits hi 16 1, bits hi 0 0 * 2 ^ 15 + bits lo 47 33, bits lo 32 32, bits lo 31 22,
    bits lo 21 18, bits lo 17 16, bit lo 15, bit lo 14, good⟩

/-- Whether a structure's check misses a change, its location within a slice. -/
def flipMissed16 (f : Flip) (code loc : Nat) : Bool := flipMissed f crc16 code loc

/-- A descriptor struck: its fields change, and its check may fail (R253). Bits [111:64] of the change lie in the top of its second
word. -/
def Desc.strike (d : Desc) (f : Flip) : Desc :=
  let (hi, lo) := d.words
  let w (i : Nat) : Nat := (nth f.words i 0#64).toNat
  Desc.ofWords (hi ^^^ w 0) (lo ^^^ (w 1 >>> 16)) (d.good && flipMissed16 f 0x33 d.buffer)

/-- A word of a pool's bitmap struck (R252): a leaf word whose check misses the change reads its new bits. -/
def PoolSt.strikeBitmap (p : PoolSt) (d bank word : Nat) (f : Flip) : PoolSt :=
  if flipMissed16 f 0x32 (d <<< 32 + bank <<< 16 + word) then
    if word = summaryWord then p
    else
      let turned := ((List.range 64).filter (fun k => bit (nth f.words 0 0#64).toNat k)).map
        (fun k => bufNo d (8 * (64 * word + k) + bank))
      { p with taken := p.taken.filter (fun b => !turned.contains b) ++ turned.filter (fun b => !p.taken.contains b) }
  else if p.badWords.contains (d, bank, word) then p
  else { p with badWords := p.badWords ++ [(d, bank, word)] }

/-- An owner record struck (R252). -/
def PoolSt.strikeOwner (p : PoolSt) (b : Nat) (f : Flip) : PoolSt :=
  if flipMissed16 f 0x31 b || p.badRecs.contains b then p else { p with badRecs := b :: p.badRecs }

/-! ### Upsets -/

/-- The register that an upset of a word strikes: a device-wide word lies in no slice. -/
def upsetReg (name : RegName) (sl bank ix : Nat) : Reg :=
  let wide := (regRow name).shared || [.A_STAMP, .A_POL0, .A_SAK, .A_SEAL, .A_KEK].contains name
  ⟨name, if wide then 0 else sl, bank, ix⟩

/-- One upset. -/
def Hw.upset (h : Hw) (u : Upset) : Hw :=
  match u with
  | .word name sl bank ix f => h.strikeWord (upsetReg name sl bank ix) f
  | .drain n b c f =>
    let i := drainIx n b c
    { h with ed := { h.ed with parts := setNth h.ed.parts i (nth h.ed.parts i 0 ^^^ f.toNat) } }
  | .bitmap n d bank word f => h.setPool n ((h.pool n).strikeBitmap d bank word f)
  | .owner n b f => h.setPool n ((h.pool n).strikeOwner b.toNat f)
  | .desc n q copy f => h.updCopy n q copy (fun c => { c with desc := c.desc.strike f })
  | .link n q copy f => h.updCopy n q copy (fun c => { c with linkOk := c.linkOk && flipMissed16 f 0x34 copy })
  | .account n q occ cnt =>
    let x := h.queue n q
    h.setQueue n q { x with occ := x.occ ^^^ occ.toNat, cnt := x.cnt ^^^ cnt.toNat }
  | .tally parity copy i f =>
    let strike (l : List (List Nat)) : List (List Nat) :=
      let t := nth l parity tallyZero
      setNth l parity (setNth t i (nth t i 0 ^^^ f.toNat))
    { h with lg := if copy.val = 0 then { h.lg with tallyA := strike h.lg.tallyA } else { h.lg with tallyB := strike h.lg.tallyB } }

/-- An upset of the device: copies of a lane map that disagree squelch their lanes at once (R85). -/
def Dev.upset (d : Dev) (u : Upset) : Dev :=
  match u with
  | .word .PT_GMODE sl _ ix f => if f.words.all (· == 0) then d else d.mapSplit sl ix
  | u => { d with hw := d.hw.upset u }

/-- Whether an upset strikes a partial drain count. -/
def upsetIsDrain : Upset → Bool
  | .drain _ _ _ _ => true
  | _ => false

/-- Upsets that the device finds at once: partial counts whose copies disagree (R218), event sources (R416). -/
def Hw.audit (h : Hw) (ups : List Upset) : Hw :=
  if ups.isEmpty then h else (if ups.any upsetIsDrain then (h.drainCopies 0).drainCopies 1 else h).watch

/-- Instances of a register or array that an upset can strike. -/
def wordCount (name : RegName) : Nat :=
  match name with
  | .A_TC | .A_EX => 2097152
  | .A_ROOT => 262144
  | .A_SLOT => 4194304
  | .A_LEAF => 4194304
  | .A_CO => 524288
  | .A_CLV | .A_CLM => 327680
  | .A_CLA0 | .A_CLA1 => 32768
  | .A_GCW | .A_GCA => 65536
  | .A_STAMP => 1048576
  | .A_POL0 => 131072
  | .A_SAK => 8192
  | .A_SEAL | .A_KEK => 16
  | .A_FREEZE => 1037
  | .A_REACH => 4096
  | n => ((regRow n).dims.map (·.1)).foldl (· * ·) 1

/-- Whether a word has a copy or bank of a number: banks 0 and 1 and their second copies 2 and 3, the copies of a clerk's store 0 and
2, a second copy 1, a key's master, shadow and cache. -/
def hasBank (name : RegName) (bank : Nat) : Bool :=
  if paStateNames.contains name || paTransNames.contains name || seBanked.contains name then true
  else if name = .MC_UW ∨ name = .MC_NW then bank % 2 == 0
  else if name = .EV_SRC ∨ name = .CS_PERMIT then decide (bank < 2)
  else if name = .A_SAK then decide (bank < 3)
  else if name = .A_SEAL ∨ name = .A_KEK then bank == 0
  else bank == 0

/-- Whether an upset strikes bits that the device has. -/
def upsetOk (u : Upset) : Bool :=
  match u with
  | .word name _ bank ix _ =>
    Hw.reset.guardOf ⟨name, 0, 0, 0⟩ != .none && hasBank name bank && decide (ix < wordCount name)
  | _ => true

/-- The device after hardware faults have struck stored bits. -/
def Dev.struck (d : Dev) (ups : List Upset) : Dev :=
  let d := ups.foldl Dev.upset d
  { d with hw := d.hw.audit ups }

/-- FAULT_RECORD (R45): the hardware faults that have struck in the meantime leave their marks, and the oldest record of the origin
reaches the collector. -/
def execFaultRecord (e : FaultEvent) (s : State) : Host.Outcome State Fault Refusal :=
  guarded (e.upsets.all upsetOk) (onTx (fun h => h.collectOldest e.origin) { s with dev := s.dev.struck e.upsets })

end Sys2Proof.Machine
end

