-- ==== Sys2Proof/Machine/Dispatch.lean ====
section
/-! DEFINITION. The meaning of every command: one arm per row of spec/opcode_table.json. -/

namespace Sys2Proof.Machine

/-- The effect of a command on everything but the queue of commands. -/
def exec (i : Instr) (s : State) : Host.Outcome State Fault Refusal :=
  match i with
  | .rxFrame p start bytes err full => Sys2Proof.Machine.execRxFrame p start bytes err full s
  | .earlyRelease p head full => Sys2Proof.Machine.execEarlyRelease p head full s
  | .tailStatus p rest err => Sys2Proof.Machine.execTailStatus p rest err s
  | .rxWatchdog p arrived => Sys2Proof.Machine.execRxWatchdog p arrived s
  | .gmodeWrite n g v copiesAgree => Sys2Proof.Machine.execGmodeWrite n g v copiesAgree s
  | .portEnable p v => Sys2Proof.Machine.execPortEnable p v s
  | .portDisable p v => Sys2Proof.Machine.execPortDisable p v s
  | .partnerPresent p => Sys2Proof.Machine.execPartnerPresent p s
  | .partnerLost p => Sys2Proof.Machine.execPartnerLost p s
  | .signalLoss p alignLost arrived => Sys2Proof.Machine.execSignalLoss p alignLost arrived s
  | .anComplete p code lp => Sys2Proof.Machine.execAnComplete p code lp s
  | .trainDone p => Sys2Proof.Machine.execTrainDone p s
  | .trainFail p => Sys2Proof.Machine.execTrainFail p s
  | .alignLock p => Sys2Proof.Machine.execAlignLock p s
  | .linkUp p => Sys2Proof.Machine.execLinkUp p s
  | .linkDown p => Sys2Proof.Machine.execLinkDown p s
  | .localFault p => Sys2Proof.Machine.execLocalFault p s
  | .remoteFault p => Sys2Proof.Machine.execRemoteFault p s
  | .fecWindow p codewords symbols => Sys2Proof.Machine.execFecWindow p codewords symbols s
  | .prbsGo l v => Sys2Proof.Machine.execPrbsGo l v s
  | .prbsStop l v => Sys2Proof.Machine.execPrbsStop l v s
  | .txFrameStart p cond => Sys2Proof.Machine.execTxFrameStart p cond s
  | .txFrameEnd p => Sys2Proof.Machine.execTxFrameEnd p s
  | .secyFrameEnd p => Sys2Proof.Machine.execSecyFrameEnd p s
  | .parserAdmit n pipe src flt => Sys2Proof.Machine.execParserAdmit n pipe src flt s
  | .paBankedWrite n off v => Sys2Proof.Machine.execPaBankedWrite n off v s
  | .paBankcopy n => Sys2Proof.Machine.execPaBankcopy n s
  | .paBankcopyDone n => Sys2Proof.Machine.execPaBankcopyDone n s
  | .paScrub n => Sys2Proof.Machine.execPaScrub n s
  | .stageRoutineStart n c => Sys2Proof.Machine.execStageRoutineStart n c s
  | .stageNanoWord n c => Sys2Proof.Machine.execStageNanoWord n c s
  | .beatLimit n c => Sys2Proof.Machine.execBeatLimit n c s
  | .tcLookup n c => Sys2Proof.Machine.execTcLookup n c s
  | .gcLookup n c => Sys2Proof.Machine.execGcLookup n c s
  | .clLookup n c => Sys2Proof.Machine.execClLookup n c s
  | .lpLookup n c => Sys2Proof.Machine.execLpLookup n c s
  | .exLookup n c => Sys2Proof.Machine.execExLookup n c s
  | .hxLookup n c => Sys2Proof.Machine.execHxLookup n c s
  | .stageFix n c checkOk => Sys2Proof.Machine.execStageFix n c checkOk s
  | .countersign n c agree => Sys2Proof.Machine.execCountersign n c agree s
  | .pcntRead n => Sys2Proof.Machine.execPcntRead n s
  | .pcntReadClear n => Sys2Proof.Machine.execPcntReadClear n s
  | .pcntClear n => Sys2Proof.Machine.execPcntClear n s
  | .nanoWordStage n e x w v => Sys2Proof.Machine.execNanoWordStage n e x w v s
  | .nanoWordCommit n e x v => Sys2Proof.Machine.execNanoWordCommit n e x v s
  | .microwordWrite n e a v => Sys2Proof.Machine.execMicrowordWrite n e a v s
  | .seBankedWrite n off v => Sys2Proof.Machine.execSeBankedWrite n off v s
  | .seBankcopy n => Sys2Proof.Machine.execSeBankcopy n s
  | .seBankcopyDone n => Sys2Proof.Machine.execSeBankcopyDone n s
  | .seScrub n => Sys2Proof.Machine.execSeScrub n s
  | .recircPick n pipe => Sys2Proof.Machine.execRecircPick n pipe s
  | .clRead n => Sys2Proof.Machine.execClRead n s
  | .clWrite n => Sys2Proof.Machine.execClWrite n s
  | .clInvalidate n => Sys2Proof.Machine.execClInvalidate n s
  | .clEdbits n ed => Sys2Proof.Machine.execClEdbits n ed s
  | .clMove n => Sys2Proof.Machine.execClMove n s
  | .clCmdDone n => Sys2Proof.Machine.execClCmdDone n s
  | .gcRead n v => Sys2Proof.Machine.execGcRead n v s
  | .gcWrite n halfB v => Sys2Proof.Machine.execGcWrite n halfB v s
  | .gcInvalidate n halfB v => Sys2Proof.Machine.execGcInvalidate n halfB v s
  | .gcEdbits n halfB v => Sys2Proof.Machine.execGcEdbits n halfB v s
  | .gcCmdDone n => Sys2Proof.Machine.execGcCmdDone n s
  | .clScrub n => Sys2Proof.Machine.execClScrub n s
  | .gcScrub n => Sys2Proof.Machine.execGcScrub n s
  | .clGcBankedWrite n gc off v => Sys2Proof.Machine.execClGcBankedWrite n gc off v s
  | .ftRead n => Sys2Proof.Machine.execFtRead n s
  | .ftWrite n replicas => Sys2Proof.Machine.execFtWrite n replicas s
  | .ftCmdDone n => Sys2Proof.Machine.execFtCmdDone n s
  | .ftSync n v => Sys2Proof.Machine.execFtSync n v s
  | .ftSyncDone n => Sys2Proof.Machine.execFtSyncDone n s
  | .lpFence n replicas => Sys2Proof.Machine.execLpFence n replicas s
  | .lpFenceDone n => Sys2Proof.Machine.execLpFenceDone n s
  | .ftScrub n => Sys2Proof.Machine.execFtScrub n s
  | .ftBankedWrite n off v => Sys2Proof.Machine.execFtBankedWrite n off v s
  | .hxRead n => Sys2Proof.Machine.execHxRead n s
  | .hxWrite n => Sys2Proof.Machine.execHxWrite n s
  | .learnRequest => Sys2Proof.Machine.execLearnRequest s
  | .chRequestProcess => Sys2Proof.Machine.execChRequestProcess s
  | .chLookup sub => Sys2Proof.Machine.execChLookup sub s
  | .chInsert sub => Sys2Proof.Machine.execChInsert sub s
  | .chDelete sub => Sys2Proof.Machine.execChDelete sub s
  | .chClearContested sub => Sys2Proof.Machine.execChClearContested sub s
  | .chSetEd sub => Sys2Proof.Machine.execChSetEd sub s
  | .agingScan j => Sys2Proof.Machine.execAgingScan j s
  | .chRingWrite v => Sys2Proof.Machine.execChRingWrite v s
  | .edFlip => Sys2Proof.Machine.execEdFlip s
  | .edClose => Sys2Proof.Machine.execEdClose s
  | .edForceClose => Sys2Proof.Machine.execEdForceClose s
  | .forceCloseZeroCounts => Sys2Proof.Machine.execForceCloseZeroCounts s
  | .editionClose => Sys2Proof.Machine.execEditionClose s
  | .drainMarkerRx p b => Sys2Proof.Machine.execDrainMarkerRx p b s
  | .markerWaitTimeout => Sys2Proof.Machine.execMarkerWaitTimeout s
  | .drainSlow => Sys2Proof.Machine.execDrainSlow s
  | .placesGrant f => Sys2Proof.Machine.execPlacesGrant f s
  | .xbHold f => Sys2Proof.Machine.execXbHold f s
  | .fillerCell src pipe dst => Sys2Proof.Machine.execFillerCell src pipe dst s
  | .cellArrival src pipe dst seq checkOk => Sys2Proof.Machine.execCellArrival src pipe dst seq checkOk s
  | .reseqTimeout src pipe dst => Sys2Proof.Machine.execReseqTimeout src pipe dst s
  | .lossNotice src => Sys2Proof.Machine.execLossNotice src s
  | .releaseAck src => Sys2Proof.Machine.execReleaseAck src s
  | .planeRestore v => Sys2Proof.Machine.execPlaneRestore v s
  | .planeRestoreDone plane pass => Sys2Proof.Machine.execPlaneRestoreDone plane pass s
  | .allocRequest n t => Sys2Proof.Machine.execAllocRequest n t s
  | .bufferFree n => Sys2Proof.Machine.execBufferFree n s
  | .bpCarveWrite n v => Sys2Proof.Machine.execBpCarveWrite n v s
  | .poolAccountCheck n => Sys2Proof.Machine.execPoolAccountCheck n s
  | .copyVisible n c => Sys2Proof.Machine.execCopyVisible n c s
  | .schedulerPick p pipe => Sys2Proof.Machine.execSchedulerPick p pipe s
  | .spillWrite n c => Sys2Proof.Machine.execSpillWrite n c s
  | .drainBlockRead n q => Sys2Proof.Machine.execDrainBlockRead n q s
  | .drainBlockArrived n q => Sys2Proof.Machine.execDrainBlockArrived n q s
  | .gclGo p v => Sys2Proof.Machine.execGclGo p v s
  | .gclSwitch p => Sys2Proof.Machine.execGclSwitch p s
  | .gateEntryAdvance p => Sys2Proof.Machine.execGateEntryAdvance p s
  | .queueAgeScan n => Sys2Proof.Machine.execQueueAgeScan n s
  | .queueAccountCheck n => Sys2Proof.Machine.execQueueAccountCheck n s
  | .polRead n => Sys2Proof.Machine.execPolRead n s
  | .polWrite n => Sys2Proof.Machine.execPolWrite n s
  | .polReset n => Sys2Proof.Machine.execPolReset n s
  | .minuteMark => Sys2Proof.Machine.execMinuteMark s
  | .settleEnd => Sys2Proof.Machine.execSettleEnd s
  | .bookClose => Sys2Proof.Machine.execBookClose s
  | .folioPlace => Sys2Proof.Machine.execFolioPlace s
  | .ledgerUpdate checkOk => Sys2Proof.Machine.execLedgerUpdate checkOk s
  | .lgEnable v => Sys2Proof.Machine.execLgEnable v s
  | .lgDisable v => Sys2Proof.Machine.execLgDisable v s
  | .lgArm v => Sys2Proof.Machine.execLgArm v s
  | .lgSettleEnd => Sys2Proof.Machine.execLgSettleEnd s
  | .lastGaspSend k => Sys2Proof.Machine.execLastGaspSend k s
  | .witnessWaitTimeout => Sys2Proof.Machine.execWitnessWaitTimeout s
  | .saBind p => Sys2Proof.Machine.execSaBind p s
  | .saMapWrite p rx v => Sys2Proof.Machine.execSaMapWrite p rx v s
  | .pnWrite a v => Sys2Proof.Machine.execPnWrite a v s
  | .keyImport v => Sys2Proof.Machine.execKeyImport v s
  | .keyImportDone => Sys2Proof.Machine.execKeyImportDone s
  | .shadowRelease a => Sys2Proof.Machine.execShadowRelease a s
  | .keyErase v => Sys2Proof.Machine.execKeyErase v s
  | .eraseVerified => Sys2Proof.Machine.execEraseVerified s
  | .zeroize src => Sys2Proof.Machine.execZeroize src s
  | .zeroizeVerify ok => Sys2Proof.Machine.execZeroizeVerify ok s
  | .keyScrub => Sys2Proof.Machine.execKeyScrub s
  | .rngHealthFail => Sys2Proof.Machine.execRngHealthFail s
  | .ckClaim c u v => Sys2Proof.Machine.execCkClaim c u v s
  | .ckRelease c u v => Sys2Proof.Machine.execCkRelease c u v s
  | .ckWindowWrite c u v => Sys2Proof.Machine.execCkWindowWrite c u v s
  | .ckStart c u => Sys2Proof.Machine.execCkStart c u s
  | .ckTail c u count => Sys2Proof.Machine.execCkTail c u count s
  | .ckFold c u code => Sys2Proof.Machine.execCkFold c u code s
  | .ckCompare c u agree => Sys2Proof.Machine.execCkCompare c u agree s
  | .stackSetState h v => Sys2Proof.Machine.execStackSetState h v s
  | .stackRetrain h v => Sys2Proof.Machine.execStackRetrain h v s
  | .stackCmdDone h trained => Sys2Proof.Machine.execStackCmdDone h trained s
  | .hbmRequest r => Sys2Proof.Machine.execHbmRequest r s
  | .hbmBurstIssue h pc corr uncorr => Sys2Proof.Machine.execHbmBurstIssue h pc corr uncorr s
  | .refreshInterval h => Sys2Proof.Machine.execRefreshInterval h s
  | .starvePick h pc => Sys2Proof.Machine.execStarvePick h pc s
  | .patrol h corr uncorr => Sys2Proof.Machine.execPatrol h corr uncorr s
  | .marginLow h margin => Sys2Proof.Machine.execMarginLow h margin s
  | .hmDbWrite n v => Sys2Proof.Machine.execHmDbWrite n v s
  | .purgeWalk n q => Sys2Proof.Machine.execPurgeWalk n q s
  | .dbAccountCheck n => Sys2Proof.Machine.execDbAccountCheck n s
  | .hmErrlogClear v => Sys2Proof.Machine.execHmErrlogClear v s
  | .clerkNanoWord c => Sys2Proof.Machine.execClerkNanoWord c s
  | .clerkLoadReturn c => Sys2Proof.Machine.execClerkLoadReturn c s
  | .blockWord c => Sys2Proof.Machine.execBlockWord c s
  | .clerkHalt c => Sys2Proof.Machine.execClerkHalt c s
  | .clerkStart c => Sys2Proof.Machine.execClerkStart c s
  | .clerkReset c => Sys2Proof.Machine.execClerkReset c s
  | .clerkTaskWake c => Sys2Proof.Machine.execClerkTaskWake c s
  | .clerkKick c => Sys2Proof.Machine.execClerkKick c s
  | .clerkWatchdog c => Sys2Proof.Machine.execClerkWatchdog c s
  | .clerkStoreWrite off v => Sys2Proof.Machine.execClerkStoreWrite off v s
  | .rxRingConfig c tx v => Sys2Proof.Machine.execRxRingConfig c tx v s
  | .puntArrival => Sys2Proof.Machine.execPuntArrival s
  | .clerkInject c n pipe => Sys2Proof.Machine.execClerkInject c n pipe s
  | .clerkDirect c => Sys2Proof.Machine.execClerkDirect c s
  | .bootStart straps => Sys2Proof.Machine.execBootStart straps s
  | .bootSourceDone image => Sys2Proof.Machine.execBootSourceDone image s
  | .fuseRevoke o v => Sys2Proof.Machine.execFuseRevoke o v s
  | .fuseRaise o v => Sys2Proof.Machine.execFuseRaise o v s
  | .txwinPush v => Sys2Proof.Machine.execTxwinPush v s
  | .slipComplete => Sys2Proof.Machine.execSlipComplete s
  | .echo => Sys2Proof.Machine.execEcho s
  | .writeWords => Sys2Proof.Machine.execWriteWords s
  | .readWords => Sys2Proof.Machine.execReadWords s
  | .runProgram => Sys2Proof.Machine.execRunProgram s
  | .loadImage => Sys2Proof.Machine.execLoadImage s
  | .importKey => Sys2Proof.Machine.execImportKey s
  | .clerkBusy => Sys2Proof.Machine.execClerkBusy s
  | .slipIdleTimeout => Sys2Proof.Machine.execSlipIdleTimeout s
  | .resync => Sys2Proof.Machine.execResync s
  | .rxpop v => Sys2Proof.Machine.execRxpop v s
  | .receiptPlace => Sys2Proof.Machine.execReceiptPlace s
  | .clerkReceipt c v => Sys2Proof.Machine.execClerkReceipt c v s
  | .endpointReset => Sys2Proof.Machine.execEndpointReset s
  | .interruptEntry c => Sys2Proof.Machine.execInterruptEntry c s
  | .polledClaim c => Sys2Proof.Machine.execPolledClaim c s
  | .evDone c v => Sys2Proof.Machine.execEvDone c v s
  | .strandTimeout n => Sys2Proof.Machine.execStrandTimeout n s
  | .evSrcWrite n v => Sys2Proof.Machine.execEvSrcWrite n v s
  | .msixSend k => Sys2Proof.Machine.execMsixSend k s
  | .vectorUnmask k => Sys2Proof.Machine.execVectorUnmask k s
  | .evTimerExpiry c => Sys2Proof.Machine.execEvTimerExpiry c s
  | .softSet tgt v => Sys2Proof.Machine.execSoftSet tgt v s
  | .pmRun a v => Sys2Proof.Machine.execPmRun a v s
  | .cycClear a => Sys2Proof.Machine.execCycClear a s
  | .counterOverflow a k => Sys2Proof.Machine.execCounterOverflow a k s
  | .sampleCapture a => Sys2Proof.Machine.execSampleCapture a s
  | .sfMemberWrite v => Sys2Proof.Machine.execSfMemberWrite v s
  | .helloSend p => Sys2Proof.Machine.execHelloSend p s
  | .helloRx p bytes => Sys2Proof.Machine.execHelloRx p bytes s
  | .linkDead p => Sys2Proof.Machine.execLinkDead p s
  | .reachRead => Sys2Proof.Machine.execReachRead s
  | .reachWrite => Sys2Proof.Machine.execReachWrite s
  | .twinRecordSend => Sys2Proof.Machine.execTwinRecordSend s
  | .twinHeartbeat => Sys2Proof.Machine.execTwinHeartbeat s
  | .twinRecordRx p rec => Sys2Proof.Machine.execTwinRecordRx p rec s
  | .twinPartnerLost => Sys2Proof.Machine.execTwinPartnerLost s
  | .slicePowerCmd n v => Sys2Proof.Machine.execSlicePowerCmd n v s
  | .sliceTransitionDone n failed => Sys2Proof.Machine.execSliceTransitionDone n failed s
  | .quiesceTimeout n => Sys2Proof.Machine.execQuiesceTimeout n s
  | .lanePower l v => Sys2Proof.Machine.execLanePower l v s
  | .laneTransitionDone l => Sys2Proof.Machine.execLaneTransitionDone l s
  | .clerkPowerCmd c v => Sys2Proof.Machine.execClerkPowerCmd c v s
  | .clerkPowerDone c => Sys2Proof.Machine.execClerkPowerDone c s
  | .supplyAlarm rail die glitch => Sys2Proof.Machine.execSupplyAlarm rail die glitch s
  | .pwrFailN => Sys2Proof.Machine.execPwrFailN s
  | .thermalWarn d temp => Sys2Proof.Machine.execThermalWarn d temp s
  | .thermalCritical d temp => Sys2Proof.Machine.execThermalCritical d temp s
  | .resetN => Sys2Proof.Machine.execResetN s
  | .glResetArm o v => Sys2Proof.Machine.execGlResetArm o v s
  | .glResetGo o v => Sys2Proof.Machine.execGlResetGo o v s
  | .perstN => Sys2Proof.Machine.execPerstN s
  | .clockMonitorFault bit => Sys2Proof.Machine.execClockMonitorFault bit s
  | .sdRefclkLoss k => Sys2Proof.Machine.execSdRefclkLoss k s
  | .pcieRefclkLoss => Sys2Proof.Machine.execPcieRefclkLoss s
  | .tsClkLoss => Sys2Proof.Machine.execTsClkLoss s
  | .tbStep v => Sys2Proof.Machine.execTbStep v s
  | .tbSet v => Sys2Proof.Machine.execTbSet v s
  | .ppsIn => Sys2Proof.Machine.execPpsIn s
  | .todInMessage bytes => Sys2Proof.Machine.execTodInMessage bytes s
  | .ppsOut => Sys2Proof.Machine.execPpsOut s
  | .todOut => Sys2Proof.Machine.execTodOut s
  | .txtsPop => Sys2Proof.Machine.execTxtsPop s
  | .i2cBlockRead cmd => Sys2Proof.Machine.execI2cBlockRead cmd s
  | .i2cZeroize arg => Sys2Proof.Machine.execI2cZeroize arg s
  | .i2cHold arg => Sys2Proof.Machine.execI2cHold arg s
  | .i2cReset arg => Sys2Proof.Machine.execI2cReset arg s
  | .vrPoll k reading => Sys2Proof.Machine.execVrPoll k reading s
  | .jtagInstruction ir => Sys2Proof.Machine.execJtagInstruction ir s
  | .faultRecord origin => Sys2Proof.Machine.execFaultRecord origin s
  | .escWindowEnd => Sys2Proof.Machine.execEscWindowEnd s
  | .collectorWatchdog => Sys2Proof.Machine.execCollectorWatchdog s
  | .tenantFreeze t => Sys2Proof.Machine.execTenantFreeze t s
  | .tenantRelease t => Sys2Proof.Machine.execTenantRelease t s
  | .portFreeze p => Sys2Proof.Machine.execPortFreeze p s
  | .portRelease p => Sys2Proof.Machine.execPortRelease p s
  | .sliceFreeze n => Sys2Proof.Machine.execSliceFreeze n s
  | .sliceRelease n => Sys2Proof.Machine.execSliceRelease n s
  | .hold => Sys2Proof.Machine.execHold s
  | .fcInject v => Sys2Proof.Machine.execFcInject v s
  | .logPop => Sys2Proof.Machine.execLogPop s
  | .selftest v => Sys2Proof.Machine.execSelftest v s
  | .selftestDone n firstFail => Sys2Proof.Machine.execSelftestDone n firstFail s
  | .stripRotate n => Sys2Proof.Machine.execStripRotate n s
  | .stripStall n => Sys2Proof.Machine.execStripStall n s
  | .stripTestDone n fault => Sys2Proof.Machine.execStripTestDone n fault s
  | .coRead n => Sys2Proof.Machine.execCoRead n s
  | .coWrite n => Sys2Proof.Machine.execCoWrite n s
  | .coInvalidate n => Sys2Proof.Machine.execCoInvalidate n s
  | .coScrub n => Sys2Proof.Machine.execCoScrub n s
  | .registerWrite o addr v => Sys2Proof.Machine.execRegisterWrite o addr v s
  | .csPermitRead n a w => Sys2Proof.Machine.execCsPermitRead n a w s
  | .hostBadAccess => Sys2Proof.Machine.execHostBadAccess s
  | .rngHealthPass => Sys2Proof.Machine.execRngHealthPass s
  | .tsClkRelock => Sys2Proof.Machine.execTsClkRelock s
  | .faultClear p remote => Sys2Proof.Machine.execFaultClear p remote s
  | .powerOn => Sys2Proof.Machine.execPowerOn s
  | .msixFunctionControl enable mask busMaster => Sys2Proof.Machine.execMsixFunctionControl enable mask busMaster s

end Sys2Proof.Machine
end

