-- ==== Sys2Proof/Safety.lean ====
section
/-! DEFINITION. What the claims are said in: the state with its hardware changed, what must hold of every frame in the transmit
path, of the fuses, and what a command leaves alone. -/

namespace Sys2Proof.Machine

/-- The hardware of a state. -/
abbrev State.hw (s : State) : Hw := s.dev.hw

/-- The state with its hardware replaced: the transmit path, what a reset keeps and the queue of commands stand. -/
def State.setHw (s : State) (h : Hw) : State := { s with dev := { s.dev with hw := h } }

/-- The state with its device replaced: the queue of commands stands. -/
def State.setDev (s : State) (d : Dev) : State := { s with dev := d }

/-- The state with what waits for the transmit path taken by it. -/
def State.settle (s : State) : State := { s with dev := s.dev.settle }

/-- The state with other commands waiting. -/
def State.withPending (s : State) (q : List Instr) : State := { s with pending := q }

/-- Nothing waits to be told to the transmit path. -/
abbrev State.Settled (s : State) : Prop := s.dev.hw.notes = []

/-- Every frame of the transmit path has passed the delivery rule of R40. -/
def State.Lawful (s : State) : Prop := ∀ x ∈ s.dev.tx, x.ev.delivers = true

/-- What the fuses hold of an earlier state is still held (R387): no revoke fuse mends, the minimum version never falls. -/
def Perm.within (p q : Perm) : Prop := p.revoked &&& q.revoked = p.revoked ∧ p.minVersion.toNat ≤ q.minVersion.toNat

/-- Two states agree outside the hardware. -/
def State.SameOutside (s t : State) : Prop := t.dev.tx = s.dev.tx ∧ t.dev.perm = s.dev.perm ∧ t.pending = s.pending

end Sys2Proof.Machine
end

