-- ==== Sys2Proof/WellFormed.lean ====
section
/-! DEFINITION. Which commands are events of the device. The types of the operands bound most of them; the checks here are those
that no type makes. A command that fails its check is no event of the device: its meaning is the fault `illFormed`. -/

namespace Sys2Proof

open Sys2Proof.Machine

/-- Whether the operands of a command are those of an event of the device: an early head of 512 bytes (R78), an HBM request of one
granule (R346), a time-of-day message of 11 bytes (R479), a rail that its die uses (R470), a condition that the clock monitor has
(R475). -/
def Instr.wf (i : Instr) : Bool :=
  match i with
  | .rxFrame _ _ _ _ _ => true
  | .earlyRelease _ head _ => head.length == 512
  | .tailStatus _ _ _ => true
  | .rxWatchdog _ _ => true
  | .gmodeWrite _ _ _ _ => true
  | .portEnable _ _ => true
  | .portDisable _ _ => true
  | .partnerPresent _ => true
  | .partnerLost _ => true
  | .signalLoss _ _ _ => true
  | .anComplete _ _ _ => true
  | .trainDone _ => true
  | .trainFail _ => true
  | .alignLock _ => true
  | .linkUp _ => true
  | .linkDown _ => true
  | .localFault _ => true
  | .remoteFault _ => true
  | .fecWindow _ _ _ => true
  | .prbsGo _ _ => true
  | .prbsStop _ _ => true
  | .txFrameStart _ _ => true
  | .txFrameEnd _ => true
  | .secyFrameEnd _ => true
  | .parserAdmit _ _ _ _ => true
  | .paBankedWrite _ _ _ => true
  | .paBankcopy _ => true
  | .paBankcopyDone _ => true
  | .paScrub _ => true
  | .stageRoutineStart _ _ => true
  | .stageNanoWord _ _ => true
  | .beatLimit _ _ => true
  | .tcLookup _ _ => true
  | .gcLookup _ _ => true
  | .clLookup _ _ => true
  | .lpLookup _ _ => true
  | .exLookup _ _ => true
  | .hxLookup _ _ => true
  | .stageFix _ _ _ => true
  | .countersign _ _ _ => true
  | .pcntRead _ => true
  | .pcntReadClear _ => true
  | .pcntClear _ => true
  | .nanoWordStage _ _ _ _ _ => true
  | .nanoWordCommit _ _ _ _ => true
  | .microwordWrite _ _ _ _ => true
  | .seBankedWrite _ _ _ => true
  | .seBankcopy _ => true
  | .seBankcopyDone _ => true
  | .seScrub _ => true
  | .recircPick _ _ => true
  | .clRead _ => true
  | .clWrite _ => true
  | .clInvalidate _ => true
  | .clEdbits _ _ => true
  | .clMove _ => true
  | .clCmdDone _ => true
  | .gcRead _ _ => true
  | .gcWrite _ _ _ => true
  | .gcInvalidate _ _ _ => true
  | .gcEdbits _ _ _ => true
  | .gcCmdDone _ => true
  | .clScrub _ => true
  | .gcScrub _ => true
  | .clGcBankedWrite _ _ _ _ => true
  | .ftRead _ => true
  | .ftWrite _ _ => true
  | .ftCmdDone _ => true
  | .ftSync _ _ => true
  | .ftSyncDone _ => true
  | .lpFence _ _ => true
  | .lpFenceDone _ => true
  | .ftScrub _ => true
  | .ftBankedWrite _ _ _ => true
  | .hxRead _ => true
  | .hxWrite _ => true
  | .learnRequest => true
  | .chRequestProcess => true
  | .chLookup _ => true
  | .chInsert _ => true
  | .chDelete _ => true
  | .chClearContested _ => true
  | .chSetEd _ => true
  | .agingScan _ => true
  | .chRingWrite _ => true
  | .edFlip => true
  | .edClose => true
  | .edForceClose => true
  | .forceCloseZeroCounts => true
  | .editionClose => true
  | .drainMarkerRx _ _ => true
  | .markerWaitTimeout => true
  | .drainSlow => true
  | .placesGrant _ => true
  | .xbHold _ => true
  | .fillerCell _ _ _ => true
  | .cellArrival _ _ _ _ _ => true
  | .reseqTimeout _ _ _ => true
  | .lossNotice _ => true
  | .releaseAck _ => true
  | .planeRestore _ => true
  | .planeRestoreDone _ _ => true
  | .allocRequest _ _ => true
  | .bufferFree _ => true
  | .bpCarveWrite _ _ => true
  | .poolAccountCheck _ => true
  | .copyVisible _ _ => true
  | .schedulerPick _ _ => true
  | .spillWrite _ _ => true
  | .drainBlockRead _ _ => true
  | .drainBlockArrived _ _ => true
  | .gclGo _ _ => true
  | .gclSwitch _ => true
  | .gateEntryAdvance _ => true
  | .queueAgeScan _ => true
  | .queueAccountCheck _ => true
  | .polRead _ => true
  | .polWrite _ => true
  | .polReset _ => true
  | .minuteMark => true
  | .settleEnd => true
  | .bookClose => true
  | .folioPlace => true
  | .ledgerUpdate _ => true
  | .lgEnable _ => true
  | .lgDisable _ => true
  | .lgArm _ => true
  | .lgSettleEnd => true
  | .lastGaspSend _ => true
  | .witnessWaitTimeout => true
  | .saBind _ => true
  | .saMapWrite _ _ _ => true
  | .pnWrite _ _ => true
  | .keyImport _ => true
  | .keyImportDone => true
  | .shadowRelease _ => true
  | .keyErase _ => true
  | .eraseVerified => true
  | .zeroize _ => true
  | .zeroizeVerify _ => true
  | .keyScrub => true
  | .rngHealthFail => true
  | .ckClaim _ _ _ => true
  | .ckRelease _ _ _ => true
  | .ckWindowWrite _ _ _ => true
  | .ckStart _ _ => true
  | .ckTail _ _ _ => true
  | .ckFold _ _ _ => true
  | .ckCompare _ _ _ => true
  | .stackSetState _ _ => true
  | .stackRetrain _ _ => true
  | .stackCmdDone _ _ => true
  | .hbmRequest r => hbmOpOk r
  | .hbmBurstIssue _ _ _ _ => true
  | .refreshInterval _ => true
  | .starvePick _ _ => true
  | .patrol _ _ _ => true
  | .marginLow _ _ => true
  | .hmDbWrite _ _ => true
  | .purgeWalk _ _ => true
  | .dbAccountCheck _ => true
  | .hmErrlogClear _ => true
  | .clerkNanoWord _ => true
  | .clerkLoadReturn _ => true
  | .blockWord _ => true
  | .clerkHalt _ => true
  | .clerkStart _ => true
  | .clerkReset _ => true
  | .clerkTaskWake _ => true
  | .clerkKick _ => true
  | .clerkWatchdog _ => true
  | .clerkStoreWrite _ _ => true
  | .rxRingConfig _ _ _ => true
  | .puntArrival => true
  | .clerkInject _ _ _ => true
  | .clerkDirect _ => true
  | .bootStart _ => true
  | .bootSourceDone _ => true
  | .fuseRevoke _ _ => true
  | .fuseRaise _ _ => true
  | .txwinPush _ => true
  | .slipComplete => true
  | .echo => true
  | .writeWords => true
  | .readWords => true
  | .runProgram => true
  | .loadImage => true
  | .importKey => true
  | .clerkBusy => true
  | .slipIdleTimeout => true
  | .resync => true
  | .rxpop _ => true
  | .receiptPlace => true
  | .clerkReceipt _ _ => true
  | .endpointReset => true
  | .interruptEntry _ => true
  | .polledClaim _ => true
  | .evDone _ _ => true
  | .strandTimeout _ => true
  | .evSrcWrite _ _ => true
  | .msixSend _ => true
  | .vectorUnmask _ => true
  | .evTimerExpiry _ => true
  | .softSet _ _ => true
  | .pmRun _ _ => true
  | .cycClear _ => true
  | .counterOverflow _ _ => true
  | .sampleCapture _ => true
  | .sfMemberWrite _ => true
  | .helloSend _ => true
  | .helloRx _ _ => true
  | .linkDead _ => true
  | .reachRead => true
  | .reachWrite => true
  | .twinRecordSend => true
  | .twinHeartbeat => true
  | .twinRecordRx _ _ => true
  | .twinPartnerLost => true
  | .slicePowerCmd _ _ => true
  | .sliceTransitionDone _ _ => true
  | .quiesceTimeout _ => true
  | .lanePower _ _ => true
  | .laneTransitionDone _ => true
  | .clerkPowerCmd _ _ => true
  | .clerkPowerDone _ => true
  | .supplyAlarm rail die _ => railUsed rail die
  | .pwrFailN => true
  | .thermalWarn _ _ => true
  | .thermalCritical _ _ => true
  | .resetN => true
  | .glResetArm _ _ => true
  | .glResetGo _ _ => true
  | .perstN => true
  | .clockMonitorFault bit => clockBit bit
  | .sdRefclkLoss _ => true
  | .pcieRefclkLoss => true
  | .tsClkLoss => true
  | .tbStep _ => true
  | .tbSet _ => true
  | .ppsIn => true
  | .todInMessage bytes => bytes.length == 11
  | .ppsOut => true
  | .todOut => true
  | .txtsPop => true
  | .i2cBlockRead _ => true
  | .i2cZeroize _ => true
  | .i2cHold _ => true
  | .i2cReset _ => true
  | .vrPoll _ _ => true
  | .jtagInstruction _ => true
  | .faultRecord e => e.upsets.all upsetOk
  | .escWindowEnd => true
  | .collectorWatchdog => true
  | .tenantFreeze _ => true
  | .tenantRelease _ => true
  | .portFreeze _ => true
  | .portRelease _ => true
  | .sliceFreeze _ => true
  | .sliceRelease _ => true
  | .hold => true
  | .fcInject _ => true
  | .logPop => true
  | .selftest _ => true
  | .selftestDone _ _ => true
  | .stripRotate _ => true
  | .stripStall _ => true
  | .stripTestDone _ _ => true
  | .coRead _ => true
  | .coWrite _ => true
  | .coInvalidate _ => true
  | .coScrub _ => true
  | .registerWrite _ _ _ => true
  | .csPermitRead _ _ _ => true
  | .hostBadAccess => true
  | .rngHealthPass => true
  | .tsClkRelock => true
  | .faultClear _ _ => true
  | .powerOn => true
  | .msixFunctionControl _ _ _ => true

end Sys2Proof
end

