-- ==== Sys2Proof/Certificates/Slice0/Obligations.lean ====
section
/-! DEFINITION. The statements for the provers: what each command does, and what holds of the whole machine. -/

open Sys2Proof Sys2Proof.Machine

/-- What receiving a good frame, releasing one early, ending it and a silent sender do to a port that is UP (R73, R75, R76,
R78). -/
def Obligations.FrameReception : Prop :=
  (∀ (p : Port) (bytes : List Byte) (s : State), s.hw.link p = 5 → (s.hw.port p).cur = none →
    s.hw.on .CX_SECY_rx_en p = false → s.hw.rxStop p = none → bytes.length ≤ s.hw.cfg .PT_CFG_max_len p →
    macTail bytes = none →
    exec (.rxFrame p true bytes .good false) s = .next (s.setHw
      ((({ s.hw with ids := s.hw.ids + 1 } : Hw).rxOk p bytes.length).setPort p
        { s.hw.port p with orphan := false, fifo := (s.hw.port p).fifo ++ [⟨s.hw.ids, s.hw.now, bytes, false, some 0, none⟩] })).settle) ∧
  (∀ (p : Port) (head : List Byte) (s : State), head.length = 512 → s.hw.link p = 5 → (s.hw.port p).cur = none →
    s.hw.cfg .PT_CFG_ct_enable p = 1 → s.hw.on .CX_SECY_rx_en p = false → 512 < s.hw.cfg .PT_CFG_max_len p →
    s.hw.rxStop p = none →
    exec (.earlyRelease p head false) s = .next (s.setHw
      (({ s.hw with ids := s.hw.ids + 1 } : Hw).setPort p
        { s.hw.port p with orphan := false, cur := some (s.hw.ids, head), fifo := (s.hw.port p).fifo ++
          [⟨s.hw.ids, s.hw.now, head, true, none, none⟩] })).settle) ∧
  (∀ (p : Port) (fid : Nat) (head rest : List Byte) (s : State), (s.hw.port p).cur = some (fid, head) →
    (head ++ rest).length ≤ s.hw.cfg .PT_CFG_max_len p → macTail (head ++ rest) = none →
    exec (.tailStatus p rest .good) s = .next (s.setHw
      (((s.hw.setPort p { s.hw.port p with cur := none, orphan := false }).rxOk p (head ++ rest).length).giveTail fid
        (head ++ rest) 0)).settle) ∧
  (∀ (p : Port) (arrived : List Byte) (s : State), s.hw.link p = 5 → (s.hw.port p).cur = none →
    arrived.length ≤ s.hw.cfg .PT_CFG_max_len p →
    exec (.rxWatchdog p arrived) s = .next (s.setHw
      ((s.hw.setPort p { s.hw.port p with orphan := true }).rxFail p 0x06)).settle)

/-- How a port acquires its link: partner, negotiation, training, alignment (R65, R68, R69, R70). -/
def Obligations.LinkAcquisition : Prop :=
  (∀ (p : Port) (s : State), s.hw.link p = 1 → s.hw.cfg .PT_CFG_pmd p = 0 →
    exec (.partnerPresent p) s = .next (s.setHw
      ((((s.hw.ptWr .PT_STATUS_partner_present p 1).ptEvent p 0).lanesWr .SD_LANESTAT_sig_detect p 1).ptWr
        .PT_STATUS_state p 4))) ∧
  (∀ (p : Port) (code : Fin 16) (lp : Word) (s : State), s.hw.link p = 2 → code.val = s.hw.laneMode p →
    exec (.anComplete p code lp) s = .next (s.setHw
      (((((s.hw.wr .PT_AN_LP_lp (bits lp.toNat 12 1) (portIx p) (portSl p)).ptWr .PT_STATUS_resolved p code).ptWr
        .PT_STATUS_an_done p 1).ptEvent p 4).ptWr .PT_STATUS_state p 3))) ∧
  (∀ (p : Port) (s : State), s.hw.link p = 3 →
    exec (.trainDone p) s = .next (s.setHw (s.hw.ptWr .PT_STATUS_state p 4))) ∧
  (∀ (p : Port) (s : State), s.hw.link p = 3 → s.hw.negotiates p = false →
    exec (.trainFail p) s = .next (s.setHw (((s.hw.ptEvent p 6).ptCount p 24).ptWr .PT_STATUS_state p 3))) ∧
  (∀ (p : Port) (s : State), s.hw.link p = 4 → s.hw.faulted p = false →
    exec (.alignLock p) s = .next (s.setHw
      (((s.hw.ptWr .PT_STATUS_lanes_locked p (s.hw.allLocked p)).lanesWr .SD_LANESTAT_cdr_lock p 1).track p)))

/-- How a port enters UP, meets faults, loses its partner or its lanes, and goes down (R69, R70, R72, R75). -/
def Obligations.LinkUpAndDown : Prop :=
  (∀ (p : Port) (s : State), s.hw.link p = 4 ∨ s.hw.link p = 6 →
    s.hw.rd .PT_STATUS_lanes_locked (portIx p) (portSl p) = s.hw.allLocked p → s.hw.faulted p = false →
    exec (.linkUp p) s = .next (s.setHw
      ((((((s.hw.ptWr .PT_STATUS_state p 5).ptWr .PT_STATUS_link_up p 1).linkVec p 1).ptEvent p 2).setPort p
        { (s.hw.port p) with leftUp := false, flush := 0 }).sfPortUp p))) ∧
  (∀ (p : Port) (arrived : Option (List Byte)) (s : State), s.hw.link p = 4 →
    s.hw.rd .PT_STATUS_lanes_locked (portIx p) (portSl p) = s.hw.allLocked p →
    (s.hw.on .PT_STATUS_local_fault (portIx p) (portSl p) = false →
      exec (.localFault ⟨p, arrived⟩) s = .next (s.setHw
        ((((s.hw.ptWr .PT_STATUS_local_fault p 1).ptEvent p 7).signal p).ptWr .PT_STATUS_state p 6)).settle) ∧
    (s.hw.on .PT_STATUS_remote_fault (portIx p) (portSl p) = false →
      exec (.remoteFault ⟨p, arrived⟩) s = .next (s.setHw
        ((((s.hw.ptWr .PT_STATUS_remote_fault p 1).ptEvent p 8).signal p).ptWr .PT_STATUS_state p 6)).settle)) ∧
  (∀ (p : Port) (arrived : Option (List Byte)) (s : State), s.hw.link p = 5 →
    (s.hw.on .PT_STATUS_local_fault (portIx p) (portSl p) = false →
      exec (.localFault ⟨p, arrived⟩) s = .next (s.setHw
        ((((s.hw.ptWr .PT_STATUS_local_fault p 1).ptEvent p 7).signal p).leaveUp p 6 arrived)).settle) ∧
    (s.hw.on .PT_STATUS_remote_fault (portIx p) (portSl p) = false →
      exec (.remoteFault ⟨p, arrived⟩) s = .next (s.setHw
        ((((s.hw.ptWr .PT_STATUS_remote_fault p 1).ptEvent p 8).signal p).leaveUp p 6 arrived)).settle)) ∧
  (∀ (p : Port) (remote : Bool) (s : State),
    s.hw.on (if remote then .PT_STATUS_remote_fault else .PT_STATUS_local_fault) (portIx p) (portSl p) = true →
    exec (.faultClear p remote) s = .next (s.setHw
      ((s.hw.ptWr (if remote then .PT_STATUS_remote_fault else .PT_STATUS_local_fault) p 0).signal p))) ∧
  (∀ (p : Port) (s : State), s.hw.on .PT_STATUS_partner_present (portIx p) (portSl p) = true →
    s.hw.link p = 2 ∨ s.hw.link p = 3 ∨ s.hw.link p = 4 →
    exec (.partnerLost p) s = .next (s.setHw
      (((((s.hw.ptWr .PT_STATUS_partner_present p 0).ptEvent p 1).lanesWr .SD_LANESTAT_sig_detect p 0).ptWr
        .PT_STATUS_state p 1).ptWr .PT_STATUS_lanes_locked p 0))) ∧
  (∀ (p : Port) (arrived : Option (List Byte)) (s : State), s.hw.link p = 5 →
    exec (.signalLoss p true arrived) s = .next (s.setHw
      (((s.hw.leaveUp p 4 arrived).ptWr .PT_STATUS_lanes_locked p 0).lanesWr .SD_LANESTAT_cdr_lock p 0)).settle ∧
    exec (.signalLoss p false arrived) s = .next (s.setHw (s.hw.leaveUp p 6 arrived)).settle) ∧
  (∀ (p : Port) (s : State), (s.hw.port p).leftUp = true →
    exec (.linkDown p) s = .next (s.setHw
      (((((((s.hw.ptEvent p 3).ptCount p 23).note (.cutOff p)).flushLink p 0x0A).ptWr .PT_STATUS_state p 1).ptWr
        .PT_STATUS_an_done p 0).ptWr .PT_STATUS_lanes_locked p 0)).settle)

/-- Lane maps, enabling and disabling a port, its FEC window and PRBS (R60, R62, R67, R70, R72). -/
def Obligations.PortConfiguration : Prop :=
  (∀ (n : Slice) (g : Fin 12) (v : Word) (s : State), s.hw.gmodeCause n g (v.toNat % 2 ^ 32) = 0 →
    ∃ t, exec (.gmodeWrite n g v true) s = .next t ∧ t.hw.rd .PT_GMODE_lane_mode g n = v.toNat % 2 ^ 32 ∧
      t.hw.good ⟨.PT_GMODE, n, 0, g⟩ = true ∧ s.SameOutside t) ∧
  (∀ (n : Slice) (g : Fin 12) (v : Word) (s : State), s.hw.gmodeCause n g (v.toNat % 2 ^ 32) = 0 →
    ∃ t, exec (.gmodeWrite n g v false) s = .next t ∧ t.hw.good ⟨.PT_GMODE, n, 0, g⟩ = false ∧
      (∀ y ∈ t.dev.tx, y.port / 8 = 12 * n + g → t.hw.configured y.port = true → y.st.started.isSome = true →
        y.st.squelch = true)) ∧
  (∀ (p : Port) (v : Word) (s : State), 0 < bits v.toNat 23 14 → bits v.toNat 23 14 ≤ 1000 →
    64 ≤ bits v.toNat 13 0 → bits v.toNat 13 0 ≤ 10000 → bit v.toNat 63 = true → s.hw.cfg .PT_CFG_enable p = 0 →
    (s.hw.cfgFields p v.toNat).enableCause p = 0 → (s.hw.port p).flush ≠ 0 →
    exec (.portEnable p v) s = .next (s.setHw
      ((((s.hw.cfgFields p v.toNat).wr .PT_CFG_enable 1 (portIx p) (portSl p)).ptWr .PT_STATUS_state p 1).ptWr
        .PT_STATUS_refuse_cause p 0)).settle) ∧
  (∀ (p : Port) (v : Word) (arrived : Option (List Byte)) (s : State), 0 < bits v.toNat 23 14 →
    bits v.toNat 23 14 ≤ 1000 → 64 ≤ bits v.toNat 13 0 → bits v.toNat 13 0 ≤ 10000 → bit v.toNat 63 = false →
    s.hw.cfg .PT_CFG_enable p = 1 →
    exec (.portDisable p ⟨v, arrived⟩) s = .next (s.setHw ((s.hw.cfgFields p v.toNat).disablePort p arrived)).settle) ∧
  (∀ (p : Port) (codewords symbols : Nat) (s : State),
    s.hw.on .PT_STATUS_fec_degraded (portIx p) (portSl p) = false →
    s.hw.rd .PT_FECTHR_set_thr (portIx p) (portSl p) ≤ symbols →
    exec (.fecWindow p codewords symbols) s = .next (s.setHw
      (((((s.hw.ptCount p 21 codewords).ptCount p 22 symbols).ptWr .PT_STATUS_fec_degraded p 1).ptEvent p 9).raise 0x110
        (portSl p) 15 p))) ∧
  (∀ (l : Lane) (v : Word) (s : State), bits v.toNat 59 57 ≤ 3 → bits v.toNat 56 54 ≤ 3 → s.hw.laneFree l = true →
    (bit v.toNat 63 = true →
      exec (.prbsGo l v) s = .next (s.setHw
        ((((s.hw.wr .SD_PRBS_gen (bits v.toNat 59 57) (portIx l) (portSl l)).wr .SD_PRBS_chk (bits v.toNat 56 54)
          (portIx l) (portSl l)).wr .SD_PRBS_state 1 (portIx l) (portSl l)).setVal .SD_PRBS_ERR 0 (portIx l)
          (portSl l)))) ∧
    (bit v.toNat 63 = false → bit v.toNat 62 = true → s.hw.rd .SD_PRBS_state (portIx l) (portSl l) = 1 →
      exec (.prbsStop l v) s = .next (s.setHw
        ((((s.hw.wr .SD_PRBS_gen (bits v.toNat 59 57) (portIx l) (portSl l)).wr .SD_PRBS_chk (bits v.toNat 56 54)
          (portIx l) (portSl l)).wr .SD_PRBS_state 2 (portIx l) (portSl l)).setVal .SD_PRBS_ERR
          (Config.bitErrors l s.hw.up).toNat (portIx l) (portSl l)))))

/-- Binding a frame to an association, starting it, ending it with a good FCS, and its SecY report (R80, R82, R324, R325,
R480). -/
def Obligations.FrameTransmission : Prop :=
  (∀ (p : Port) (x : TxFrame) (c : TxCond) (s : State), s.dev.head p = some x → x.port = p.val → x.st.started = none →
    x.st.sa = none → x.st.cut = false → s.hw.transmits p = true → s.hw.protects p x.st.bytes = false →
    c.mac.val = p.val → c.lanesOk = true → s.hw.mapAgrees p = true →
    exec (.txFrameStart p c) s = .next (s.setDev (({ s.dev with hw := s.hw.stampRequest x } : Dev).updFrame x
      (fun st => { st with started := some (s.hw.stampRequest x).now, squelch := false })))) ∧
  (∀ (p : Port) (x : TxFrame) (s : State), s.dev.head p = some x → x.st.started.isSome = true → x.st.whole = true →
    x.st.stomp = none → (s.hw.emit x).on .CX_SECY_tx_en p = false →
    exec (.txFrameEnd p) s = .next (s.setDev
      (({ s.dev with hw := (s.hw.emit x).settleTx x true } : Dev).delFrame x))) ∧
  (∀ (p : Port) (x : TxFrame) (s : State), s.dev.tx.find? (fun x => x.port == p.val && x.st.ended.isSome) = some x →
    x.st.ended = some true → x.st.sa.isSome = true →
    exec (.secyFrameEnd p) s = .next (s.setDev
      (({ s.dev with hw := (s.hw.cxCount 0).settleTx x true } : Dev).delFrame x))) ∧
  (∀ (p : Port) (x : TxFrame) (b : SaBind) (h : Hw) (s : State), s.dev.toBind p = some x →
    s.hw.bindSa p x.len = (.ok b, h) →
    exec (.saBind p) s = .next (s.setDev
      (({ s.dev with hw := h } : Dev).updFrame x (fun st => { st with sa := some b })).settle))

/-- A frame taken by a parser lane, and the parser's graph written, copied and scrubbed (R89, R101, R105, R106, R107). -/
def Obligations.FrameAdmission : Prop :=
  (∀ (n : Slice) (pipe : Fin 9) (i : Fin 96) (x : RxFrame) (r : List RxFrame) (s : State),
    (s.hw.port (96 * n + i)).fifo = x :: r → s.hw.rxStop (96 * n + i) = none → s.hw.admits n pipe = true →
    s.hw.controlFrame (96 * n + i) x = false →
    let h := (s.hw.setPort (96 * n + i) { s.hw.port (96 * n + i) with fifo := r }).pm n 0x01
    (h.fabricPort (96 * n + i) && etherType x.bytes == 0x88B5) = false →
    exec (.parserAdmit n pipe (.port i) .none) s = .next (s.setHw (h.admitReceived n pipe (96 * n + i) x false)).settle) ∧
  (∀ (n : Slice) (off : BitVec 20) (v : Word) (bank : Nat) (s : State), s.hw.writeBank n = (bank, false) →
    s.hw.on .PA_BANKCOPY_busy 0 n = false →
    let o := off.toNat / 8 * 8
    (s.hw.paBadWord n bank o v.toNat = true →
      exec (.paBankedWrite n off v) s = .next (s.setHw
        ((s.hw.wr .PA_STATUS_write_refused 1 0 n).wr .PA_STATUS_refused_index (o / 8) 0 n))) ∧
    (s.hw.paBadWord n bank o v.toNat = false →
      (o = 0x18 → exec (.paBankedWrite n off v) s = .next (s.setHw
        (s.hw.setVal .PA_POLICY (v.toNat &&& (regRow .PA_POLICY).rw) 0 n bank))) ∧
      (0x1000 ≤ o → o < 0x1300 → exec (.paBankedWrite n off v) s = .next (s.setHw
        (s.hw.setVal .PA_PORTCFG (v.toNat &&& (regRow .PA_PORTCFG).rw) ((o - 0x1000) / 8) n bank))) ∧
      (0x1800 ≤ o → o < 0x1880 → exec (.paBankedWrite n off v) s = .next (s.setHw
        (s.hw.setVal .PA_TKMAP (v.toNat &&& (regRow .PA_TKMAP).rw) ((o - 0x1800) / 8) n bank))) ∧
      (0x2000 ≤ o → o < 0x3FC0 →
        let name := nth paStateNames (o / 8 % 4) .PA_STATE0
        let ix := (o - 0x2000) / 32
        exec (.paBankedWrite n off v) s = .next (s.setHw
          ((((s.hw.setVal name (v.toNat &&& (regRow name).rw) ix n bank).setVal name (v.toNat &&& (regRow name).rw) ix n
            (bank + 2)).mark ⟨.PA_STATE0, n, bank, ix⟩ false).mark ⟨.PA_STATE0, n, bank + 2, ix⟩ false))) ∧
      (0x4000 ≤ o → o < 0x8000 →
        let name := nth paTransNames (o / 8 % 2) .PA_STATE0
        let ix := (o - 0x4000) / 16
        exec (.paBankedWrite n off v) s = .next (s.setHw
          ((((s.hw.setVal name (v.toNat &&& (regRow name).rw) ix n bank).setVal name (v.toNat &&& (regRow name).rw) ix n
            (bank + 2)).mark ⟨.PA_TRANS0, n, bank, ix⟩ false).mark ⟨.PA_TRANS0, n, bank + 2, ix⟩ false))))) ∧
  (∀ (n : Slice) (off : BitVec 20) (v : Word) (bank : Nat) (s : State), s.hw.writeBank n = (bank, true) →
    exec (.paBankedWrite n off v) s = .next (s.setHw (s.hw.wr .PA_STATUS_write_refused 1 0 n))) ∧
  (∀ (n : Slice) (s : State), s.hw.bankBusy = false → s.hw.on .PA_BANKCOPY_busy 0 n = false →
    exec (.paBankcopy n) s = .next (s.setHw (s.hw.wr .PA_BANKCOPY_busy 1 0 n))) ∧
  (∀ (n : Slice) (s : State), s.hw.on .PA_BANKCOPY_busy 0 n = true →
    exec (.paBankcopyDone n) s = .next (s.setHw
      (((s.hw.copyBank paBanked n s.hw.current s.hw.next).wr .PA_BANKCOPY_busy 0 0 n).wr .PA_STATUS_copy_done 1 0 n))) ∧
  (∀ (n : Slice) (s : State), s.hw.paSuspects n = [] → s.hw.paDiffer n = [] → exec (.paScrub n) s = .next s) ∧
  (∀ (n : Slice) (ed ix : Nat) (s : State), s.hw.paSuspects n = [(.PA_STATE0, ed, ix)] →
    s.hw.good ⟨.PA_STATE0, n, ed, ix⟩ = true → s.hw.good ⟨.PA_STATE0, n, ed + 2, ix⟩ = false →
    (s.hw.paScrubOne n (.PA_STATE0, ed, ix)).paDiffer n = [] →
    ∃ t, exec (.paScrub n) s = .next t ∧ t.hw.good ⟨.PA_STATE0, n, ed + 2, ix⟩ = true ∧
      (∀ w ∈ paStateNames, t.hw.val w ix n (ed + 2) = s.hw.val w ix n ed) ∧
      t.hw.fc.queue.length = s.hw.fc.queue.length + 1 ∧ s.SameOutside t)

/-- A stage routine starts, runs its nano-words, is aborted at its beat limit, is fixed; and the countersign delivers (R124,
R140, R143, R145, R151, R154, R40). -/
def Obligations.StageExecution : Prop :=
  (∀ (n : Slice) (c a : Nat) (x : Ctx) (h : Hw) (s : State), s.hw.ctx? c = some x → x.sl = n.val → x.ph = .ready →
    s.hw.behind x = false → s.hw.ways x < 2 → x.launches.any (fun l => l.land == x.engine && l.done.isNone) = false →
    x.errors = [] → s.hw.storeWord .SE_ENTRY x.sl (mdEdition x.pmd) x.engine x.pipe = (some a, h) →
    exec (.stageRoutineStart n c) s = .next (s.setHw
      (h.setCtx { x.landAll with ph := .run (a % 2048), rstack := [], beats := 0, latent := [], metered := [] }))) ∧
  (∀ (n : Slice) (c ua uw : Nat) (ws : List Nat) (x : Ctx) (h k : Hw) (s : State), s.hw.ctx? c = some x → x.sl = n.val →
    x.ph = .run ua → s.hw.storeWord .NS_UW n (mdEdition x.pmd) (2048 * x.engine + ua) x.pipe = (some uw, h) →
    h.storeWords? .NS_NW n (mdEdition x.pmd) ((1024 * x.engine + uwNano uw) * 8) x.pipe 8 = (some ws, k) →
    uwEnd uw = true → bits (nwLk (wordsNat ws) 0) 63 61 = 0 → bits (nwLk (wordsNat ws) 1) 63 61 = 0 →
    bits (nwSt (wordsNat ws)) 55 50 = 0 → x.beats + nwBeats (wordsNat ws) ≤ s.hw.rd .SE_CTRL_beat_limit 0 n →
    x.beats < s.hw.rd .SE_CTRL_beat_limit 0 n →
    let nw := wordsNat ws
    let g := k.pm n 0x20 (nwBeats nw) (some x.engine) x.pipe (some (mdTenant x.pmd))
    let y := ({ x with beats := x.beats + nwBeats nw } : Ctx).take
      ((x.env (uwImm uw)).operations ((List.range 12).map (fun w => g.val .PT_LINKVEC w n)) g.now nw)
    exec (.stageNanoWord n c) s = .next (s.setHw ((g.spent y).setCtx { y with ph := .ended }))) ∧
  (∀ (n : Slice) (c ua : Nat) (x : Ctx) (s : State), s.hw.ctx? c = some x → x.sl = n.val → x.ph = .run ua →
    s.hw.rd .SE_CTRL_beat_limit 0 n ≤ x.beats →
    exec (.beatLimit n c) s = .next (s.setHw (s.hw.abort x 0x37))) ∧
  (∀ (n : Slice) (c : Nat) (x : Ctx) (s : State), s.hw.ctx? c = some x → x.sl = n.val → x.ph = .ended →
    s.hw.nextFull x = false →
    let r : Hw × Ctx := x.latent.foldl (fun (a : Hw × Ctx) l => a.1.applyLatent a.2 l) (s.hw, x)
    r.2.engine = x.engine →
    let y : Ctx := { r.2.restore with latent := [], metered := [] }
    (x.engine < 11 → exec (.stageFix n c true) s = .next (s.setHw
      (r.1.setCtx { y with engine := x.engine + 1, ph := .ready }))) ∧
    (x.engine = 11 → exec (.stageFix n c true) s = .next (s.setHw
      ((r.1.sendLearns y).ingressFix { y with learns := [] }))) ∧
    (11 < x.engine → x.engine ≠ 15 → exec (.stageFix n c true) s = .next (s.setHw
      ((r.1.sendLearns y).setCtx { y with learns := [], engine := x.engine + 1, ph := .ready }))) ∧
    (x.engine = 15 → exec (.stageFix n c true) s = .next (s.setHw
      ((r.1.sendLearns y).egressFix { y with learns := [] })))) ∧
  (∀ (n : Slice) (c : Nat) (x : Ctx) (s : State), s.hw.ctx? c = some x → x.sl = n.val → x.ph = .ended →
    s.hw.nextFull x = false → x.latent ≠ [] →
    exec (.stageFix n c false) s = .next (s.setHw ((s.hw.raise 0x212 n x.pipe).dropCtx x 0x39))) ∧
  (∀ (n : Slice) (c : Nat) (x : Ctx) (agree : Bool) (s : State), s.hw.ctx? c = some x → s.hw.nextFull x = true →
    exec (.stageFix n c agree) s = .next s) ∧
  (∀ (n : Slice) (c : Nat) (x : Ctx) (e : EgCtx) (ev : Evidence) (h : Hw) (s : State), s.hw.ctx? c = some x →
    x.eg = some e → x.sl = n.val → x.ph = .countersign → s.hw.csBehind x e.port = false → s.hw.link e.port = 5 →
    s.hw.csJudge x.sl x.pipe e.port x.pmd e.out = (ev, none, h) → h.csFrozen x.sl e.port (mdTenant x.pmd) = none →
    ev.delivers = true →
    exec (.countersign n c true) s = .next (s.setDev (({ s.dev with hw := h } : Dev).deliverCopy x e ev).settle))

/-- Every lookup answers the oldest unsearched launch of its frame to its table, also of a frame that has been dropped meanwhile
(R123, R124, R126); an HX lookup waits for a tracker and for tokens of its stack (R346, R348). -/
def Obligations.LookupLanding : Prop :=
  ∀ (n : Slice) (c : Nat) (s : State),
    let looked (i : Instr) (table : Nat) (f : Hw → Ctx → Launch → Hw × Ctx × BitVec 128 × Nat) : Prop :=
      (∀ x l h y r reason, s.hw.lookupOf c = some x → x.sl = n.val → x.launch? table = some l →
        f s.hw x l = (h, y, r, reason) →
        exec i s = .next (s.setHw
          (if bit r.toNat 127 = true then
            (h.landed (y.land table r reason)).pm n 0x31 1 (some table) y.pipe (some (mdTenant y.pmd))
          else h.landed (y.land table r reason)))) ∧
      (∀ x, s.hw.lookupOf c = some x → x.launch? table = none → exec i s = .next s)
    looked (.tcLookup n c) 1 (tcSearch n) ∧ looked (.gcLookup n c) 2 (gcSearch n) ∧ looked (.clLookup n c) 3 (clSearch n) ∧
      looked (.lpLookup n c) 4 (lpSearch n) ∧ looked (.exLookup n c) 5 (exSearch n) ∧
      (s.hw.hxWaits c = false → looked (.hxLookup n c) 6 (hxSearch n)) ∧
      (s.hw.hxWaits c = true → exec (.hxLookup n c) s = .next s) ∧
      (∀ x, s.hw.ctx? c = some x → s.hw.lookupOf c = some x)

/-- The stage stores loaded, copied and scrubbed; the program counters; a frame picked for recirculation (R128, R146, R157,
R158, R159). -/
def Obligations.StoreLoading : Prop :=
  (∀ (n : Slice) (e : Fin 16) (x : Fin 1024) (w : Fin 7) (v : Word) (s : State),
    exec (.nanoWordStage n e x w v) s = .next (s.setHw (s.hw.setReg (stagedWord n e w) v))) ∧
  (∀ (n : Slice) (e : Fin 16) (x : Fin 1024) (v : Word) (bank : Nat) (s : State), s.hw.slicePower n ≠ 1 →
    s.hw.bankBusy = false → s.hw.next = bank → s.hw.on .SE_BANKCOPY_busy 0 n = false →
    let ws := (List.range 7).map (fun w => (s.hw.reg (stagedWord n e w)).toNat) ++ [v.toNat]
    nanoCause false e (wordsNat ws) = 0 →
    ∃ t, exec (.nanoWordCommit n e x v) s = .next t ∧
      (∀ k < 8, t.hw.val .NS_NW ((1024 * e + x) * 8 + k) n bank = nth ws k 0 ∧
        t.hw.val .NS_NW ((1024 * e + x) * 8 + k) n (bank + 2) = nth ws k 0) ∧
      (∀ w < 7, t.hw.reg (stagedWord n e w) = 0) ∧ s.SameOutside t ∧ (⟨.NS_NW, n, bank, 1024 * e + x⟩ : Reg) ∈ t.hw.wrote) ∧
  (∀ (n : Slice) (e : Fin 16) (a : Fin 2048) (v : Word) (bank : Nat) (s : State), s.hw.writeBank n = (bank, false) →
    s.hw.on .SE_BANKCOPY_busy 0 n = false →
    (microCause v.toNat = 0 → exec (.microwordWrite n e a v) s = .next (s.setHw
      (s.hw.setStore .NS_UW n bank (2048 * e + a) v.toNat))) ∧
    (microCause v.toNat ≠ 0 → exec (.microwordWrite n e a v) s = .next (s.setHw
      (s.hw.seRefuse n (microCause v.toNat) e 0 (e * 0x4000 + a * 8))))) ∧
  (∀ (n : Slice) (off : BitVec 20) (v : Word) (bank : Nat) (s : State), s.hw.writeBank n = (bank, false) →
    s.hw.on .SE_BANKCOPY_busy 0 n = false →
    let o := off.toNat / 8 * 8
    (0x100 ≤ o → o < 0x180 → exec (.seBankedWrite n off v) s = .next (s.setHw
      (s.hw.setStore .SE_ENTRY n bank ((o - 0x100) / 8) (v.toNat % 2048)))) ∧
    (o = 0x400 → exec (.seBankedWrite n off v) s = .next (s.setHw
      (s.hw.setStore .SE_REFBASE n bank 0 (v.toNat &&& 0xFF0000FFFFFFFC00))))) ∧
  (∀ (n : Slice) (s : State), s.hw.bankBusy = false → s.hw.on .SE_BANKCOPY_busy 0 n = false →
    exec (.seBankcopy n) s = .next (s.setHw (s.hw.wr .SE_BANKCOPY_busy 1 0 n))) ∧
  (∀ (n : Slice) (s : State), s.hw.on .SE_BANKCOPY_busy 0 n = true →
    let k := ((s.hw.copyBank seBanked n s.hw.current s.hw.next).wr .SE_BANKCOPY_busy 0 0 n).wr .SE_STATUS_copy_done 1 0 n
    ∃ t, exec (.seBankcopyDone n) s = .next t ∧ t.hw = { k with wrote := t.hw.wrote } ∧ s.SameOutside t) ∧
  (∀ (n : Slice) (s : State), s.hw.seSuspects n = [] → exec (.seScrub n) s = .next s) ∧
  (∀ (n : Slice) (s : State), s.hw.on .SE_PCNT_CMD_busy 0 n = false →
    let i := s.hw.rd .SE_PCNT_INDEX_index 0 n
    let shown := (s.hw.setVal .SE_PCNT_PKTS (s.hw.val .A_PCP i n) 0 n).setVal .SE_PCNT_BYTES (s.hw.val .A_PCB i n) 0 n
    exec (.pcntRead n) s = .next (s.setHw shown) ∧
    exec (.pcntReadClear n) s = .next (s.setHw ((shown.setVal .A_PCP 0 i n).setVal .A_PCB 0 i n)) ∧
    exec (.pcntClear n) s = .next (s.setHw ((s.hw.setVal .A_PCP 0 i n).setVal .A_PCB 0 i n))) ∧
  (∀ (n : Slice) (pipe : Fin 9) (c : QCopy) (r : List QCopy) (s : State), s.hw.takesEgress n pipe = true →
    ((s.hw.checkLink n rcq).queue n rcq).die = c :: r → c.visible = true →
    exec (.recircPick n pipe) s = .next (s.setHw
      (((s.hw.checkLink n rcq).dequeue n rcq c).sendCopy n pipe rcq c false none)))

/-- What the rule TCAM's commands do to the named entry, its shadow and the command registers (R163, R165, R174, R175,
R179). -/
def Obligations.RuleTcamCommands : Prop :=
  (∀ (n : Slice) (s : State), s.hw.on .CL_CMD_busy 0 n = false →
    let i := s.hw.rd .CL_INDEX_index 0 n
    let d := s.hw.rd .CL_INDEX_dst 0 n
    (s.hw.clCause n 1 = 0 → ∃ t, exec (.clRead n) s = .next t ∧ t.hw.val .CL_A0 0 n = s.hw.val .A_CLA0 i n ∧
      t.hw.val .CL_A1 0 n = s.hw.val .A_CLA1 i n ∧ (∀ w < 10, t.hw.val .CL_VALUE w n = s.hw.val .A_CLV (10 * i + w) n ∧
        t.hw.val .CL_MASK w n = s.hw.val .A_CLM (10 * i + w) n) ∧
      t.hw.on .CL_CMD_busy 0 n = true ∧ t.hw.mem = s.hw.mem ∧ t.hw.cam = s.hw.cam ∧ s.SameOutside t) ∧
    (s.hw.clCause n 2 = 0 → exec (.clWrite n) s = .next (s.setHw
      (((s.hw.clShadowSet n i (clSealed i (s.hw.clStaged n))).clSet n i (clSealed i (s.hw.clStaged n))).camStart false n [i]))) ∧
    (s.hw.clCause n 3 = 0 → exec (.clInvalidate n) s = .next (s.setHw
      ((s.hw.clChange n i (setBits (setBits (s.hw.val .A_CLA0 i n) 63 63 0) 60 60 0)).camStart false n [i]))) ∧
    (∀ ed : Fin 4, s.hw.clCause n 4 = 0 → exec (.clEdbits n ed) s = .next (s.setHw
      ((s.hw.clChange n i (setBits (s.hw.val .A_CLA0 i n) 62 61 ed)).camStart false n [i]))) ∧
    (s.hw.clCause n 5 = 0 → exec (.clMove n) s = .next (s.setHw
      (((({ s.hw with moves := s.hw.moves ++ [(n.val, i)] } : Hw).clShadowSet n d (clSealed d (s.hw.clWords n i))).clSet n d
        (clSealed d (s.hw.clWords n i))).camStart false n [i, d]))) ∧
    (s.hw.clCause n 2 ≠ 0 → exec (.clWrite n) s = .next (s.setHw
      ((s.hw.wr .CL_STATUS_cmd_refused 1 0 n).wr .CL_STATUS_cause (s.hw.clCause n 2) 0 n)))) ∧
  (∀ (n : Slice) (s : State), s.hw.on .CL_CMD_busy 0 n = true →
    (s.hw.moves.find? (fun m => m.1 == n.val) = none → s.hw.camSkipped false n = [] →
      exec (.clCmdDone n) s = .next (s.setHw ((s.hw.camEnd false n).count .CL_CNT_count 5 n))) ∧
    (∀ i, s.hw.moves.find? (fun m => m.1 == n.val) = none → s.hw.camSkipped false n = [i] →
      s.hw.stackActive (s.hw.rd .CL_SHADOW_BASE_base 0 n) = true →
      exec (.clCmdDone n) s = .next (s.setHw (((s.hw.camEnd false n).count .CL_CNT_count 5 n).clScrubOne n i))) ∧
    (∀ m i, s.hw.moves.find? (fun m => m.1 == n.val) = some (m, i) → s.hw.camSkipped false n = [] →
      exec (.clCmdDone n) s = .next (s.setHw
      (((({ s.hw with moves := s.hw.moves.filter (fun m => m.1 != n.val) } : Hw).clChange n i
        (setBits (setBits (s.hw.val .A_CLA0 i n) 63 63 0) 60 60 0)).camEnd false n).count .CL_CNT_count 5 n)))) ∧
  (∀ (n : Slice) (s : State), s.hw.on .CL_CMD_busy 0 n = false → exec (.clCmdDone n) s = .next s) ∧
  (∀ (n : Slice) (s : State),
    (s.hw.stackActive (s.hw.rd .CL_SHADOW_BASE_base 0 n) = true → exec (.clScrub n) s = .next (s.setHw
      (s.hw.each 32768 (fun h i =>
        if h.camWriting false n i then h.camSkip false n i else h.clScrubOne n i)))) ∧
    (s.hw.stackActive (s.hw.rd .CL_SHADOW_BASE_base 0 n) = false →
      exec (.clScrub n) s = .next (s.setHw (s.hw.raise 0x405 n))))

/-- What the Guard CAM's commands do, and the banked registers of both CAMs (R168, R176, R178, R179, R180). A list that
overruns keeps its first index: DEDUCED, see the assumption log. -/
def Obligations.GuardCamCommands : Prop :=
  (∀ (n : Slice) (v : Word) (s : State), s.hw.on .GC_CMD_busy 0 n = false → bits v.toNat 6 4 = 0 → s.hw.gcCause n 1 0 = 0 →
    let i := s.hw.gcIndex n false
    exec (.gcRead n v) s = .next (s.setHw
      (((s.hw.setVal .GC_A_WORD (s.hw.val .A_GCW i n) 0 n).setVal .GC_A_ATTR (s.hw.val .A_GCA i n) 0 n).camStart true n []))) ∧
  (∀ (n : Slice) (b : Bool) (v : Word) (s : State), s.hw.on .GC_CMD_busy 0 n = false →
    (if b then bits v.toNat 2 0 else bits v.toNat 6 4) = 0 →
    let i := s.hw.gcIndex n b
    let w := (s.hw.gcStaged n b).1
    let old := s.hw.val .A_GCW i n
    let cause (op : Nat) : Nat := if b then s.hw.gcCause n 0 op else s.hw.gcCause n op 0
    let done (w a : Nat) : Hw := ((s.hw.gcShadowSet n i w a).gcSet n i w a).camStart true n [i]
    (cause 2 = 0 → exec (.gcWrite n b v) s = .next (s.setHw (done w (gcSealed i w (s.hw.gcStaged n b).2)))) ∧
    (cause 3 = 0 → exec (.gcInvalidate n b v) s = .next (s.setHw
      (done old (gcSealed i old (setBits (s.hw.val .A_GCA i n) 63 63 0))))) ∧
    (cause 4 = 0 → exec (.gcEdbits n b v) s = .next (s.setHw
      (done old (setBits (gcSealed i old (setBits (s.hw.val .A_GCA i n) 62 61
        (if b then bits v.toNat 13 12 else bits v.toNat 9 8))) 60 60 (bits (s.hw.val .A_GCA i n) 60 60))))) ∧
    (cause 2 ≠ 0 → exec (.gcWrite n b v) s = .next (s.setHw
      ((s.hw.wr .GC_STATUS_cmd_refused 1 0 n).wr .GC_STATUS_cause (cause 2) 0 n)))) ∧
  (∀ (n : Slice) (s : State),
    (s.hw.camSkipped true n = [] → exec (.gcCmdDone n) s = .next (s.setHw (s.hw.camEnd true n))) ∧
    (∀ i, s.hw.camSkipped true n = [i] → s.hw.stackActive (s.hw.rd .GC_SHADOW_BASE_base 0 n) = true →
      exec (.gcCmdDone n) s = .next (s.setHw ((s.hw.camEnd true n).gcScrubOne n i)))) ∧
  (∀ (n : Slice) (s : State),
    (s.hw.stackActive (s.hw.rd .GC_SHADOW_BASE_base 0 n) = true → exec (.gcScrub n) s = .next (s.setHw
      (s.hw.each 65536 (fun h i =>
        if h.camWriting true n i then h.camSkip true n i else h.gcScrubOne n i)))) ∧
    (s.hw.stackActive (s.hw.rd .GC_SHADOW_BASE_base 0 n) = false →
      exec (.gcScrub n) s = .next (s.setHw (s.hw.raise 0x405 n)))) ∧
  (∀ (n : Slice) (off : BitVec 20) (v : Word) (b : Nat) (s : State), off.toNat % 8 = 0 →
    (s.hw.writeBank n = (b, false) →
      (0x1000 ≤ off.toNat → off.toNat < 0x1200 →
        let l := (off.toNat - 0x1000) / 8
        exec (.clGcBankedWrite n false off v) s = .next (s.setHw
          ((s.hw.wr .CL_LIST_first (bits v.toNat 5 0) l n b).wr .CL_LIST_count
            (if 64 < bits v.toNat 5 0 + bits v.toNat 14 8 then 0 else bits v.toNat 14 8) l n b))) ∧
      (0x1000 ≤ off.toNat → off.toNat < 0x1080 → exec (.clGcBankedWrite n true off v) s = .next (s.setHw
        (s.hw.setVal .GC_PROBE_MASK v.toNat ((off.toNat - 0x1000) / 8) n b))) ∧
      (0x1080 ≤ off.toNat → off.toNat < 0x1100 → exec (.clGcBankedWrite n true off v) s = .next (s.setHw
        (s.hw.setVal .GC_PROBE_CFG (v.toNat % 4) ((off.toNat - 0x1080) / 8) n b)))) ∧
    (s.hw.writeBank n = (b, true) → 0x1000 ≤ off.toNat → off.toNat < 0x1200 →
      exec (.clGcBankedWrite n false off v) s = .next (s.setHw
        ((s.hw.wr .CL_STATUS_write_refused 1 0 n).wr .CL_STATUS_cause 1 0 n))))

/-- What the commands of the forwarding tables do to the replicas, their shadows and the command registers (R184, R185,
R186, R190, R195, R200, R202, R212). -/
def Obligations.ForwardingTableCommands : Prop :=
  (∀ (n : Slice) (s : State), s.hw.on .FT_CMD_busy 0 n = false →
    let i := s.hw.rd .FT_TARGET_index 0 n
    (ftTab (s.hw.rd .FT_TARGET_table 0 n) = .tc → i < FtTab.tc.size → exec (.ftRead n) s = .next (s.setHw
      (((s.hw.setVal .FT_DATA_HI (s.hw.val .A_TC (2 * i) n) 0 n).setVal .FT_DATA_LO (s.hw.val .A_TC (2 * i + 1) n) 0 n).wr
        .FT_CMD_busy 1 0 n))) ∧
    ((ftTab (s.hw.rd .FT_TARGET_table 0 n)).size ≤ i → exec (.ftRead n) s = .next (s.setHw
      ((s.hw.wr .FT_STATUS_cmd_refused 1 0 n).wr .FT_STATUS_cause 4 0 n))) ∧
    (∀ mask : BitVec 8, ftTab (s.hw.rd .FT_TARGET_table 0 n) = .tc → i < FtTab.tc.size →
      ftReserved .tc i (s.hw.val .FT_DATA_HI 0 n) (s.hw.val .FT_DATA_LO 0 n) = false →
      s.hw.shadowCauses ((slicesOf mask.toNat).filter s.hw.receives) = 0 →
      exec (.ftWrite n mask) s = .next (s.setHw
        (((s.hw.skip (slicesOf mask.toNat)).over ((slicesOf mask.toNat).filter s.hw.receives) (fun h k =>
          h.ftPut .tc k (s.hw.rd .FT_TARGET_half 0 n) i [s.hw.val .FT_DATA_HI 0 n, s.hw.val .FT_DATA_LO 0 n])).wr
          .FT_CMD_busy 1 0 n)))) ∧
  (∀ (n : Slice) (s : State), s.hw.on .FT_CMD_busy 0 n = true →
    exec (.ftCmdDone n) s = .next (s.setHw ((s.hw.wr .FT_CMD_busy 0 0 n).count .FT_CNT_count 14 n))) ∧
  (∀ (n : Slice) (v : Word) (s : State), s.hw.on .FT_SYNC_busy 0 n = false → bit v.toNat 63 = true →
    v.toNat % 8 ≠ n.val → s.hw.on .FT_STATUS_stale 0 (v.toNat % 8) = false →
    (s.hw.wr .FT_SYNC_src (v.toNat % 8) 0 n).shadowCause n = 0 →
    exec (.ftSync n v) s = .next (s.setHw
      ((((s.hw.wr .FT_SYNC_src (v.toNat % 8) 0 n).copyReplica (v.toNat % 8) n).shadowReplica n).wr .FT_SYNC_busy 1 0 n))) ∧
  (∀ (n : Slice) (s : State), s.hw.on .FT_SYNC_busy 0 n = true →
    exec (.ftSyncDone n) s = .next (s.setHw
      (((s.hw.wr .FT_SYNC_busy 0 0 n).wr .FT_STATUS_stale 0 0 n).wr .FT_STATUS_sync_done 1 0 n))) ∧
  (∀ (n : Slice) (mask : BitVec 8) (s : State),
    exec (.lpFence n mask) s = .next (s.setHw { s.hw.wr .FT_LP_FENCE_busy 1 0 n with
      fences := s.hw.fences ++ ((slicesOf mask.toNat).flatMap s.hw.lpFlying).map (fun f => (n.val, f.1, f.2)) }) ∧
    (s.hw.fenced n = false → exec (.lpFenceDone n) s = .next (s.setHw { s.hw.wr .FT_LP_FENCE_busy 0 0 n with
      fences := s.hw.fences.filter (fun f => f.1 != n.val) })) ∧
    (s.hw.fenced n = true → exec (.lpFenceDone n) s = .next s)) ∧
  (∀ (n : Slice) (s : State),
    exec (.ftScrub n) s = .next (s.setHw (s.hw.ftScrub n)) ∧
    (s.hw.stackActive (s.hw.rd .FT_SHADOW_BASE_base 0 n) = false → s.hw.ftScrub n = s.hw.raise 0x405 n)) ∧
  (∀ (n : Slice) (off : BitVec 20) (v : Word) (s : State), off.toNat % 8 = 0 → s.hw.bankBusy = false →
    (∀ f, off.toNat = 0x300 + 8 * f → f < 2 → profileCause f (v.toNat % 2 ^ 44) = 0 →
      exec (.ftBankedWrite n off v) s = .next (s.setHw
        (s.hw.setVal .FT_LP_PROFILE (v.toNat % 2 ^ 44) f 0 s.hw.next))) ∧
    (∀ t, off.toNat = 0x400 + 8 * t → t < 8 → 10 ≤ bits v.toNat 60 56 → bits v.toNat 60 56 ≤ 22 →
      let k := bits v.toNat 60 56
      exec (.ftBankedWrite n off v) s = .next (s.setHw
        (s.hw.setVal .FT_HX_DESC ((bits v.toNat 63 63 <<< 63) + (k <<< 56) +
          bits v.toNat 39 0 / 2 ^ (7 + k) * 2 ^ (7 + k)) t 0 s.hw.next)))) ∧
  (∀ (n : Slice) (s : State), s.hw.hxCause n = 0 →
    let a := (s.hw.hxTarget n).1
    let ws := (List.range 4).map (fun w => s.hw.val .FT_HX_ENTRY w n)
    exec (.hxRead n) s = .next (s.setHw
      ((((s.hw.fetch 1 a 32).2.each 4 (fun h w => h.setVal .FT_HX_ENTRY (nth (s.hw.loadWords a 4) w 0) w n))).count
        .FT_CNT_count 14 n)) ∧
    (bits (s.hw.val .FT_HX_ENTRY 3 n) 60 16 = 0 → exec (.hxWrite n) s = .next (s.setHw
      ((s.hw.storeWords 1 a (setNth ws 3 (setBits (nth ws 3 0) 15 0 (hxCheck a ws)))).count .FT_CNT_count 14 n)))) ∧
  (∀ (n : Slice) (s : State), bits (s.hw.val .FT_HX_ENTRY 3 n) 60 16 ≠ 0 →
    exec (.hxWrite n) s = .next (s.setHw
      ((s.hw.wr .FT_STATUS_cmd_refused 1 0 n).wr .FT_STATUS_cause 4 0 n)))

/-- Learning and aging: requests reach the clearing house, are applied in order, and its commands act on the entry of a key
(R203, R204, R205, R208, R209, R210). -/
def Obligations.ClearingHouse : Prop :=
  (∀ (w : Option Nat × ChReq) (s : State), s.hw.ch.coming.find? (fun c => c.1.isNone) = some w →
    exec .learnRequest s = .next (s.setHw
      (({ s.hw with ch := { s.hw.ch with coming := delFirst (fun c => c.1.isNone) s.hw.ch.coming } } : Hw).chArrive w.2))) ∧
  (∀ (r : ChReq) (q : List ChReq) (s : State), s.hw.ch.queue = r :: q →
    exec .chRequestProcess s = .next (s.setHw (({ s.hw with ch := { s.hw.ch with queue := q } } : Hw).chApply r))) ∧
  (∀ (sub : Fin 64) (s : State), s.hw.on .FT_CH_CMD_busy = false → s.hw.ch.queue = [] →
    let k := s.hw.val .FT_CH_KEY
    let d := s.hw.val .FT_CH_DATA
    let h := ((s.hw.count .FT_CH_CNT_count 0).wr .FT_CH_CMD_busy 0).count .FT_CH_CNT_count 13
    (h.chFind sub k = none → exec (.chLookup sub) s = .next (s.setHw (h.setVal .FT_CH_RESULT 0))) ∧
    (∀ i, h.chFind sub k = some i → h.chCause = 0 →
      exec (.chInsert sub) s = .next (s.setHw
        ((h.chPut i k (exWord1 (bits d 62 61) false (bit d 63) false sub d)).setStamp i (h.freshStamp true 0))) ∧
      exec (.chDelete sub) s = .next (s.setHw
        ((h.chPut i k (setBits (h.chWord1 i) 63 63 0)).setStamp i ⟨0, 0, false, 0⟩)) ∧
      exec (.chClearContested sub) s = .next (s.setHw
        (((h.stamp i).2.chPut i k (setBits (h.chWord1 i) 57 57 0)).setStamp i { (h.stamp i).1 with settled := true })) ∧
      exec (.chSetEd sub) s = .next (s.setHw (h.chPut i k (setBits (h.chWord1 i) 62 61 (bits d 62 61)))))) ∧
  (∀ (sub : Fin 64) (i : Instr) (op : Nat) (s : State), s.hw.on .FT_CH_CMD_busy = false → s.hw.ch.queue ≠ [] →
    (i, op) ∈ [(Instr.chLookup sub, 1), (.chInsert sub, 2), (.chDelete sub, 3), (.chClearContested sub, 4), (.chSetEd sub, 5)] →
    exec i s = .next (s.setHw
      (((s.hw.count .FT_CH_CNT_count 0).chEnqueue (.cmd op sub (s.hw.val .FT_CH_KEY) (s.hw.val .FT_CH_DATA))).wr
        .FT_CH_CMD_busy 1))) ∧
  (∀ (i : Fin 1048576) (s : State), s.hw.chValid i = true →
    ∃ t, exec (.agingScan i) s = .next t ∧ t.hw.ch.coming = s.hw.ch.coming ∧ s.SameOutside t ∧
      (s.hw.on .FT_CH_CTRL_age_en = false → t.hw.ch.queue = s.hw.ch.queue)) ∧
  (∀ (v : Word) (s : State),
    let k := bits v.toNat 63 60
    let base := bits v.toNat 39 0 / 2 ^ (5 + k) * 2 ^ (5 + k)
    (6 ≤ k → base = 0 ∨ inShared base (2 ^ (5 + k)) = true →
      exec (.chRingWrite v) s = .next (s.setHw (s.hw.setVal .FT_CH_RING ((k <<< 60) + base)))) ∧
    (k < 6 ∨ (base ≠ 0 ∧ inShared base (2 ^ (5 + k)) = false) → exec (.chRingWrite v) s = .next s))

/-- The edition controller: flip, close, drain markers, retirement, slow drain and forced closing (R217, R219, R220, R222,
R223, R225). -/
def Obligations.EditionLifecycle : Prop :=
  (∀ s : State, s.hw.flipCause = 0 → exec .edFlip s = .next (s.setHw
    (let h := (((((s.hw.wr .ED_STATUS_current s.hw.next).wr .ED_STATUS_other_state 1).setVal .ED_FLIPTIME s.hw.now).count
      .ED_FLIPS_flips).edEvent 0).edCount 0
     { h with ed := { s.hw.ed with permit := false, slow := false, forced := none } }))) ∧
  (∀ s : State, s.hw.flipCause ≠ 0 → s.hw.flipCause ≠ 3 → exec .edFlip s = .next (s.setHw
    ((((s.hw.wr .ED_STATUS_flip_refused 1).wr .ED_STATUS_cause s.hw.flipCause).edEvent 5).edCount 1))) ∧
  (∀ s : State, s.hw.on .ED_CMD_busy = false →
    exec .edClose s = .next (s.setHw { s.hw with ed := { s.hw.ed with permit := true } })) ∧
  (∀ s : State, s.hw.otherState = 1 → s.hw.drainCopies s.hw.next = s.hw → s.hw.drainCopies s.hw.current = s.hw →
    s.hw.drainCount s.hw.next = 0 → s.hw.closePermitted = true → exec .editionClose s = .next (s.setHw
      (let h := ((s.hw.wr .ED_STATUS_other_state 2).edEvent 1).sendMarkers s.hw.next
       h.awaitMarkers h.fabricUp)).settle) ∧
  (∀ (p : Port) (b : Fin 2) (s : State), b.val = s.hw.next → s.hw.otherState = 2 → s.hw.ed.await.contains p.val = true →
    exec (.drainMarkerRx p b) s = .next (s.setHw
      ((s.hw.edCount 5).awaitMarkers (s.hw.ed.await.filter (· != p.val))))) ∧
  (∀ s : State, s.hw.otherState = 2 → exec .markerWaitTimeout s = .next (s.setHw (s.hw.edEvent 4).retire)) ∧
  (∀ s : State, s.hw.otherState = 1 → s.hw.ed.slow = false → exec .drainSlow s = .next (s.setHw
    (({ s.hw with ed := { s.hw.ed with slow := true } } : Hw).edEvent 3))) ∧
  (∀ s : State, s.hw.on .ED_CMD_busy = false → s.hw.otherState ≠ 0 →
    let h := s.hw.each 8 (fun h n => h.over (h.busyQueues n) (fun h q => h.flushQueue n q 0x7F (some s.hw.next)))
    let ids := h.ctxs.map (·.id) ++ h.formers.filterMap (·.ctx)
    exec .edForceClose s = .next (s.setHw { h with ed := { h.ed with
      permit := true, forced := if h.otherState = 1 then some ids else none } }).settle) ∧
  (∀ (ids : List Nat) (s : State), s.hw.ed.forced = some ids →
    ids.any (fun c => s.hw.ctxs.any (fun x => x.id == c) || s.hw.formers.any (fun f => f.ctx == some c)) = false →
    ∃ t, exec .forceCloseZeroCounts s = .next t ∧ t.hw.ed.forced = none ∧
      t.hw.ed.parts = (List.range 8).foldl (fun p n =>
        setNth (setNth p (drainIx n s.hw.next 0) 0) (drainIx n s.hw.next 1) 0) s.hw.ed.parts ∧
      t.hw = { s.hw with ed := t.hw.ed } ∧ s.SameOutside t)

/-- Cells cross the crossbar: places, filler, arrival in and out of order, loss, and planes removed and restored (R234,
R235, R236, R237, R238, R240, R241). -/
def Obligations.CrossbarTraffic : Prop :=
  (∀ (f : Former) (s : State), s.hw.former? f.id = some f → f.granted = false →
    s.hw.placesFit f.src f.dst (placesFor (extBound f.ext)) = true →
    exec (.placesGrant f.id) s = .next (s.setHw
      (let h := s.hw.setFormer { f with granted := true }
       h.runStream f.stream h.formers.length))) ∧
  (∀ (f : Former) (s : State), s.hw.former? f.id = some f → f.granted = false →
    exec (.xbHold f.id) s = .next (s.setHw
      (let h := s.hw.dropFormer f 0x62
       h.runStream f.stream h.formers.length))) ∧
  (∀ (src dst : Slice) (pipe : Fin 9) (f : Former) (s : State),
    s.hw.formers.find? (fun f => f.src == src.val && f.pipe == pipe.val && f.dst == dst.val && f.granted) = some f →
    f.cells ≠ 0 → s.hw.planesUp.isEmpty = false →
    exec (.fillerCell src pipe dst) s = .next (s.setHw
      ((s.hw.sendCell ⟨src, pipe, dst, 0, false, false, true, 0, 0, false, f.ext, [], f.info, 0, 0⟩).bump .XB_CNT 11))) ∧
  (∀ (src dst : Slice) (pipe : Fin 9) (seq : Fin 65536) (c : Cell) (s : State),
    let mine (c : Cell) : Bool := c.src == src.val && c.pipe == pipe.val && c.dst == dst.val && c.seq == seq.val
    let k : StreamKey := (src.val, pipe.val, dst.val)
    let x := s.hw.stream k
    s.hw.flight.find? mine = some c →
    let h : Hw := { s.hw with flight := delFirst mine s.hw.flight }
    (c.check = c.crc dst c.seq → c.seq = x.exp → x.exp < 65536 → exec (.cellArrival src pipe dst seq true) s = .next (s.setHw
      (((h.setStream k { x with exp := (x.exp + 1) % 65536, checkFail := false }).reassemble k c).releaseHeld k
        x.held.length)).settle) ∧
    (c.check = c.crc dst c.seq → (c.seq + 65536 - x.exp) % 65536 ≠ 0 → (c.seq + 65536 - x.exp) % 65536 < 2048 →
      x.held.any (fun y => y.seq == c.seq) = false →
      exec (.cellArrival src pipe dst seq true) s = .next (s.setHw
        (h.setStream k { x with held := x.held ++ [c] })).settle) ∧
    (∀ intact : Bool, intact = false ∨ c.check ≠ c.crc dst c.seq →
      exec (.cellArrival src pipe dst seq intact) s = .next (s.setHw
        (((h.raise 0x601 dst).planeFail dst c.plane).noteCheckFail dst)).settle)) ∧
  (∀ (src dst : Slice) (pipe : Fin 9) (s : State),
    exec (.reseqTimeout src pipe dst) s = .next (s.setHw (s.hw.declareLost (src.val, pipe.val, dst.val))).settle ∧
    ((s.hw.stream (src.val, pipe.val, dst.val)).held = [] → (s.hw.stream (src.val, pipe.val, dst.val)).reasm = none →
      s.hw.declareLost (src.val, pipe.val, dst.val) = s.hw)) ∧
  (∀ (src : Slice) (x : Notice) (s : State),
    let mine (loss : Bool) (x : Notice) : Bool := x.key.1 == src.val && x.loss == loss
    (s.hw.notices.find? (mine true) = some x →
      exec (.lossNotice src) s = .next (s.setHw (({ s.hw with notices := delFirst (mine true) s.hw.notices } : Hw).countOut x))) ∧
    (s.hw.notices.find? (mine false) = some x →
      exec (.releaseAck src) s = .next (s.setHw (({ s.hw with notices := delFirst (mine false) s.hw.notices } : Hw).countOut x)))) ∧
  (∀ (v : Word) (s : State),
    let ps := (List.range 4).filter (fun p =>
      bit v.toNat p && !bit (s.hw.rd .XB_STATUS_plane_up) p && !s.hw.restoring.contains p)
    exec (.planeRestore v) s = .next (s.setHw { s.hw with restoring := s.hw.restoring ++ ps })) ∧
  (∀ (plane : Fin 4) (s : State), s.hw.restoring.contains plane.val = true →
    let h : Hw := { s.hw with restoring := s.hw.restoring.filter (· != plane.val) }
    exec (.planeRestoreDone plane true) s = .next (s.setHw
      ((h.setBit .XB_STATUS_plane_up plane).over ((h.setBit .XB_STATUS_plane_up plane).formers.map (·.stream))
        (fun h k => h.runStream k h.formers.length))) ∧
    exec (.planeRestoreDone plane false) s = .next (s.setHw (h.setBit .XB_STATUS_restore_failed plane)))

/-- A slice's buffer pool: allocation of a clock, frees and refused frees, carving and the account check (R244, R245, R249,
R250, R252, R254). -/
def Obligations.BufferPools : Prop :=
  (∀ (n : Slice) (t : Fin 8) (s : State),
    exec (.allocRequest n t) s = .next (s.setHw
      (((((List.range 8).map (fun i => (t.val + i) % 8)).foldl (fun (a : List (Nat × Nat) × Hw) k => a.2.servePort n k a.1)
        ([], s.hw)).2).rebuildBitmaps n)).settle) ∧
  (∀ (n : Slice) (f : FreeReq) (b : Buf) (s : State), s.hw.frees.find? (fun f => f.sl == n.val) = some f →
    let h : Hw := { s.hw with frees := delFirst (fun f => f.sl == n.val) s.hw.frees }
    ((h.pool f.sl).bufs.find? (fun e => e.1 == f.buffer) = some (f.buffer, b) → b.tag = f.tag → 1 < b.refs →
      exec (.bufferFree n) s = .next (s.setHw
        (h.setBuf f.sl f.buffer f.tag (fun b => { b with refs := b.refs - 1 })))) ∧
    ((h.pool f.sl).bufs.find? (fun e => e.1 == f.buffer) = some (f.buffer, b) → b.tag = f.tag → b.refs ≤ 1 →
      exec (.bufferFree n) s = .next (s.setHw
        (let k := h.setPool f.sl { h.pool f.sl with
          bufs := (h.pool f.sl).bufs.filter (fun e => e.1 != f.buffer), taken := (h.pool f.sl).taken.filter (· != f.buffer) }
         k.wr .BP_ALLOW_used (h.rd .BP_ALLOW_used (f.tag / 512) f.sl - units (bufDenom f.buffer)) (f.tag / 512) f.sl))) ∧
    ((h.pool f.sl).bufs.find? (fun e => e.1 == f.buffer) = none →
      exec (.bufferFree n) s = .next (s.setHw
        (h.freeRefused f 0 (FMap.get (fun _ => 0) (h.pool f.sl).tags f.buffer))))) ∧
  (∀ (n : Slice) (v : Word) (s : State),
    (s.hw.slicePower n ≠ 3 → (s.hw.pool n).bufs = [] → carveOk v.toNat = true →
      exec (.bpCarveWrite n v) s = .next (s.setHw (s.hw.setVal .BP_CARVE v.toNat 0 n))) ∧
    (s.hw.slicePower n = 3 ∨ (s.hw.pool n).bufs ≠ [] ∨ carveOk v.toNat = false →
      exec (.bpCarveWrite n v) s = .next (s.setHw (s.hw.wr .BP_STATUS_carve_refused 1 0 n)))) ∧
  (∀ (n : Slice) (s : State), (s.hw.pool n).taken = [] → (s.hw.pool n).bufs = [] →
    let used := ((List.range 104).map (fun r => s.hw.rd .BP_ALLOW_used r n)).foldl (· + ·) 0
    (used = 0 → exec (.poolAccountCheck n) s = .next s) ∧
    (used ≠ 0 → exec (.poolAccountCheck n) s = .next (s.setHw
      ((s.hw.raise 0x615 n).wr .BP_STATUS_account_fault 1 0 n))))

/-- A queued copy becomes visible, is picked or ages; gate lists switch and advance; accounts are checked (R258, R266, R273,
R275, R279, R281, R253). -/
def Obligations.QueuesAndPicks : Prop :=
  (∀ (n : Slice) (c q : Nat) (s : State), s.hw.copyQueue n c = some q →
    (∀ x ∈ (s.hw.queue n q).copies, x.id = c → x.whole = true) →
    exec (.copyVisible n c) s = .next (s.setHw
      (s.hw.setQueue n q ((s.hw.queue n q).upd c (fun c => { c with visible := true }))))) ∧
  (∀ (p : Port) (pipe : Fin 9) (q : Nat) (c : QCopy) (r : List QCopy) (h : Hw) (s : State),
    s.hw.takesEgress (portSl p) pipe = true →
    let l := s.hw.each 16 (fun h q => h.checkLink (portSl p) (portQ p q))
    let d := l.over ((List.range 16).filter (l.deferred? p)) (fun h q =>
      (h.qCount (portSl p) (portQ p q) 6).pm (portSl p) 0x54)
    (d.pick p = (none, h) → exec (.schedulerPick p pipe) s = .next (s.setHw h)) ∧
    (d.pick p = (some q, h) → (h.queue (portSl p) (portQ p q)).die = c :: r →
      exec (.schedulerPick p pipe) s = .next (s.setHw
        ((h.dequeue (portSl p) (portQ p q) c).sendCopy (portSl p) pipe (portQ p q) c
          (h.on .TM_QCFG_purchased (portQ p q) (portSl p) && bit (h.sched p).slots q)
          (if h.gated p q then some (h.counted (portSl p) (portQ p q) c.size, h.gateEnd p q h.now) else none))))) ∧
  (∀ (n : Slice) (s : State), (∀ q ∈ s.hw.busyQueues n, s.hw.rd .TM_QCFG2_age_ms q n = 0) →
    exec (.queueAgeScan n) s = .next s) ∧
  (∀ (n : Slice) (s : State),
    (∀ q ∈ (s.hw.queues.filter (fun e => e.1 / 2048 == n.val)).map (fun e => e.1 % 2048),
      (s.hw.heldLengths n (s.hw.queue n q)).foldl (· + ·) 0 = (s.hw.queue n q).occ ∧
        (s.hw.heldLengths n (s.hw.queue n q)).length = (s.hw.queue n q).cnt) →
    exec (.queueAccountCheck n) s = .next s) ∧
  (∀ (p : Port) (v : Word) (s : State), bit v.toNat 63 = true → s.hw.on .TM_GCLCMD_pending (portIx p) (portSl p) = false →
    0 < bits v.toNat 42 32 → bits v.toNat 42 32 ≤ 1024 → s.hw.now + usUnits 10 ≤ s.hw.val .TM_GCLBASE (portIx p) (portSl p) →
    exec (.gclGo p v) s = .next (s.setHw
      (((s.hw.wr .TM_GCLCMD_admin_len (bits v.toNat 42 32) (portIx p) (portSl p)).setSched p
        { s.hw.sched p with newLen := bits v.toNat 42 32, newStart := s.hw.val .TM_GCLBASE (portIx p) (portSl p) }).wr
        .TM_GCLCMD_pending 1 (portIx p) (portSl p)))) ∧
  (∀ (p : Port) (s : State), s.hw.on .TM_GCLCMD_pending (portIx p) (portSl p) = true →
    exec (.gclSwitch p) s = .next (s.setHw ((s.hw.reachTime (s.hw.sched p).newStart).regate p (fun h =>
      let x := h.sched p
      let b := 1 - h.operBank p
      let k := (h.wr .TM_GCLCMD_pending 0 (portIx p) (portSl p)).wr .TM_GCLCMD_oper_bank b (portIx p) (portSl p)
      let k := k.wr .TM_GCLCMD_cycle_us (k.cycle p b x.newLen / 800) (portIx p) (portSl p)
      (k.setSched p { x with len := x.newLen, base := x.newStart, newLen := 0, newStart := 0 }).syncEntry p))).settle) ∧
  (∀ (p : Port) (s : State),
    let x := s.hw.sched p
    exec (.gateEntryAdvance p) s = .next (s.setHw
      ((s.hw.reachTime (x.start + s.hw.gateSpan p (s.hw.operBank p) x.entry)).regate p (fun h => h.syncEntry p))).settle)

/-- The deep buffer: a copy spilled, a block read, arrived and judged, a queue purged, and the region (R359, R361, R362,
R363, R364, R365, R366). -/
def Obligations.DeepBuffer : Prop :=
  (∀ (n : Slice) (k c : Nat) (x : QueueSt) (y : QCopy) (r : List QCopy) (b : Buf) (h : Hw) (s : State),
    s.hw.queues.find? (fun e => e.1 / 2048 == n.val && (e.2.spill.head?.map (·.id)) == some c) = some (k, x) →
    x.spill = y :: r → s.hw.buf? n y.desc.buffer y.desc.tag = some b → y.whole = true → x.purge = none →
    s.hw.on .HM_DB_enable n = true → s.hw.stackActive (s.hw.rd .HM_DB_base n) = true →
    let d := packCopy y.desc.len y.requester y.desc.colour y.desc.replica (k % 2048) y.enq b.ext b.bytes
    s.hw.mayAccess (stackOf (s.hw.rd .HM_DB_base n)) 2 (ceilDiv d.length 64) = true →
    s.hw.packInto n (k % 2048) d y.desc.len y.desc.ed b.info = some h →
    exec (.spillWrite n c) s = .next (s.setHw
      ((((((h.setQueue n (k % 2048) { h.queue n (k % 2048) with spill := r }).free n y.desc.buffer y.desc.tag).ledger n
        [charge y.desc.tenant 11 y.desc.len]).qCount n (k % 2048) 5).bump .HM_CNT 0).pm n 0x52 1 none 15
        (some y.desc.tenant)))) ∧
  (∀ (n : Slice) (q : Fin 1536) (b b' : Nat) (r : List Nat) (s : State),
    let x := s.hw.queue n q
    let a := s.hw.blockAddr n b
    let used := leNat (s.hw.load (a + 10) 2)
    let size := ceilDiv (64 + used) 64 * 64
    x.blocks = b :: b' :: r → x.onDie ≤ 512 * s.hw.rd .TM_QCFG2_spill_kib q n → x.purge = none → x.stage.length < 16 →
    s.hw.stackActive (s.hw.rd .HM_DB_base n) = true →
    ((s.hw.queues.filter (fun e => e.1 / 2048 == n.val)).flatMap (fun e => e.2.stage.map (fun s =>
      ceilDiv (64 + s.used) 64 * 64))).foldl (· + ·) 0 + size ≤ 524288 →
    s.hw.mayAccess (stackOf a) 0 (size / 64) = true →
    exec (.drainBlockRead n q) s = .next (s.setHw
      ((s.hw.setQueue n q { x with blocks := b' :: r, stage := x.stage ++ [⟨b, used, none⟩] }).granules 0 a size))) ∧
  (∀ (n : Slice) (q : Fin 1536) (b : StageBlk) (s : State),
    (s.hw.queue n q).stage.find? (fun s => s.copies.isNone) = some b → (s.hw.queue n q).purge = none →
    exec (.drainBlockArrived n q) s = .next (s.setHw
      (let r := s.hw.takeInBlock n q b.block 0
       let h := r.2.bump .HM_CNT 1
       let x := h.queue n q
       let stage := if r.1.isEmpty then delFirst (fun y => y.copies.isNone) x.stage
         else updFirst (fun y => y.copies.isNone) (fun y => { y with copies := some r.1 }) x.stage
       h.setQueue n q ({ x with stage := stage } : QueueSt).rested))) ∧
  (∀ (n : Slice) (q : Fin 1536) (s : State),
    exec (.purgeWalk n q) s = .next (s.setHw (s.hw.purgeWalk n q)) ∧
    ((s.hw.queue n q).purge = none ∨ s.hw.stackActive (s.hw.rd .HM_DB_base n) = false → s.hw.purgeWalk n q = s.hw)) ∧
  (∀ (n : Slice) (s : State),
    let held := ((s.hw.queues.filter (fun e => e.1 / 2048 == n.val)).map (fun e => e.2.walkBlocks.length)).foldl (· + ·) 0
    (s.hw.rd .HM_DB_STAT_in_use n = held + s.hw.rd .HM_DB_STAT_lost n → exec (.dbAccountCheck n) s = .next s) ∧
    (s.hw.rd .HM_DB_STAT_in_use n ≠ held + s.hw.rd .HM_DB_STAT_lost n →
      exec (.dbAccountCheck n) s = .next (s.setHw (s.hw.raise 0x716 n)))) ∧
  (∀ (n : Slice) (v : Word) (s : State), s.hw.rd .HM_DB_STAT_in_use n = 0 →
    (bit v.toNat 63 = true → regionOk v.toNat = true → exec (.hmDbWrite n v) s = .next (s.setHw
      (((((s.hw.setVal .HM_DB ((bits v.toNat 63 63 <<< 63) + (bits v.toNat 60 40 <<< 40) + bits v.toNat 39 14 * 16384) n).wr
        .HM_DB_STAT_in_use 0 n).wr .HM_DB_STAT_lost 0 n).wr .HM_DB_STAT_high_water 0 n).setDb n DbSt.empty))) ∧
    (bit v.toNat 63 = true → regionOk v.toNat = false →
      exec (.hmDbWrite n v) s = .next (s.setHw (s.hw.wr .HM_DB_STAT_refused 1 n))))

/-- Policers read and written; the ledger's books from a charge to the folio, its chain, its witness and last-gasp (R268,
R270, R288, R289, R291, R294, R304, R307, R309, R310). -/
def Obligations.PolicersAndLedger : Prop :=
  (∀ (n : Slice) (s : State), s.hw.on .TM_POL_CMD_busy = false →
    let i := s.hw.rd .TM_POL_INDEX_index
    let c := polCfg (s.hw.val .TM_POL_CFG0) (s.hw.val .TM_POL_CFG1) (s.hw.val .TM_POL_CFG2)
    let a := s.hw.polAccess i
    exec (.polRead n) s = .next (s.setHw
      (((((a.setVal .TM_POL_CFG0 (a.val .A_POL0 i)).setVal .TM_POL_CFG1 (a.val .A_POL1 i)).setVal .TM_POL_CFG2
        (a.val .A_POL2 i)).setVal .TM_POL_STATE0 (wholeBytes (a.polBuckets i).tc)).setVal .TM_POL_STATE1
        (wholeBytes (a.polBuckets i).te))) ∧
    (¬ (c.mode = 2 ∧ c.pir < c.cir) → c.mode ≠ 3 →
      let k := ((a.setVal .A_POL0 (s.hw.val .TM_POL_CFG0) i).setVal .A_POL1 (s.hw.val .TM_POL_CFG1) i).setVal .A_POL2
        (s.hw.val .TM_POL_CFG2) i
      exec (.polWrite n) s = .next (s.setHw
        (k.setBuckets i ⟨min (a.polBuckets i).tc c.full.tc, min (a.polBuckets i).te c.full.te⟩)) ∧
      exec (.polReset n) s = .next (s.setHw (k.setBuckets i c.full)))) ∧
  (∀ s : State, exec .minuteMark s = .next (s.setHw (s.hw.reachTime (nextMark s.hw.now))).settle) ∧
  (∀ (u : LgUpdate) (r : List LgUpdate) (ok : Bool) (s : State), s.hw.lgq = u :: r →
    exec (.ledgerUpdate ok) s = .next (s.setHw (({ s.hw with lgq := r } : Hw).applyUpdate u ok))) ∧
  (∀ (c : Closing) (s : State), s.hw.lg.closing = some c →
    (c.on = true → exec .settleEnd s = .next (s.setHw
      (s.hw.setLg (fun l => { l with closing := some { c with settling := false } })))) ∧
    (c.settling = false → exec .bookClose s = .next (s.setHw (s.hw.flushAccum.wr .LG_STATUS_walking 1)))) ∧
  (∀ s : State, s.hw.on .LG_STATUS_walking = true → exec .folioPlace s = .next (s.setHw s.hw.finishClose)) ∧
  (∀ (v : Word) (s : State),
    (bits v.toNat 47 32 < 1100 ∨ 10000 < bits v.toNat 47 32 →
      exec (.lgEnable v) s = .next s ∧ exec (.lgDisable v) s = .next s ∧ exec (.lgArm v) s = .next s) ∧
    (1100 ≤ bits v.toNat 47 32 → bits v.toNat 47 32 ≤ 10000 → 5 ≤ bits v.toNat 31 24 → bits v.toNat 31 24 ≤ 200 →
      100 ≤ bits v.toNat 15 0 → bits v.toNat 15 0 ≤ 30000 →
      let h := (((s.hw.wr .LG_CTRL_twin_en (bits v.toNat 61 61)).wr .LG_CTRL_settle_us (bits v.toNat 47 32)).wr
        .LG_CTRL_lg_settle_us (bits v.toNat 31 24)).wr .LG_CTRL_witness_wait_ms (bits v.toNat 15 0)
      let g := h.wr .LG_CTRL_seal_slot (bits v.toNat 19 16)
      (bit v.toNat 63 = true → bit v.toNat 62 = false → s.hw.chain = false → s.hw.on .LG_CTRL_enable = false →
        s.hw.rd .LG_BOOK_BASE_base ≠ 0 → s.hw.rd .LG_RING_base ≠ 0 → s.hw.rd .CX_SEALSLOT_state (bits v.toNat 19 16) = 1 →
        s.hw.on .CX_SEALSLOT_spent (bits v.toNat 19 16) = false →
        exec (.lgEnable v) s = .next (s.setHw ((g.wr .LG_CTRL_enable 1).wr .LG_CTRL_lg_arm 0))) ∧
      (s.hw.chain = true → bit v.toNat 63 = false → bit v.toNat 62 = false →
        exec (.lgDisable v) s = .next (s.setHw ((h.wr .LG_CTRL_enable 0).wr .LG_CTRL_lg_arm 0))) ∧
      (s.hw.chain = true → bit v.toNat 63 = true → bit v.toNat 62 = true → s.hw.on .LG_CTRL_enable = true → h.on .LG_CTRL_lg_arm = false →
        h.canArm = true → exec (.lgArm v) s = .next (s.setHw (h.wr .LG_CTRL_lg_arm 1))))) ∧
  (∀ s : State, s.hw.lg.awaiting = true → exec .witnessWaitTimeout s = .next (s.setHw
    (((s.hw.setLg (fun l => { l with awaiting := false, witness := none })).lgEvent 4).raise 0xB09 8))) ∧
  (∀ s : State, s.hw.on .LG_STATUS_lastgasp = true → s.hw.lg.gasp = none →
    let h := s.hw.flushAccum.finishClose
    nth h.lg.bookOn h.openParity false = true →
    exec .lgSettleEnd s = .next (s.setHw
      (let f := h.makeFolio 2 h.openParity (h.lg.openStart / (60 * unitsPerSecond)) h.lg.openStart h.lg.cut h.lg.postCut
       (((f.2.2.setLg (fun l => { l with gasp := some f.1 })).wr .LG_STATUS_chain 0).wr .LG_CTRL_lg_arm 0).lgEvent 5))) ∧
  (∀ (k : Fin 4) (d : List Byte) (s : State), s.hw.lg.gasp = some d → s.hw.held = false →
    s.hw.lg.gaspDone.contains k.val = false → s.hw.on .LG_LGPORT_valid k = true → s.hw.lgPortOk k = true →
    (s.hw.link (s.hw.rd .LG_LGPORT_port k) = 5 → exec (.lastGaspSend k) s = .next (s.setHw
      (let h := s.hw.gaspFolio k d
       (h.over h.unreleased (fun h x => (h.fetch 5 x.1 x.2).2.gaspFolio k (h.load x.1 x.2))).gaspEnd k)).settle) ∧
    (s.hw.link (s.hw.rd .LG_LGPORT_port k) ≠ 5 → exec (.lastGaspSend k) s = .next (s.setHw (s.hw.gaspEnd k)).settle))

/-- SA maps, packet numbers, the import of keys and the release of a shadow (R314, R316, R320, R321, R322). -/
def Obligations.AssociationKeys : Prop :=
  (∀ (p : Port) (rx : Bool) (v : Word) (s : State),
    let n := if rx then RegName.CX_RXMAP else .CX_TXMAP
    ((List.range 4).any (fun a => bits v.toNat (16 * a + 14) (16 * a + 13) != 0) = false →
      (mapSlots v.toNat).any (fun x => s.hw.on .CX_SA_mapped x) = false → hasRepeat (mapSlots v.toNat) = false →
      s.hw.val n p = 0 →
      exec (.saMapWrite p rx v) s = .next (s.setHw ((s.hw.setVal n v.toNat p).over (mapSlots v.toNat) (fun h x =>
        ((h.wr .CX_SA_mapped 1 x).wr .CX_SA_dir (ofBool rx) x).wr .CX_SA_port p x)))) ∧
    ((List.range 4).any (fun a => bits v.toNat (16 * a + 14) (16 * a + 13) != 0) = true →
      exec (.saMapWrite p rx v) s = .next (s.setHw ((s.hw.wr .CX_STATUS_refused 1).wr .CX_STATUS_cause 3)))) ∧
  (∀ (p : Fin 8192) (v : Word) (s : State),
    (s.hw.val .CX_PN p < v.toNat → v.toNat < s.hw.val .CX_PNWARN (s.hw.rd .CX_SA_suite p) → s.hw.rd .CX_SA_dir p = 1 →
      exec (.pnWrite p v) s = .next (s.setHw (s.hw.setVal .CX_PN v.toNat p))) ∧
    (v.toNat ≤ s.hw.val .CX_PN p →
      exec (.pnWrite p v) s = .next (s.setHw ((s.hw.wr .CX_STATUS_refused 1).wr .CX_STATUS_cause 2)))) ∧
  (∀ (v : Word) (s : State), s.hw.on .CX_IMPORT_CMD_busy = false → bit v.toNat 63 = true →
    exec (.keyImport v) s = .next (s.setHw
      (s.hw.setVal .CX_IMPORT_CMD (v.toNat &&& 0xBE0F1FFF00000000 ||| 0x4000000000000000 ||| 0x8000000000000000)))) ∧
  (∀ s : State, s.hw.on .CX_IMPORT_CMD_busy = true →
    let method := s.hw.rd .CX_IMPORT_CMD_method
    let kind := s.hw.rd .CX_IMPORT_CMD_kind
    let slot := s.hw.rd .CX_IMPORT_CMD_slot
    let suite := s.hw.rd .CX_IMPORT_CMD_suite
    (s.hw.importRefusal method kind slot suite ≠ 0 →
      exec .keyImportDone s = .next (s.setHw (s.hw.importEnd (s.hw.importRefusal method kind slot suite) 0))) ∧
    (s.hw.importRefusal method kind slot suite = 0 → kind ≠ 0 →
      exec .keyImportDone s = .next (s.setHw
        (let h := s.hw.kekCheck method (s.hw.rd .CX_IMPORT_CMD_kek_slot)
         match h.importKey method kind slot (s.hw.rd .CX_IMPORT_CMD_kek_slot) with
        | .error e => h.importEnd e 0
        | .ok k => h.loadKey kind slot suite k)))) ∧
  (∀ (p : Fin 8192) (s : State),
    (s.hw.on .CX_SA_shadow p = true → s.dev.inFlight p (fun b => b.gen != s.hw.rd .CX_SA_generation p) = 0 →
      exec (.shadowRelease p) s = .next (s.setHw ((s.hw.clearKey .A_SAK p 1).wr .CX_SA_shadow 0 p))) ∧
    (s.hw.on .CX_SA_shadow p = false → exec (.shadowRelease p) s = .next s))

/-- Erase, zeroization, the scrub of master copies and the random generator's health (R323, R326, R328, R329). -/
def Obligations.KeyErasure : Prop :=
  (∀ (v : Word) (s : State), s.hw.on .CX_ERASE_busy = false → bit v.toNat 62 = true → bits v.toNat 61 60 ≠ 3 →
    bits v.toNat 12 0 < keySlots (bits v.toNat 61 60) →
    let h := (s.hw.setVal .CX_ERASE ((1 <<< 63) + (bits v.toNat 61 60 <<< 60) + bits v.toNat 12 0)).wipe
      (bits v.toNat 61 60) (bits v.toNat 12 0)
    exec (.keyErase v) s = .next (s.setHw
      (if bits v.toNat 61 60 = 0 then h.note (.keyGone (some (bits v.toNat 12 0)) 0xA6 (s.hw.slotKeys (bits v.toNat 12 0)))
        else h)).settle) ∧
  (∀ s : State, s.hw.on .CX_ERASE_busy = true → exec .eraseVerified s = .next (s.setHw
    ((s.hw.emptied (s.hw.rd .CX_ERASE_kind) (s.hw.rd .CX_ERASE_slot)).wr .CX_ERASE_busy 0))) ∧
  (∀ (src : Fin 8) (s : State),
    (src.val = 0 ∨ src.val = 1 ∨ src.val = 5 ∨ bit (s.hw.rd .CX_ALARM_EN_enables) src = true →
      exec (.zeroize src) s = .next (s.setHw
        (let h := (((s.hw.setBit .CX_ALARM_sources src).wr .CX_STATUS_zeroizing 1).raise 0xA07 8).over [0, 1, 2]
          (fun h k => h.over (h.heldSlots k) (fun h x => (h.wipe k x).emptied k x))
         ({ h with cx := ⟨none, none⟩ } : Hw).note
          (.keyGone none 0xA6 ((s.hw.heldSlots 0).flatMap s.hw.slotKeys)))).settle) ∧
    (src.val ≠ 0 → src.val ≠ 1 → src.val ≠ 5 → bit (s.hw.rd .CX_ALARM_EN_enables) src = false →
      exec (.zeroize src) s = .next s.settle)) ∧
  (∀ s : State, s.hw.on .CX_STATUS_zeroizing = true →
    exec (.zeroizeVerify false) s = .next (s.setHw
      (({ s.hw.over [0, 1, 2] (fun h k => h.over (h.heldSlots k) (fun h x => h.wipe k x)) with cx := ⟨none, none⟩ } : Hw).raise
        0xA06 8)) ∧
    ∃ t, exec (.zeroizeVerify true) s = .next t ∧ t.hw.io.zeroized = true ∧ s.SameOutside t) ∧
  (∀ s : State, (∀ k < 3, ∀ x ∈ s.hw.heldSlots k, s.hw.rd (keyState k) x = 1 →
      s.hw.good ⟨keyArray k, 0, 0, x⟩ = true ∧
      (k = 0 → s.hw.rd .CX_SA_shadow x = 1 → s.hw.good ⟨.A_SAK, 0, 1, x⟩ = true)) →
    exec .keyScrub s = .next s.settle) ∧
  (∀ (x : Nat) (s : State), s.hw.heldSlots 0 = [] → s.hw.heldSlots 1 = [] → s.hw.heldSlots 2 = [x] →
    s.hw.rd (keyState 2) x = 1 → s.hw.good ⟨keyArray 2, 0, 0, x⟩ = false →
    exec .keyScrub s = .next (s.setHw (s.hw.keyFailed 2 x)).settle) ∧
  (∀ s : State,
    exec .rngHealthFail s = .next (s.setHw (((s.hw.wr .CX_STATUS_rng_ok 0).raise 0xA05 8).zeroize 6)).settle ∧
    exec .rngHealthPass s = .next (s.setHw (s.hw.wr .CX_STATUS_rng_ok 1)))

/-- The general check units: claim, ownership, feeding, folding, comparing (R338, R339, R340, R341), and the reserved encodings that
are ignored (R516). -/
def Obligations.CheckUnits : Prop :=
  ∀ (c : Clerk) (u : Fin 16) (s : State),
    let foreign : State := s.setHw ((s.hw.wr .CK_USTATUS_foreign 1 u).count .CK_CNT_count 3)
    (∀ v : Word,
      (s.hw.rd .CK_UCTRL_owner u = 15 → bit v.toNat 63 = true → bit v.toNat 62 = false →
        exec (.ckClaim c u v) s = .next (s.setHw ((s.hw.wr .CK_UCTRL_owner c u).ckFields u v.toNat))) ∧
      (s.hw.rd .CK_UCTRL_owner u ≠ 15 → s.hw.rd .CK_UCTRL_owner u ≠ c →
        exec (.ckClaim c u v) s = .next foreign ∧ exec (.ckRelease c u v) s = .next foreign) ∧
      (s.hw.rd .CK_UCTRL_owner u = c → bit v.toNat 62 = true →
        exec (.ckRelease c u v) s = .next (s.setHw ((s.hw.ckFields u v.toNat).wr .CK_UCTRL_owner 15 u))) ∧
      (s.hw.rd .CK_UCTRL_owner u = c → exec (.ckWindowWrite c u v) s = .next (s.setHw
        (s.hw.ckFeed u (if s.hw.on .CK_UCTRL_order u 0 1 then beBytes 8 v.toNat else leBytes 8 v.toNat)))) ∧
      (s.hw.rd .CK_UCTRL_owner u ≠ c → exec (.ckWindowWrite c u v) s = .next foreign)) ∧
    (s.hw.rd .CK_UCTRL_owner u ≠ c → exec (.ckStart c u) s = .next foreign ∧
      (∀ n : Fin 8, exec (.ckTail c u n) s = .next foreign) ∧ (∀ x : Byte, exec (.ckFold c u x) s = .next foreign) ∧
      (∀ a : Bool, exec (.ckCompare c u a) s = .next foreign)) ∧
    (s.hw.rd .CK_UCTRL_owner u = c →
      (let h := (s.hw.wr .CK_UCTRL_poly (s.hw.rd .CK_UCTRL_poly u) u 0 1)
       let h := h.wr .CK_UCTRL_order (s.hw.rd .CK_UCTRL_order u) u 0 1
       exec (.ckStart c u) s = .next (s.setHw
        ((((h.setVal .CK_URESULT (h.val .CK_UINIT u % 2 ^ (h.ckPoly u).width) u).wr .CK_USTATUS_bytes 0 u).wr
          .CK_USTATUS_match 0 u).wr .CK_USTATUS_mismatch 0 u))) ∧
      (∀ n : Fin 8, n.val ≠ 0 → exec (.ckTail c u n) s = .next (s.setHw
        (s.hw.ckFeed u ((s.hw.ckBytes u (s.hw.val .CK_UTAIL u)).take n)))) ∧
      exec (.ckTail c u 0) s = .next s ∧
      (∀ x : Byte,
        (structureCodes.contains x.toNat = true → exec (.ckFold c u x) s = .next (s.setHw
          (s.hw.ckFeed u (beBytes 1 x.toNat ++ beBytes 8 (s.hw.val .CK_UFOLD u))))) ∧
        (structureCodes.contains x.toNat = false → exec (.ckFold c u x) s = .next s)) ∧
      (let h := s.hw.count .CK_CNT_count 0
       exec (.ckCompare c u false) s = .next (s.setHw
         (((h.wr .CK_USTATUS_unit_fault 1 u).raise 0x902 8).count .CK_CNT_count 2)) ∧
       (h.val .CK_URESULT u % 2 ^ (h.ckPoly u).width = h.val .CK_UEXPECT u % 2 ^ (h.ckPoly u).width →
         exec (.ckCompare c u true) s = .next (s.setHw (h.wr .CK_USTATUS_match 1 u))) ∧
       (h.val .CK_URESULT u % 2 ^ (h.ckPoly u).width ≠ h.val .CK_UEXPECT u % 2 ^ (h.ckPoly u).width →
         exec (.ckCompare c u true) s = .next (s.setHw
           (let k := (h.wr .CK_USTATUS_mismatch 1 u).count .CK_CNT_count 1
            if k.on .CK_UCTRL_fault_en u then k.raise 0x901 8 else k)))))

/-- An HBM stack's state commands, training, margin and error log (R356, R357, R358, R516). -/
def Obligations.StackStates : Prop :=
  (∀ (k : Stack) (v : Word) (s : State),
    (bit v.toNat 63 = true → s.hw.on .HM_STACKCMD_busy k = true →
      exec (.stackSetState k v) s = .next s ∧ exec (.stackRetrain k v) s = .next s) ∧
    (let h := s.hw.wr .HM_STACKCMD_rate (if bits v.toNat 53 52 = 3 then 0 else bits v.toNat 53 52) k
     bit v.toNat 63 = true → s.hw.on .HM_STACKCMD_busy k = false → bits v.toNat 61 60 = 1 →
      (bits v.toNat 57 56 = s.hw.rd .HM_STACKSTAT_state k →
        exec (.stackSetState k v) s = .next (s.setHw (h.stackResult k 1))) ∧
      (bits v.toNat 57 56 ≠ s.hw.rd .HM_STACKSTAT_state k →
        (bits v.toNat 57 56 = 0 → h.stackHoldsBlocks k = false ∧ h.stackHoldsLedger k = false) →
        exec (.stackSetState k v) s = .next (s.setHw
          ((((h.wr .HM_STACKCMD_op 1 k).wr .HM_STACKCMD_state (bits v.toNat 57 56) k).wr .HM_STACKCMD_busy 1 k).wr
            .HM_STACKSTAT_training (ofBool (s.hw.rd .HM_STACKSTAT_state k == 0)) k)))) ∧
    (let h := s.hw.wr .HM_STACKCMD_rate (if bits v.toNat 53 52 = 3 then 0 else bits v.toNat 53 52) k
     bit v.toNat 63 = true → s.hw.on .HM_STACKCMD_busy k = false → bits v.toNat 61 60 = 2 →
      (s.hw.rd .HM_STACKSTAT_state k = 2 → exec (.stackRetrain k v) s = .next (s.setHw
        ((((h.wr .HM_STACKCMD_op 2 k).wr .HM_STACKCMD_state 2 k).wr .HM_STACKCMD_busy 1 k).wr
          .HM_STACKSTAT_training 1 k))) ∧
      (s.hw.rd .HM_STACKSTAT_state k ≠ 2 →
        exec (.stackRetrain k v) s = .next (s.setHw (h.wr .HM_STACKCMD_result 2 k))))) ∧
  (∀ (k : Stack) (trained : Bool) (s : State),
    (s.hw.on .HM_STACKCMD_busy k = false → exec (.stackCmdDone k trained) s = .next s) ∧
    (s.hw.on .HM_STACKCMD_busy k = true → s.hw.rd .HM_STACKCMD_op k = 1 → s.hw.rd .HM_STACKSTAT_state k = 2 →
      exec (.stackCmdDone k trained) s = .next (s.setHw
        ((s.hw.stackEnter k (s.hw.rd .HM_STACKCMD_state k)).stackResult k 1))) ∧
    (s.hw.on .HM_STACKCMD_busy k = true → s.hw.rd .HM_STACKSTAT_state k = 0 →
      exec (.stackCmdDone k false) s = .next (s.setHw ((s.hw.stackEnter k 0).stackResult k 5)))) ∧
  (∀ (k : Stack) (margin : Byte) (s : State), s.hw.rd .HM_STACKSTAT_state k = 3 →
    (margin.toNat < s.hw.rd .HM_SHARE_margin_thr k → nth s.hw.hbm.low k false = false →
      exec (.marginLow k margin) s = .next (s.setHw
        (((s.hw.wr .HM_STACKSTAT_margin margin.toNat k).setHbm (fun b => { b with low := setNth b.low k true })).setBit
          .HM_EVENT_events 2))) ∧
    (s.hw.rd .HM_SHARE_margin_thr k ≤ margin.toNat →
      exec (.marginLow k margin) s = .next (s.setHw
        ((s.hw.wr .HM_STACKSTAT_margin margin.toNat k).setHbm (fun b => { b with low := setNth b.low k false }))))) ∧
  (∀ (v : Word) (s : State), bit v.toNat 62 = true →
    exec (.hmErrlogClear v) s = .next (s.setHw (s.hw.wr .HM_ERRLOG_valid 0)))

/-- HBM requests, those that wait for a tracker, the burst a pseudo-channel issues, refresh, starvation and patrol (R346, R347,
R349, R350, R351, R352, R355). -/
def Obligations.HbmTraffic : Prop :=
  (∀ (r : HbmOp) (s : State), hbmOpOk r = true →
    let q : HbmReq := ⟨r.addr.toNat, hbmOpBytes r, r.cls, r.write.isSome, false⟩
    let free : Bool := s.hw.hbm.trackerFree (stackOf r.addr.toNat) r.cls
    let behind : Bool := s.hw.hbm.waiting.any (fun w => w.1.stack == stackOf r.addr.toNat && w.1.cls == q.cls)
    (s.hw.stackActive r.addr.toNat = true → free = true → behind = false →
      exec (.hbmRequest r) s = .next (s.setHw
        (((match r.write with | some d => s.hw.store r.addr.toNat d | none => s.hw).requests r.cls r.addr.toNat
          (hbmOpBytes r)).setHbm (fun b => { b with reqs := b.reqs ++ [q] })))) ∧
    (s.hw.stackActive r.addr.toNat = true → free = false ∨ behind = true →
      exec (.hbmRequest r) s = .next (s.setHw (s.hw.setHbm (fun b => { b with waiting := b.waiting ++ [(q, r.write)] })))) ∧
    (s.hw.stackActive r.addr.toNat = false → exec (.hbmRequest r) s = .next s)) ∧
  (∀ (k : Stack) (pc : Fin 32) (parity : Bool) (corr uncorr : List Nat) (s : State), 2 ≤ s.hw.rd .HM_STACKSTAT_state k →
    (let p := nth (nth s.hw.hbm.ptr k []) pc 0
     p < 64 →
      (8 ≤ s.hw.hbm.owed k (64 * pc + p) →
        exec (.hbmBurstIssue k ⟨pc, parity⟩ corr uncorr) s = .next (s.setHw
          (let h := s.hw.setHbm (fun m => { m with ptr := setNth m.ptr k (setNth (nth m.ptr k []) pc ((p + 1) % 64)) })
           let h := (h.rtDelayed k (64 * pc + p)).scnt k 8
           h.setHbm (fun m => { m with
             rows := m.rows.filter (fun e => e.1 != (k.val, 64 * pc + p))
             debt := setNth m.debt k (setNth (nth m.debt k []) (64 * pc + p) (m.owed k (64 * pc + p) - 1)) })))) ∧
      (∀ r : HbmReq, s.hw.hbm.owed k (64 * pc + p) < 8 → s.hw.hbm.nearDue k (64 * pc + p) 8 = false →
        (s.hw.ready k (64 * pc + p)).find? (fun r => r.cls == 0) = some r →
        exec (.hbmBurstIssue k ⟨pc, parity⟩ corr uncorr) s = .next (s.setHw
          ((s.hw.setHbm (fun m => { m with ptr := setNth m.ptr k (setNth (nth m.ptr k []) pc ((p + 1) % 64)) })).hbmBurst
            k r parity corr uncorr)))) ∧
    ((∀ b < 64, s.hw.hbm.owed k (64 * pc + b) = 0 ∧ s.hw.hbm.queue k (64 * pc + b) = []) → s.hw.hbm.near = [] →
      exec (.hbmBurstIssue k ⟨pc, parity⟩ corr uncorr) s = .next s)) ∧
  (∀ (k : Stack) (s : State), 2 ≤ s.hw.rd .HM_STACKSTAT_state k →
    exec (.refreshInterval k) s = .next (s.setHw
      ((s.hw.setHbm (fun b => { b with
        debt := setNth b.debt k ((nth s.hw.hbm.debt k []).map (fun x => min 8 (x + 1)))
        near := b.near.map (fun x => if x.1 = k.val then (x.1, x.2.1, x.2.2 + 1) else x) })).each
          (((nth s.hw.hbm.debt k []).filter (8 ≤ ·)).length) (fun m _ => m.raise 0x712 8)))) ∧
  (∀ (k : Stack) (pc : Fin 32) (a z : List HbmReq) (r : HbmReq) (s : State),
    let mine (r : HbmReq) : Bool := r.stack == k.val && bankOf r.addr / 64 == pc.val && !r.starved
    s.hw.hbm.reqs = a ++ r :: z → mine r = true → a.all (fun x => !mine x) = true →
    exec (.starvePick k pc) s = .next (s.setHw
      (s.hw.setHbm (fun b => { b with reqs := a ++ { r with starved := true } :: z })))) ∧
  (∀ (k : Stack) (corr uncorr : List Nat) (s : State), s.hw.stackActive (stackBase k) = true →
    exec (.patrol k corr uncorr) s = .next (s.setHw
      ((((s.hw.scnt k 4 (0x600000000 / 512)).sectorErrors k 4
        (fun x => inHbm (64 * x) && stackOf (64 * x) == k.val) corr uncorr).scnt k 13).activate
        ((List.range 2048).map (fun i => stackBase k + 512 * (i / 64) + 16384 * (i % 64) + 12287 * 2 ^ 21)))))

/-- Halting, starting, resetting, waking, kicking and watching a clerk; its stores and rings (R371, R372, R373, R374, R376,
R377). -/
def Obligations.ClerkControl : Prop :=
  (∀ (c : Clerk) (s : State), s.hw.clerkPower c = 0 →
    exec (.clerkHalt c) s = .next s ∧ exec (.clerkStart c) s = .next s ∧ exec (.clerkReset c) s = .next s) ∧
  (∀ (c : Clerk) (s : State), s.hw.clerkPower c ≠ 0 →
    (s.hw.clerkState c ≠ 2 → exec (.clerkHalt c) s = .next (s.setHw (s.hw.setClerkState c 0))) ∧
    (s.hw.clerkState c = 2 → exec (.clerkHalt c) s = .next (s.setHw
      ((s.hw.setClerk c (fun x => { x with ua := waitPoint })).setClerkState c 0))) ∧
    (s.hw.clerkState c = 0 → exec (.clerkStart c) s = .next (s.setHw
      (s.hw.setClerkState c (if (s.hw.clerk c).ua = waitPoint then 2 else 1)))) ∧
    exec (.clerkReset c) s = .next (s.setHw
      ((s.hw.setClerk c (fun _ => { ClerkSt.reset with ua := s.hw.rd .MC_ENTRY_entry c })).setClerkState c 1).watch)) ∧
  (∀ (c : Clerk) (s : State), s.hw.clerkPower c = 3 → s.hw.clerkState c = 2 →
    s.hw.wakeBits c &&& s.hw.rd .MC_WAKE_enable c ≠ 0 →
    exec (.clerkTaskWake c) s = .next (s.setHw
      ((s.hw.setClerk c (fun x => { x with ua := s.hw.rd .MC_ENTRY_entry c, rstack := [] })).setClerkState c 1))) ∧
  (∀ (c : Clerk) (s : State), exec (.clerkKick c) s = .next (s.setHw (s.hw.wr .MC_WAKE_kick 1 c)) ∧
    (s.hw.rd .MC_WDOG_timeout_us c = 0 → exec (.clerkWatchdog c) s = .next s) ∧
    (s.hw.rd .MC_WDOG_timeout_us c ≠ 0 → exec (.clerkWatchdog c) s = .next (s.setHw
      (((s.hw.wr .MC_WDOG_fired 1 c).raise 0x303 8).count .MC_CNT_count 5)))) ∧
  (∀ (off : BitVec 20) (v : Word) (s : State), 0x10000 ≤ off.toNat → off.toNat < 0x30000 → off.toNat % 8 = 0 →
    let c := (off.toNat - 0x10000) / 0x4000
    (s.hw.clerkState c = 0 ∨ s.hw.clerkState c = 3 → microCause v.toNat = 0 →
      exec (.clerkStoreWrite off v) s = .next (s.setHw (s.hw.setStore .MC_UW 0 0 ((off.toNat - 0x10000) / 8) v.toNat))) ∧
    (s.hw.clerkState c ≠ 0 → s.hw.clerkState c ≠ 3 →
      exec (.clerkStoreWrite off v) s = .next (s.setHw
        ((s.hw.wr .MC_STATUS_store_refused 1).wr .MC_STATUS_store_clerk c)))) ∧
  (∀ (c : Clerk) (v : Word) (s : State),
    let base := bits v.toNat 39 6 * 64
    let log2 := bits v.toNat 63 60
    (ringOk base log2 = true → exec (.rxRingConfig c true v) s = .next (s.setHw
      ((s.hw.wr .MC_TXRING_log2_slots log2 c).wr .MC_TXRING_base base c))) ∧
    (ringOk base log2 = true → 7 * bits v.toNat 47 40 ≤ bits v.toNat 57 48 →
      exec (.rxRingConfig c false v) s = .next (s.setHw
        ((((s.hw.wr .MC_RXRING_log2_slots log2 c).wr .MC_RXRING_mirror_free (bits v.toNat 57 48) c).wr .MC_RXRING_step
          (bits v.toNat 47 40) c).wr .MC_RXRING_base base c))) ∧
    (ringOk base log2 = false →
      exec (.rxRingConfig c true v) s = .next (s.setHw (s.hw.wr .MC_STATUS_ring_refused 1)) ∧
      exec (.rxRingConfig c false v) s = .next (s.setHw (s.hw.wr .MC_STATUS_ring_refused 1))))

/-- A clerk's microword, a returning load and a word of a block operation (R110, R112, R135, R136, R141, R371). -/
def Obligations.ClerkExecution : Prop :=
  (∀ (c : Clerk) (s : State), s.hw.executes c = false →
    exec (.clerkNanoWord c) s = .next s.settle ∧ exec (.blockWord c) s = .next s.settle) ∧
  (∀ (c : Clerk) (w nano : Nat) (h : Hw) (s : State), s.hw.executes c = true →
    (s.hw.sampleMicroword c).clerkFetch c = (some (w, nano), h) → loadWait nano (h.clerk c).loads = false →
    (blockOf (h.clerkEnv c 0) nano).isSome = false →
    let e := h.clerkEnv c (uwImm w)
    let r := e.operations [] h.now nano
    let h1 := h.setClerk c (fun x => { x with x := r.reg.map (BitVec.ofNat 64), c := r.cond.take 16 })
    let m := MemRun.slots ⟨h1, 0, 0, [], [], none, false⟩ c e nano
    (m.cause = 0 → m.moved = false → h.seqCause c w = 0 →
      exec (.clerkNanoWord c) s = .next (s.setHw
        (((m.hw.setClerk c (fun x => { m.regs.foldl (fun (x : ClerkSt) p => x.put p.1 p.2) x with
          cas := m.cas.getD x.cas, loads := x.loads ++ m.loads })).goOn c w).pmClerk c 1).watch).settle) ∧
    (m.cause ≠ 0 → m.cause ≠ 5 →
      exec (.clerkNanoWord c) s = .next (s.setHw (h.clerkExcept c m.cause (h.clerk c).ua m.addr)).settle)) ∧
  (∀ (c : Clerk) (l : Nat × Word) (r : List (Nat × Word)) (s : State), (s.hw.clerk c).loads = l :: r →
    exec (.clerkLoadReturn c) s = .next (s.setHw
      (s.hw.setClerk c (fun x => { x.put l.1 l.2.toNat with loads := r })))) ∧
  (∀ (c : Clerk) (w nano : Nat) (k : MemSlot) (h : Hw) (s : State), s.hw.executes c = true →
    s.hw.clerkFetch c = (some (w, nano), h) → loadWait nano (h.clerk c).loads = false →
    blockOf (h.clerkEnv c (uwImm w)) nano = some k → k.op ≠ 6 →
    let x := (h.clerk c).x.map BitVec.toNat
    let dst := nth x k.xa 0 % 2 ^ 40
    let o := Originator.clerk c
    (h.judge o true false dst 8 ≠ 0 →
      exec (.blockWord c) s = .next (s.setHw
        (h.clerkExcept c (h.judge o true false dst 8) (h.clerk c).ua dst).watch).settle) ∧
    (let b := (h.blockStep c k x).busWrite o dst 8 (nth x k.xd 0)
     let h4 := b.2.2.countAccess c 6 dst
     h.judge o true false dst 8 = 0 → b.2.1 = false → restarts c dst (nth x k.xd 0) = false →
      nth ((h4.clerk c).x) k.xc 0#64 ≠ 0#64 →
      exec (.blockWord c) s = .next (s.setHw h4.watch).settle))

/-- The punt gate, the clerk's inject and direct frames, and the fuses (R375, R376, R377, R378, R380, R381, R382, R387). -/
def Obligations.ClerkPaths : Prop :=
  (∀ (p : Punt) (rest : List Punt) (s : State), nextPunt [] s.hw.punts = some (p, rest) →
    (s.hw.gateAccepts p.bytes.length = false → exec .puntArrival s = .next (s.setHw
      (((({ s.hw with punts := rest } : Hw).count .MC_CNT_count 0).count .MC_CNT_count 1).puntDrop p 0x72))) ∧
    let h := (({ s.hw with punts := rest } : Hw).gateTake p.bytes.length).count .MC_CNT_count 0
    (s.hw.gateAccepts p.bytes.length = true → h.on .MC_CLASS_enable p.cls = false → exec .puntArrival s = .next (s.setHw (h.puntDrop p 0x75))) ∧
    (let k := h.setBucket p.cls (h.lacking p.cls + unitsPerSecond, h.up)
     let c := k.rd .MC_CLASS_clerk p.cls
     let mirror := k.on .MC_CLASS_kind p.cls
     s.hw.gateAccepts p.bytes.length = true → h.on .MC_CLASS_enable p.cls = true →
      h.lacking p.cls + unitsPerSecond ≤ h.rd .MC_CLASSB_burst p.cls * unitsPerSecond →
      k.rd .MC_RXRING_base c ≠ 0 →
      (if mirror then k.rd .MC_RXRING_mirror_free c else k.rd .MC_RXRING_step c * (7 - k.rd .MC_CLASS_priority p.cls))
        < k.rxFree c →
      exec .puntArrival s = .next (s.setHw (k.puntEnter p c mirror)))) ∧
  (∀ (c : Clerk) (n : Slice) (pipe : Fin 9) (a : Nat) (t : TxSlot) (disagree : Bool) (s : State),
    s.hw.txHead c = some (a, t) →
    (s.hw.txValid c t = true → t.mode = 0 → portSl t.port = n.val → s.hw.sliceFrozen n = false →
      s.hw.inactive n = false → s.hw.held = false → s.hw.admits n pipe = true →
      exec (.clerkInject c n ⟨pipe, disagree⟩) s = .next (s.setHw
        (let d := s.hw.load (a + 32) t.len
         let d := d ++ fcsOf d
         let f := ((((s.hw.txNext c).count .MC_CNT_count 2).pmClerk c 0x0D).maskUse n [sliceWord]).fresh
         let h := f.2
         h.admitCarried n pipe ⟨t.tenant, tagCheck t.tenant h.current t.port h.now, h.current, 0, true, false, false, false,
           t.port, h.now, d.length, 0, 0⟩ d (some 0) (clerkInfo f.1) disagree)).settle) ∧
    (s.hw.txValid c t = false → t.mode ≠ 1 →
      exec (.clerkInject c n ⟨pipe, disagree⟩) s = .next (s.setHw (s.hw.txSkip c)).settle) ∧
    (s.hw.txValid c t = true → t.mode = 1 → s.hw.inactive (portSl t.port) = false →
      exec (.clerkDirect c) s = .next (s.setHw
        (let d := s.hw.load (a + 32) t.len
         let d := d ++ fcsOf d
         let f := ((((s.hw.txNext c).count .MC_CNT_count 3).pmClerk c 0x0D).ledger 8 [] 1 1 0).fresh
         let h := f.2
         let g := h.arrive (portSl t.port) (8, 15, portSl t.port) (directMd t h.current h.now d.length) (clerkInfo f.1) d c
         match g.2.landing? g.1 with
         | some l => (g.2.setLanding { l with tail := some 0 }).writeLanding g.1
         | none => g.2)).settle)) ∧
  (∀ (v : Word) (s : State), bit v.toNat 63 = true → bit v.toNat 61 = false →
    (bits v.toNat 57 56 = 1 → s.hw.on .MC_CTRL_priv_lock = false → bits v.toNat 5 0 ≤ 3 →
      bits v.toNat 5 0 ≠ s.hw.rd .MC_BOOT_key →
      exec (.fuseRevoke (.clerk 0) v) s = .next (s.setHw
        ((s.hw.setBit .MC_FUSE_revoked (bits v.toNat 5 0)).note (.revoke (bits v.toNat 5 0)))).settle) ∧
    (bits v.toNat 57 56 = 2 → s.hw.on .MC_CTRL_priv_lock = false → s.hw.rd .MC_FUSE_min_version < bits v.toNat 5 0 →
      exec (.fuseRaise (.clerk 0) v) s = .next (s.setHw
        ((s.hw.wr .MC_FUSE_min_version (bits v.toNat 5 0)).note (.raiseVersion (bits v.toNat 5 0)))).settle) ∧
    (∀ o : Originator, o ≠ .clerk 0 →
      (bits v.toNat 57 56 = 1 → exec (.fuseRevoke o v) s = .next (s.setHw (s.hw.wr .MC_FUSECMD_refused 1)).settle) ∧
      (bits v.toNat 57 56 = 2 → exec (.fuseRaise o v) s = .next (s.setHw (s.hw.wr .MC_FUSECMD_refused 1)).settle)))

/-- Boot: the straps, the sources in their order, an image accepted or refused (R384, R385, R386, R388). -/
def Obligations.BootSources : Prop :=
  (∀ (straps : Fin 4) (s : State),
    (s.hw.io.rom = true ∨ s.hw.romServes = false → exec (.bootStart straps) s = .next s) ∧
    (s.hw.io.rom = false → s.hw.romServes = true →
      let h : Hw := { s.hw with io := { s.hw.io with rom := true, sources := bootOrder straps } }
      let h := ((h.wr .GL_STRAPS_boot_src straps).setVal .MC_BOOT 0).wr .MC_STATUS_state 0
      let h := h.each 8 (fun h n => h.wr .SD_REFSTAT_present 7 0 n)
      exec (.bootStart straps) s = .next (s.setHw (if straps = 3 then h.bootRecovery else h)))) ∧
  (∀ (image : Option (List Byte)) (rest : List Nat) (s : State),
    (s.hw.io.sources = [] ∨ s.hw.io.sources = 2 :: rest → exec (.bootSourceDone image) s = .next s)) ∧
  (∀ (src : Nat) (rest : List Nat) (s : State), s.hw.io.sources = src :: rest → src ≠ 2 →
    let h : Hw := { s.hw with io := { s.hw.io with sources := rest } }
    exec (.bootSourceDone none) s = .next (s.setHw ((h.bootResult src 2).raise 0xE01 8)) ∧
    (∀ d : List Byte,
      let h := h.store bootArea (d.take bootAreaSize)
      exec (.bootSourceDone (some d)) s = .next (s.setHw
        (if h.bootJudge d = 1 then
          let k := h.bootResult src 1
          (({ k with io := { k.io with sources := [] } } : Hw).wr .MC_BOOT_source src).bootLoad d
        else (h.bootResult src (h.bootJudge d)).raise 0xE01 8))))

/-- The transmit window: pushing, assembling, judging, losing and resynchronising slips (R392, R393, R395, R396, R397). -/
def Obligations.SlipTransport : Prop :=
  (∀ (v : Word) (s : State),
    (s.hw.rd .TW_HSTATUS_state = 2 → exec (.txwinPush v) s = .next (s.setHw (s.hw.twCount 4))) ∧
    (s.hw.rd .TW_HSTATUS_state ≠ 2 → s.hw.txFree = 0 → exec (.txwinPush v) s = .next (s.setHw
      (let h := ((s.hw.wr .TW_HSTATUS_tx_overflow 1).raise 0xD03 8).twCount 6
       h.dropUnjudged.lose false 6 0 (s.hw.rd .TW_HSTATUS_expect_seq)))) ∧
    (s.hw.rd .TW_HSTATUS_state ≠ 2 → s.hw.txFree ≠ 0 → exec (.txwinPush v) s = .next (s.setHw
      (s.hw.setTw (fun t => { t with fifo := t.fifo ++ [v] })).assemble))) ∧
  (∀ s : State, s.hw.tw.phase ≠ .complete → exec .slipComplete s = .next s) ∧
  (∀ s : State, s.hw.tw.phase = .complete →
    let ws := s.hw.tw.slip
    let seq := bits (nth ws 0 0#64).toNat 31 0
    let expect := s.hw.rd .TW_HSTATUS_expect_seq
    let check := bits (ws.getLastD 0#64).toNat 31 0
    (slipCheck 0 seq ws.dropLast ≠ check → exec .slipComplete s = .next (s.setHw
      (((s.hw.raise 0xD01 8).twCount 1).loseSlip 1 seq expect))) ∧
    (slipCheck 0 seq ws.dropLast = check → seq ≠ expect →
      exec .slipComplete s = .next (s.setHw
        (((if s.hw.rd .TW_HSTATUS_state = 2 then s.hw else s.hw.wr .TW_HSTATUS_state 0).twCount 2).replyError 2 expect))) ∧
    (slipCheck 0 seq ws.dropLast = check → seq = expect → slipReserved ws = false →
      (s.hw.romServes = false ∨ s.hw.slipOp = 1 ∨ s.hw.slipOp = 5) →
      ∃ t, exec .slipComplete s = .next t ∧ t.hw.tw = { s.hw.tw with phase := .execute } ∧ s.SameOutside t)) ∧
  (∀ s : State, s.hw.tw.phase = .none → s.hw.rd .TW_HSTATUS_state = 1 →
    exec .slipIdleTimeout s = .next (s.setHw
      (((s.hw.raise 0xD02 8).twCount 3).loseSlip 5 (bits (nth s.hw.tw.slip 0 0#64).toNat 31 0)
        ((s.hw.tw.slip.length <<< 32) + s.hw.rd .TW_HSTATUS_expect_seq)))) ∧
  (∀ s : State, s.hw.tw.phase = .none → exec .resync s = .next (s.setHw
    ((s.hw.setTw (fun t => { t with fifo := [], slip := [], emptied := false })).wr .TW_HSTATUS_state 0))) ∧
  (∀ s : State, s.hw.tw.phase ≠ .none → exec .resync s = .next (s.setHw
    ((s.hw.setTw (fun t => { t with fifo := [], emptied := true })).wr .TW_HSTATUS_state 0))) ∧
  (∀ s : State, exec .hostBadAccess s = .next (s.setHw (s.hw.wr .TW_HSTATUS_bad_access 1)))

/-- The six slip opcodes: what each does and how it is answered (R399, R401, R402, R403, R404, R406). -/
def Obligations.SlipOpcodes : Prop :=
  (∀ s : State, s.hw.executing 1 = true → exec .echo s = .next (s.setHw (s.hw.reply 3 0 s.hw.slipPayload))) ∧
  (∀ s : State, s.hw.executing 2 = true →
    let a := bits s.hw.slipParam 39 0
    let w := s.hw.hostWrite a 0 s.hw.slipPayload
    (a % 8 ≠ 0 → exec .writeWords s = .next (s.setHw (s.hw.replyError 9 0)).settle) ∧
    (a % 8 = 0 → w.1 = none → exec .writeWords s = .next (s.setHw w.2.done.watch).settle) ∧
    (∀ k st : Nat, a % 8 = 0 → w.1 = some (k, st) →
      exec .writeWords s = .next (s.setHw (w.2.replyError st k).watch).settle)) ∧
  (∀ s : State, s.hw.executing 3 = true →
    let a := bits s.hw.slipParam 39 0
    let n := bits (nth s.hw.tw.slip 1 0#64).toNat 52 40
    (n = 0 ∨ 4093 < n → exec .readWords s = .next (s.setHw (s.hw.replyError 15 0))) ∧
    (n ≠ 0 → n ≤ 4093 → a % 8 ≠ 0 → exec .readWords s = .next (s.setHw (s.hw.replyError 9 0))) ∧
    (∀ (ws : List Word) (h : Hw), n ≠ 0 → n ≤ 4093 → a % 8 = 0 → s.hw.hostRead a 0 n = (.ok ws, h) →
      exec .readWords s = .next (s.setHw (h.reply 3 0 ws).watch))) ∧
  (∀ s : State, s.hw.executing 4 = true →
    let c := bits s.hw.slipParam 42 40
    let base := s.hw.rd .TW_REQRING_base c
    let slots := 2 ^ s.hw.rd .TW_REQRING_log2_slots c
    let prod := s.hw.rd .TW_REQPROD_prod c
    (s.hw.clerkState c = 0 ∨ s.hw.clerkState c = 3 → exec .runProgram s = .next (s.setHw (s.hw.replyError 12 c))) ∧
    (s.hw.clerkState c ≠ 0 → s.hw.clerkState c ≠ 3 → base ≠ 0 → between prod (s.hw.rd .TW_REQCONS_cons c) < slots →
      exec .runProgram s = .next (s.setHw
        ((((s.hw.store (base + 0x8000 * (prod % slots)) (s.hw.tw.slip.flatMap (fun w => leBytes 8 w.toNat))).wr
          .TW_REQPROD_prod (prod + 1) c).kick c).endSlip))) ∧
    (s.hw.clerkState c ≠ 0 → s.hw.clerkState c ≠ 3 → base ≠ 0 → slots ≤ between prod (s.hw.rd .TW_REQCONS_cons c) →
      exec .runProgram s = .next (s.setHw (s.hw.setTw (fun t => { t with phase := .waiting }))))) ∧
  (∀ s : State, s.hw.slotWait 4 = true →
    let c := bits s.hw.slipParam 42 40
    (s.hw.ringFull c = true →
      exec .clerkBusy s = .next (s.setHw (s.hw.replyError 13 c)) ∧
      exec .runProgram s = .next (s.setHw (s.hw.setTw (fun t => { t with phase := .waiting })))) ∧
    (s.hw.ringFull c = false →
      exec .clerkBusy s = .next s ∧ exec .runProgram s = .next (s.setHw
        ((((s.hw.store (s.hw.rd .TW_REQRING_base c + 0x8000 * (s.hw.rd .TW_REQPROD_prod c % 2 ^ s.hw.rd .TW_REQRING_log2_slots c))
          (s.hw.tw.slip.flatMap (fun w => leBytes 8 w.toNat))).wr .TW_REQPROD_prod (s.hw.rd .TW_REQPROD_prod c + 1) c).kick
            c).endSlip)))) ∧
  (∀ s : State, s.hw.executing 5 = true →
    let base := if s.hw.romServes then bootArea else s.hw.rd .TW_IMGBASE_base
    let size := if s.hw.romServes then bootAreaSize else 2 ^ 27
    let off := bits s.hw.slipParam 23 0
    let w := s.hw.stage (base + 8 * off) 0 s.hw.slipPayload
    base ≠ 0 →
      (size / 8 < off + s.hw.slipPayload.length → exec .loadImage s = .next (s.setHw (s.hw.replyError 15 0)).settle) ∧
      (off + s.hw.slipPayload.length ≤ size / 8 → w.1 = none → bit w.2.slipParam 47 = false →
        exec .loadImage s = .next (s.setHw w.2.done).settle)) ∧
  (∀ s : State, s.hw.on .CX_IMPORT_CMD_busy = false →
    (s.hw.executing 6 = true → exec .importKey s = .next (s.setHw
      ((((s.hw.setVal .CX_IMPORT_PN (nth s.hw.slipPayload 0 0#64).toNat).each 17 (fun h w =>
        h.setVal .CX_IMPORT_BUF (nth s.hw.slipPayload (w + 1) 0#64).toNat w)).importStart
          (2 ^ 63 + (s.hw.slipParam <<< 32))).setTw (fun t => { t with phase := .importing })))) ∧
    (s.hw.tw.phase = .importing → exec .importKey s = .next (s.setHw
      (s.hw.reply 1 0 [BitVec.ofNat 64 (s.hw.view .CX_IMPORT_STATUS 0 0)]))))

/-- Placing and consuming receipts, a clerk's receipt, the endpoint reset (R394, R405, R407, R408). -/
def Obligations.Receipts : Prop :=
  (∀ (v : Word) (s : State),
    (s.hw.tw.level < v.toNat % 16384 → exec (.rxpop v) s = .next (s.setHw (s.hw.wr .TW_HSTATUS_bad_pop 1))) ∧
    (v.toNat % 16384 = 0 → exec (.rxpop v) s = .next s) ∧
    (v.toNat % 16384 ≠ 0 → v.toNat % 16384 ≤ s.hw.tw.level → exec (.rxpop v) s = .next (s.setHw
      (s.hw.setTw (fun t => { t with rx := dropWords (v.toNat % 16384) t.rx }))))) ∧
  (∀ s : State, s.hw.tw.out = [] → exec .receiptPlace s = .next s) ∧
  (∀ (clerk : Option Nat) (slip : Bool) (ws : List Word) (rest : List (Option Nat × Bool × List Word)) (s : State),
    s.hw.tw.out = (clerk, slip, ws) :: rest →
    (8192 < s.hw.tw.level + ws.length → exec .receiptPlace s = .next s) ∧
    (s.hw.tw.level + ws.length ≤ 8192 → exec .receiptPlace s = .next (s.setHw
      (let h := s.hw.setTw (fun t => { t with out := rest, rx := t.rx ++ [ws] })
       let h := match clerk with | some c => h.wr .TW_CRCMD_busy 0 c | none => h
       let h := (h.twCount 5).twEvent 0
       let h := if bits (ws.headD 0).toNat 63 56 = 2 then h.twEvent 1 else h
       if slip then h.endSlip else h)))) ∧
  (∀ (c : Clerk) (v : Word) (s : State),
    let n := bits v.toNat 11 0
    (s.hw.on .TW_CRCMD_busy c = true ∨ bit v.toNat 63 = false ∨ n = 0 ∨ 4094 < n →
      exec (.clerkReceipt c v) s = .next s) ∧
    (s.hw.on .TW_CRCMD_busy c = false → bit v.toNat 63 = true → n ≠ 0 → n ≤ 4094 →
      let ws := (List.range n).map (fun w => s.hw.reg ⟨.TW_CRCPT, 0, 0, 4094 * c + w⟩)
      exec (.clerkReceipt c v) s = .next (s.setHw ((s.hw.wr .TW_CRCMD_busy 1 c).produce (some c.val) false 4
        (bits v.toNat 55 48) (ws.headD 0) ws.tail)))) ∧
  (∀ s : State, ∃ t, exec .endpointReset s = .next t ∧ t.hw.tw.fifo = [] ∧ t.hw.tw.rx = [] ∧ t.hw.tw.out = [] ∧
    t.hw.ev.msixOn = false ∧ t.hw.ev.masked = false ∧ s.SameOutside t)

/-- Interrupt entry, polled claims, completion and exit, timers and doorbells (R413, R418, R419, R420, R421, R422). -/
def Obligations.ClerkEvents : Prop :=
  (∀ (c : Clerk) (gone : Bool) (s : State), s.hw.checkCopies = s.hw →
    (s.hw.clerkPower c ≠ 3 ∨ s.hw.clerkState c = 0 ∨ s.hw.clerkState c = 3 →
      exec (.interruptEntry ⟨c, gone⟩) s = .next s) ∧
    (∀ (id level : Nat), s.hw.clerkPower c = 3 → s.hw.clerkState c = 1 ∨ s.hw.clerkState c = 2 →
      gone = true ∨ (s.hw.deliverable c false).isSome = true → s.hw.deliverable c true = some (id, level) →
      exec (.interruptEntry ⟨c, gone⟩) s = .next (s.setHw
        (s.hw.startHandler c id level ⟨(s.hw.clerk c).ua, s.hw.clerkState c == 2, (s.hw.clerk c).c,
          (s.hw.clerk c).rstack.length⟩))) ∧
    (s.hw.clerkPower c = 3 → s.hw.clerkState c = 1 ∨ s.hw.clerkState c = 2 → s.hw.deliverable c true = none →
      exec (.interruptEntry ⟨c, true⟩) s = .next (s.setHw (s.hw.evCount c 1))) ∧
    (s.hw.clerkPower c = 3 → s.hw.clerkState c = 1 →
      (s.hw.deliverable c true = none →
        exec (.polledClaim c) s = .next (s.setHw ((s.hw.evCount c 1).setVal .EV_CLAIM 0))) ∧
      (∀ id level : Nat, s.hw.deliverable c true = some (id, level) →
        exec (.polledClaim c) s = .next (s.setHw
          ((s.hw.setClerk c (fun x => { x with stack := ⟨level, id, none⟩ :: x.stack })).watch.setVal .EV_CLAIM
            (2 ^ 63 + (level <<< 16) + id)))))) ∧
  (∀ (c : Clerk) (v : Word) (e : EvEntry) (r : List EvEntry) (s : State), s.hw.clerkPower c = 3 → s.hw.clerkState c = 1 →
    (s.hw.clerk c).stack = e :: r →
    let h := s.hw.setClerk c (fun x => { x with stack := r })
    (e.id = v.toNat % 8192 → e.resume = none → exec (.evDone c v) s = .next (s.setHw h.watch)) ∧
    (∀ p : Resume, e.id = v.toNat % 8192 → e.resume = some p →
      exec (.evDone c v) s = .next (s.setHw (h.exitHandler c p).watch)) ∧
    (e.id ≠ v.toNat % 8192 → exec (.evDone c v) s = .next (s.setHw
      (((s.hw.wr .EV_CSTAT_done_order 1 c).raise 0x3A1 8).evCount c 3).watch))) ∧
  (∀ (c : Clerk) (s : State),
    (s.hw.rd .EV_TIMER_count c ≠ 0 → exec (.evTimerExpiry c) s = .next (s.setHw
      ((s.hw.wr .EV_TIMER_count 0 c).wr .EV_CSTAT_timer 1 c))) ∧
    (s.hw.rd .EV_TIMER_count c = 0 → exec (.evTimerExpiry c) s = .next s)) ∧
  (∀ (v : Word) (s : State),
    (∀ w : Fin 16, exec (.softSet (.shared w) v) s = .next (s.setHw
      (s.hw.setVal .EV_SOFT (s.hw.val .EV_SOFT w ||| v.toNat) w))) ∧
    (∀ c : Clerk, exec (.softSet (.priv c) v) s = .next (s.setHw
      (s.hw.setVal .EV_PSOFT (s.hw.val .EV_PSOFT c ||| (bits v.toNat 63 16 <<< 16)) c))))

/-- Stranded sources, source configuration, MSI-X messages and their masks (R414, R416, R424, R425, R426). -/
def Obligations.HostEvents : Prop :=
  (∀ (n : Fin 2048) (s : State), s.hw.checkCopies = s.hw →
    (s.hw.srcPending n = true → s.hw.unavailable n = true → bit (s.hw.val .EV_STRANDED (n / 64)) (n % 64) = false →
      exec (.strandTimeout n) s = .next (s.setHw ((s.hw.setBit .EV_STRANDED_bits (n % 64) (n / 64)).evCount 8 2))) ∧
    (s.hw.srcPending n = false ∨ s.hw.unavailable n = false ∨ bit (s.hw.val .EV_STRANDED (n / 64)) (n % 64) = true →
      exec (.strandTimeout n) s = .next s)) ∧
  (∀ (n : Fin 2048) (v : Word) (s : State),
    (8 < bits v.toNat 11 8 → exec (.evSrcWrite n v) s = .next s) ∧
    (bits v.toNat 11 8 ≤ 8 →
      let level := if bits v.toNat 3 0 = 15 ∧ faultSource n = false then 14 else bits v.toNat 3 0
      let target := if n.val = 110 then 8 else bits v.toNat 11 8
      let h := ((s.hw.setVal .EV_SRC ((bits v.toNat 21 16 <<< 16) + (target <<< 8) + level) n).mark ⟨.EV_SRC, 0, 0, n⟩ false)
      let h := h.mark ⟨.EV_SRC, 0, 1, n⟩ false
      let h : Hw := { h with ev := { h.ev with split := h.ev.split.filter (· != n.val) } }
      (h.unavailable n = true → exec (.evSrcWrite n v) s = .next (s.setHw h.watch)) ∧
      (h.unavailable n = false → exec (.evSrcWrite n v) s = .next (s.setHw
        (h.setVal .EV_STRANDED (setBits (h.val .EV_STRANDED (n / 64)) (n % 64) (n % 64) 0) (n / 64)).watch)))) ∧
  (∀ (k : Fin 64) (s : State),
    let h := s.hw.checkCopies.watch
    (h.vecPending k = true → h.ev.announced.contains k.val = false → h.vecOpen k = true →
      exec (.msixSend k) s = .next (s.setHw (({ h with
        sent := h.sent ++ [Out.msix (h.val .A_MSIX_ADDR k) (h.val .A_MSIX_DATA k)]
        ev := { h.ev with announced := h.ev.announced.filter (· != k.val) ++ [k.val] } } : Hw).evCount 8 0))) ∧
    (h.vecPending k = false ∨ h.ev.announced.contains k.val = true → exec (.msixSend k) s = .next (s.setHw h))) ∧
  (∀ (k : Fin 64) (s : State),
    let h := s.hw.setVal .A_MSIX_CTL 0 k
    (bit (s.hw.val .A_MSIX_CTL k) 0 = true → h.vecOpen k = true → h.vecPending k = true →
      exec (.vectorUnmask k) s = .next (s.setHw (h.sendVector k))) ∧
    (bit (s.hw.val .A_MSIX_CTL k) 0 = false → exec (.vectorUnmask k) s = .next (s.setHw h))) ∧
  (∀ (enable mask master : Bool) (s : State), s.hw.ev.masked = false ∨ mask = true →
    exec (.msixFunctionControl enable mask master) s = .next (s.setHw
      { s.hw with ev := { s.hw.ev with msixOn := enable, masked := mask, master := master } }))

/-- The performance counter sets: running, clearing, overflowing and sampling (R429, R433, R434, R435). -/
def Obligations.CounterSets : Prop :=
  (∀ (n : Slice) (v : Word) (s : State),
    let h := (s.hw.wr .PM_CTRL_run (bits v.toNat 63 63) 0 n).wr .PM_CTRL_freeze_on_sample (bits v.toNat 0 0) 0 n
    exec (.pmRun (.slice n) v) s = .next (s.setHw (if bit v.toNat 62 then h.setVal .PM_CYCLES 0 0 n else h)) ∧
    exec (.cycClear (.slice n)) s = .next (s.setHw (s.hw.setVal .PM_CYCLES 0 0 n))) ∧
  (∀ (c : Clerk) (v : Word) (s : State),
    let h := (s.hw.wr .MC_PMCTRL_run (bits v.toNat 63 63) c).wr .MC_PMCTRL_freeze_on_sample (bits v.toNat 0 0) c
    exec (.pmRun (.clerk c) v) s = .next (s.setHw (if bit v.toNat 62 then h.setVal .MC_PMCYCLES 0 c else h)) ∧
    exec (.cycClear (.clerk c)) s = .next (s.setHw (s.hw.setVal .MC_PMCYCLES 0 c))) ∧
  (∀ (n : Slice) (k : Fin 8) (s : State), s.hw.wraps.contains (false, n.val, k.val) = true →
    let h := ({ s.hw with wraps := delFirst (· == (false, n.val, k.val)) s.hw.wraps } : Hw).setBit .PM_STATUS_ovf k 0 n
    (h.on .PM_SEL_sample_en k n = false → exec (.counterOverflow (.slice n) k) s = .next (s.setHw h)) ∧
    (h.on .PM_SEL_sample_en k n = true → h.on .PM_SAMPLE_valid 0 n = false → h.armedSet (false, n.val) = none →
      h.on .PM_CTRL_freeze_on_sample 0 n = false →
      exec (.counterOverflow (.slice n) k) s = .next (s.setHw
        { h with armed := h.armed ++ [⟨false, n, k, none⟩] })) ∧
    (h.on .PM_SEL_sample_en k n = true → h.on .PM_SAMPLE_valid 0 n = true →
      h.on .PM_CTRL_freeze_on_sample 0 n = false →
      exec (.counterOverflow (.slice n) k) s = .next (s.setHw (h.countSat .PM_STATUS_missed 0 n)))) ∧
  (∀ (t : PmSet) (k : Fin 8) (s : State), s.hw.wraps.contains ((pmKey t).1, (pmKey t).2, k.val) = false →
    exec (.counterOverflow t k) s = .next s) ∧
  (∀ (c : Clerk) (k ua depth : Nat) (s : State), s.hw.armedSet (true, c.val) = some ⟨true, c, k, some [ua, depth]⟩ →
    exec (.sampleCapture (.clerk c)) s = .next (s.setHw
      (({ s.hw with armed := delFirst (fun a => a.clerk == true && a.unit == c.val) s.hw.armed } : Hw).setVal .MC_PMSAMPLE
        (2 ^ 63 + (k <<< 60) + ((depth % 16) <<< 56) + ua % 2048) c))) ∧
  (∀ (t : PmSet) (s : State), s.hw.armedSet (pmKey t) = none → exec (.sampleCapture t) s = .next s)

/-- The Shogen fabric: the member number, hellos sent and received, a dead link, the reach table (R437, R440, R441, R442,
R443, R446, R447, R448). -/
def Obligations.FabricLinks : Prop :=
  (∀ (v : Word) (s : State),
    ((∀ p < 768, s.hw.fabricPort p = true → s.hw.cfg .PT_CFG_enable p ≠ 1) →
      exec (.sfMemberWrite v) s = .next (s.setHw (s.hw.setVal .SF_MEMBER (v.toNat &&& 0x8000000000000FFF)))) ∧
    ((∃ p < 768, s.hw.fabricPort p = true ∧ s.hw.cfg .PT_CFG_enable p = 1) →
      exec (.sfMemberWrite v) s = .next (s.setHw (s.hw.wr .SF_STATUS_member_refused 1)))) ∧
  (∀ (p : Port) (s : State),
    (s.hw.rd .SF_LINK_state p = 1 ∨ s.hw.rd .SF_LINK_state p = 2 → s.hw.link p = 5 → s.hw.silent p = false →
      let h := s.hw.setSf p { s.hw.sf p with tx := ((s.hw.sf p).tx + 1) % 2 ^ 32 }
      let o := h.ownHeader 1 (some 0) none
      exec (.helloSend p) s = .next (s.setHw
        ((o.2.sendOwn p ownEvidence (o.2.sfHead p (o.2.rd .SF_HELLO_DA_address) o.1 ++ o.2.helloPayload p)).sfCount 0)).settle) ∧
    (s.hw.link p ≠ 5 → exec (.helloSend p) s = .next s.settle)) ∧
  (∀ (p : Port) (d : List Byte) (s : State), s.hw.fabricPort p = true →
    let v := leNat (slice (d.drop 30) 12 4)
    let src := (sfHeader (d.drop 14)).src
    let id := leNat (slice (d.drop 30) 0 8)
    let nport := leNat (slice (d.drop 30) 8 2) % 1024
    let flags := byteAt (d.drop 30) 10
    (s.hw.rd .SF_LINK_state p = 0 → exec (.helloRx p d) s = .next s.settle) ∧
    (s.hw.rd .SF_LINK_state p ≠ 0 → d.length < 62 ∨ sfCheck src v (d.drop 14) ≠ fieldAt d 28 2 →
      exec (.helloRx p d) s = .next (s.setHw ((s.hw.dropped (portSl p) 0xC0 0).raise 0xC01 (portSl p) 15 p)).settle) ∧
    (s.hw.rd .SF_LINK_state p ≠ 0 → 62 ≤ d.length → sfCheck src v (d.drop 14) = fieldAt d 28 2 → byteAt d 14 / 16 ≠ 1 →
      exec (.helloRx p d) s = .next (s.setHw (s.hw.dropped (portSl p) 0xC1 0)).settle) ∧
    (62 ≤ d.length → sfCheck src v (d.drop 14) = fieldAt d 28 2 → byteAt d 14 / 16 = 1 → src ≠ s.hw.member →
      src = s.hw.rd .SF_LINK_nbr_member p → id = s.hw.val .SF_NBRID p →
      (s.hw.rd .SF_LINK_state p = 1 → 0 < (s.hw.sf p).heard → (v + 2 ^ 32 - s.hw.rd .SF_LINK_adopted p) % 2 ^ 32 = 1 →
        bit flags 1 = true → s.hw.on .SF_MEMBER_valid = true →
        exec (.helloRx p d) s = .next (s.setHw
          ((s.hw.adopt p v src id nport (bit flags 0) (fieldAt d 6 6)).enterLive p)).settle) ∧
      (s.hw.rd .SF_LINK_state p = 2 → 3 < (v + 2 ^ 32 - s.hw.rd .SF_LINK_adopted p) % 2 ^ 32 →
        exec (.helloRx p d) s = .next (s.setHw (s.hw.sfCount 3)).settle))) ∧
  (∀ (p : Port) (s : State),
    (s.hw.linkLive p = true → exec (.linkDead p) s = .next (s.setHw
      ((((s.hw.leaveLive p 3 true).raise 0xC02 (portSl p) 15 p).sfCount 11).enterSyncing p)).settle) ∧
    (s.hw.linkLive p = false → exec (.linkDead p) s = .next s.settle)) ∧
  (∀ s : State, s.hw.on .SF_REACH_CMD_busy = false →
    exec .reachRead s = .next (s.setHw (s.hw.each 4 (fun h k =>
      h.setVal .SF_REACH_W (h.val .A_REACH (4 * h.rd .SF_REACH_INDEX_member + k)) k))) ∧
    (∀ m : Nat, m = s.hw.rd .SF_REACH_INDEX_member →
      ((∀ j < 16, let x := bits (s.hw.val .SF_REACH_W (j / 4)) (16 * (j % 4) + 15) (16 * (j % 4))
        x % 16 = 0 ∨ (x / 64 < 768 ∧ s.hw.fabricPort (x / 64) = true)) →
        exec .reachWrite s = .next (s.setHw
          ((s.hw.each 4 (fun h k => h.setVal .A_REACH (h.val .SF_REACH_W k &&& 0xFFCFFFCFFFCFFFCF) (4 * m + k))).each 8
            (fun h n => h.mark ⟨.A_REACH, n, 0, m⟩ false)))) ∧
      ((∃ j < 16, let x := bits (s.hw.val .SF_REACH_W (j / 4)) (16 * (j % 4) + 15) (16 * (j % 4))
        x % 16 ≠ 0 ∧ (768 ≤ x / 64 ∨ s.hw.fabricPort (x / 64) = false)) →
        exec .reachWrite s = .next (s.setHw (s.hw.wr .SF_STATUS_reach_refused 1)))))

/-- The twin pair: records sent, heartbeats, records received, the partner lost (R452, R453, R454, R455). -/
def Obligations.TwinPair : Prop :=
  (∀ (p : Nat) (s : State), s.hw.syncLink = some p → s.hw.link p = 5 → s.hw.silent p = false →
    s.hw.on .LG_STATUS_lastgasp = false → s.hw.twin.queue ≠ [] →
    exec .twinRecordSend s = .next (s.setHw
      (let h : Hw := { s.hw with twin := { s.hw.twin with queue := s.hw.twin.queue.drop 15 } }
       (h.sendKind p 3 (some (h.rd .TP_CTRL_partner)) none
         (List.replicate 8 0#8 ++ (s.hw.twin.queue.take 15).flatten)).tpCount 0 (s.hw.twin.queue.take 15).length)).settle) ∧
  (∀ s : State, s.hw.twin.queue = [] → exec .twinRecordSend s = .next s.settle) ∧
  (∀ s : State,
    (s.hw.on .TP_CTRL_enable = true → exec .twinHeartbeat s = .next (s.setHw
      (s.hw.twinQueue 1 0 0 (leBytes 8 (s.hw.val .TP_HOSTWORD) ++ leBytes 1 (s.hw.current + 2 * s.hw.rd .ED_STATUS_other_state)
        ++ List.replicate 7 0#8 ++ leBytes 8 (s.hw.val .GL_DEVICE_ID))))) ∧
    (s.hw.on .TP_CTRL_enable = false → exec .twinHeartbeat s = .next s)) ∧
  (∀ (p : Port) (r : List Byte) (s : State), s.hw.pairLink p = false → exec (.twinRecordRx p r) s = .next s) ∧
  (∀ (p : Port) (r : List Byte) (s : State), r.length = 64 → s.hw.pairLink p = true →
    (s.hw.tpCount 1).on .TP_STATUS_partner_up = true →
    let h := s.hw.tpCount 1
    let seq := leNat (slice r 4 4)
    let ahead := (seq + 2 ^ 32 - h.rd .TP_PEERSTAT_rx_seq) % 2 ^ 32
    (ahead = 0 → exec (.twinRecordRx p r) s = .next (s.setHw
      ((h.wr .TP_PEERSTAT_rx_seq (seq + 1)).twinApply p r))) ∧
    (0 < ahead → ahead < 2 ^ 31 → exec (.twinRecordRx p r) s = .next (s.setHw
      (((((h.wr .TP_STATUS_sync_gap 1).setBit .TP_EVENT_events 2).raise 0xC11 8).wr .TP_PEERSTAT_rx_seq (seq + 1)).twinApply
        p r))) ∧
    (2 ^ 31 ≤ ahead → exec (.twinRecordRx p r) s = .next (s.setHw (h.tpCount 3)))) ∧
  (∀ s : State,
    (s.hw.on .TP_STATUS_partner_up = true → exec .twinPartnerLost s = .next (s.setHw
      (((s.hw.wr .TP_STATUS_partner_up 0).setBit .TP_EVENT_events 1).raise 0xC10 8))) ∧
    (s.hw.on .TP_STATUS_partner_up = false → exec .twinPartnerLost s = .next s))

/-- Power commands of slices, lanes and clerks and their transitions (R461, R463, R464, R465, R466, R468). -/
def Obligations.PowerStates : Prop :=
  (∀ (n : Slice) (v : Word) (s : State), bit v.toNat 63 = true →
    let h := s.hw.wr .PW_SLICECMD_load_bank (if bits v.toNat 53 52 = 3 then 0 else bits v.toNat 53 52) n
    (s.hw.on .PW_SLICECMD_busy n = true → exec (.slicePowerCmd n v) s = .next s.settle) ∧
    (s.hw.on .PW_SLICECMD_busy n = false → h.slicePower n = bits v.toNat 57 56 →
      exec (.slicePowerCmd n v) s = .next (s.setHw (h.sliceEnd n 1)).settle) ∧
    (s.hw.on .PW_SLICECMD_busy n = false → h.slicePower n = 1 → bits v.toNat 57 56 = 3 → h.held = true →
      exec (.slicePowerCmd n v) s = .next (s.setHw (h.sliceEnd n 6)).settle)) ∧
  (∀ (n : Slice) (failed : BitVec 9) (s : State),
    (s.hw.on .PW_SLICECMD_busy n = false → exec (.sliceTransitionDone n failed) s = .next s.settle) ∧
    (s.hw.on .PW_SLICECMD_busy n = true → s.hw.slicePower n = 3 → s.hw.sliceDrained n = false →
      exec (.sliceTransitionDone n failed) s = .next s.settle) ∧
    (s.hw.on .PW_SLICECMD_busy n = true → s.hw.slicePower n = 2 → s.hw.rd .PW_SLICECMD_state n = 3 →
      s.hw.io.forced = [] →
      exec (.sliceTransitionDone n failed) s = .next (s.setHw ((s.hw.setSlice n 3).sliceEnd n 1)).settle) ∧
    (s.hw.on .PW_SLICECMD_busy n = true → s.hw.slicePower n = 3 → s.hw.rd .PW_SLICECMD_state n < 3 →
      exec (.quiesceTimeout n) s = .next (s.setHw ((s.hw.sliceDiscard n).sliceReach n 0)).settle) ∧
    (s.hw.slicePower n ≠ 3 → exec (.quiesceTimeout n) s = .next s.settle)) ∧
  (∀ (l : Lane) (v : Word) (s : State),
    (bits v.toNat 63 62 = 3 ∨ 2 < bits v.toNat 57 55 → exec (.lanePower l v) s = .next s) ∧
    (bits v.toNat 63 62 ≠ 3 → bits v.toNat 57 55 ≤ 2 →
      exec (.lanePower l v) s = .next (s.setHw (s.hw.laneWrite l v.toNat))) ∧
    (s.hw.rd .SD_LANESTAT_pwr_state (portIx l) (portSl l) = s.hw.rd .SD_LANECFG_pwr (portIx l) (portSl l) →
      exec (.laneTransitionDone l) s = .next s.settle) ∧
    (s.hw.rd .SD_LANESTAT_pwr_state (portIx l) (portSl l) = 0 → s.hw.rd .SD_LANECFG_pwr (portIx l) (portSl l) = 2 →
      exec (.laneTransitionDone l) s = .next (s.setHw (s.hw.setLane l 1)).settle)) ∧
  (∀ (c : Clerk) (v : Word) (s : State),
    (bit v.toNat 63 = false ∨ s.hw.on .PW_CLERKCMD_busy c = true ∨ bits v.toNat 57 56 = 2 →
      exec (.clerkPowerCmd c v) s = .next s) ∧
    (bit v.toNat 63 = true → s.hw.on .PW_CLERKCMD_busy c = false → bits v.toNat 57 56 ≠ 2 →
      exec (.clerkPowerCmd c v) s = .next (s.setHw
        (if s.hw.clerkPower c = bits v.toNat 57 56 then s.hw.clerkEnd c 1
         else if s.hw.clerkPower c = 0 ∧ bits v.toNat 57 56 = 1 then s.hw.clerkEnd c 2
         else if bits v.toNat 57 56 = 0 ∧ s.hw.clerkState c ≠ 0 then s.hw.clerkEnd c 5
         else (s.hw.wr .PW_CLERKCMD_busy 1 c).wr .PW_CLERKCMD_state (bits v.toNat 57 56) c)))) ∧
  (∀ (c : Clerk) (s : State), s.hw.on .PW_CLERKCMD_busy c = true →
    (s.hw.rd .PW_CLERKCMD_state c = 0 → exec (.clerkPowerDone c) s = .next (s.setHw
      (((((s.hw.clerkOff c).setClerkState c 0).setClerkPower c 0).clerkEnd c 1).watch))) ∧
    (s.hw.rd .PW_CLERKCMD_state c = 3 → exec (.clerkPowerDone c) s = .next (s.setHw
      (((s.hw.setClerkPower c 3).clerkEnd c 1).watch))) ∧
    (s.hw.rd .PW_CLERKCMD_state c = 1 → (s.hw.clerk c).loads ≠ [] → exec (.clerkPowerDone c) s = .next s))

/-- Supply alarms, power failure, temperature and the clock monitors (R469, R470, R471, R460). -/
def Obligations.SupplyAndHeat : Prop :=
  (∀ (rail : Fin 7) (die : Fin 15) (glitch : Bool) (s : State),
    (railUsed rail die = false → exec (.supplyAlarm rail die glitch) s = .fault .illFormed) ∧
    (railUsed rail die = true →
      let h := if s.hw.rd .PW_RAILALARM_rails = 0 then s.hw.wr .PW_RAILALARM_die die else s.hw
      let h := ((h.setBit .PW_RAILALARM_rails rail).wr .PW_STATUS_supply_alarm 1).pwEvent 4
      (11 ≤ die.val → exec (.supplyAlarm rail die glitch) s = .next (s.setHw (h.raise 4 8)).settle) ∧
      (die.val = 10 → exec (.supplyAlarm rail die glitch) s = .next (s.setHw
        ((h.raise (if glitch then 2 else 1) 8).zeroize 2)).settle))) ∧
  (∀ s : State,
    (s.hw.on .PW_STATUS_pwr_fail = true → exec .pwrFailN s = .next s.settle) ∧
    (s.hw.on .PW_STATUS_pwr_fail = false → exec .pwrFailN s = .next (s.setHw
      ((((s.hw.wr .PW_STATUS_pwr_fail 1).pwEvent 5).raise 5 8).lastGaspCut)).settle)) ∧
  (∀ (d : Fin 15) (temp : BitVec 16) (s : State),
    let limit : Int := 16 * s.hw.rd .PW_CTRL_warn_c
    let h := s.hw.setTemp d temp.toNat
    (s.hw.dieTemp d < limit → limit ≤ signed 16 temp.toNat →
      exec (.thermalWarn d temp) s = .next (s.setHw ((h.pwEvent 2).raise 8 8))) ∧
    (limit ≤ s.hw.dieTemp d ∨ signed 16 temp.toNat < limit → exec (.thermalWarn d temp) s = .next (s.setHw h)) ∧
    (s.hw.dieTemp d < 1840 → 1840 ≤ signed 16 temp.toNat →
      exec (.thermalCritical d temp) s = .next (s.setHw h.criticalTrip).settle) ∧
    (1840 ≤ s.hw.dieTemp d ∨ signed 16 temp.toNat < 1840 →
      exec (.thermalCritical d temp) s = .next (s.setHw h).settle)) ∧
  (∀ (b : Fin 9) (s : State),
    (b.val = 6 ∨ b.val = 7 → exec (.clockMonitorFault b) s = .fault .illFormed) ∧
    (b.val < 6 ∨ b.val = 8 → exec (.clockMonitorFault b) s = .next (s.setHw
      (((((s.hw.setVal .PW_CLKMON (s.hw.val .PW_CLKMON ||| 2 ^ b.val)).raise 0x010 8).pwEvent 6).deviceHold).zeroize
        3)).settle)) ∧
  (∀ (k : Fin 24) (s : State), exec (.sdRefclkLoss k) s = .next (s.setHw (s.hw.refLoss k)).settle ∧
    exec .pcieRefclkLoss s = .next (s.setHw
      (((s.hw.wr .PW_CLKMON_pcie_refclk 1).raise 0x013 8).pwEvent 6).endpointReset))

/-- Device reset by power-on, pin and software, and the PCIe reset (R474, R475, R408, R387). -/
def Obligations.DeviceResets : Prop :=
  (∀ s : State, s.Settled →
    (∃ t, exec .powerOn s = .next t ∧ t.dev.tx = [] ∧ t.dev.perm = { s.dev.perm with cause := 0, count := 0 } ∧
      t.pending = s.pending) ∧
    (∃ t, exec .resetN s = .next t ∧ t.dev.tx = [] ∧
      t.dev.perm = { s.dev.perm with cause := 1, count := min 255 (s.dev.perm.count + 1) } ∧ t.pending = s.pending)) ∧
  (∀ (o : Originator) (v : Word) (s : State), s.Settled →
    (bit v.toNat 63 = true → exec (.glResetArm o v) s = .next (s.setHw
      { s.hw with io := { s.hw.io with arm := some (o, s.hw.up) } })) ∧
    (∀ (who : Originator) (t : Nat), bit v.toNat 63 = false → bit v.toNat 62 = true → s.hw.io.arm = some (who, t) →
      (who = o → s.hw.up - t ≤ 800000 → ∃ u, exec (.glResetGo o v) s = .next u ∧ u.dev.tx = [] ∧
        u.dev.perm = { s.dev.perm with cause := 2, count := min 255 (s.dev.perm.count + 1) } ∧ u.pending = s.pending) ∧
      (who ≠ o ∨ 800000 < s.hw.up - t → exec (.glResetGo o v) s = .next s)) ∧
    (bit v.toNat 63 = false → s.hw.io.arm = none → exec (.glResetGo o v) s = .next s)) ∧
  (∀ s : State, ∃ t, exec .perstN s = .next t ∧ t.hw.tw.fifo = [] ∧ t.hw.tw.rx = [] ∧ t.hw.tw.out = [] ∧
    s.SameOutside t)

/-- Steps and sets of the timebase, PPS, time-of-day messages and timestamps (R477, R478, R479, R480, R460). -/
def Obligations.Timebase : Prop :=
  (∀ (v : Word) (s : State),
    (∀ h : Hw, h = { s.hw with time := (v.toNat <<< 32) % 2 ^ 96 } → h.minute ≤ s.hw.now / (60 * unitsPerSecond) →
      h.now / unitsPerSecond ≤ s.hw.now / unitsPerSecond →
      exec (.tbSet v) s = .next (s.setHw (((h.setBit .TB_EVENT_events 3).raise 0x021 8).count .TB_CNT_count 7)).settle) ∧
    (∀ h : Hw, h = { s.hw with time := ((s.hw.time + signed 64 v.toNat * 2 ^ 32) % 2 ^ 96).toNat } →
      h.minute ≤ s.hw.now / (60 * unitsPerSecond) → h.now / unitsPerSecond ≤ s.hw.now / unitsPerSecond →
      exec (.tbStep v) s = .next (s.setHw (((h.setBit .TB_EVENT_events 3).raise 0x021 8).count .TB_CNT_count 7)).settle)) ∧
  (∀ s : State,
    let h := ((s.hw.setVal .TB_PPSCAP s.hw.now).setBit .TB_EVENT_events 0).count .TB_CNT_count 1
    (h.on .TB_TODRX_valid = false → exec .ppsIn s = .next (s.setHw h).settle) ∧
    (h.on .TB_TODRX_valid = true → (h.wr .TB_TODRX_valid 0).on .TB_CTRL_tod_arm = false →
      exec .ppsIn s = .next (s.setHw (h.wr .TB_TODRX_valid 0)).settle) ∧
    (let k := h.wr .TB_TODRX_valid 0
     h.on .TB_TODRX_valid = true → k.on .TB_CTRL_tod_arm = true →
      exec .ppsIn s = .next (s.setHw
        ((k.wr .TB_CTRL_tod_arm 0).tbSet (k.rd .TB_TODRX_seconds * unitsPerSecond))).settle)) ∧
  (∀ (d : List Byte) (s : State),
    (d.length ≠ 11 → exec (.todInMessage d) s = .fault .illFormed) ∧
    (d.length = 11 → byteAt d 0 ≠ 0xA5 ∨ fieldAt d 9 2 ≠ todCheck (d.take 9) →
      exec (.todInMessage d) s = .next (s.setHw ((s.hw.raise 0x020 8).count .TB_CNT_count 3))) ∧
    (d.length = 11 → byteAt d 0 = 0xA5 → fieldAt d 9 2 = todCheck (d.take 9) →
      exec (.todInMessage d) s = .next (s.setHw
        ((((s.hw.wr .TB_TODRX_valid (byteAt d 7 % 2)).wr .TB_TODRX_seconds (fieldAt d 1 6)).setBit .TB_EVENT_events 1).count
          .TB_CNT_count 2)))) ∧
  (∀ s : State,
    exec .ppsOut s = .next (s.setHw (s.hw.reachTime ((s.hw.now / unitsPerSecond + 1) * unitsPerSecond))).settle ∧
    (s.hw.io.pps = none → exec .todOut s = .next s) ∧
    (∀ second : Nat, s.hw.io.pps = some second →
      let h : Hw := { s.hw with io := { s.hw.io with pps := none } }
      (h.on .TB_CTRL_tod_out_en = true → exec .todOut s = .next (s.setHw
        { h with sent := h.sent ++ [Out.tod (todMessage second)] })) ∧
      (h.on .TB_CTRL_tod_out_en = false → exec .todOut s = .next (s.setHw h))) ∧
    (s.hw.txts = [] → exec .txtsPop s = .next s) ∧
    (∀ (p tag t : Nat) (r : List (Nat × Nat × Nat)), s.hw.txts = (p, tag, t) :: r →
      exec .txtsPop s = .next (s.setHw (({ s.hw with txts := r } : Hw).setVal .TB_TXTS_TIME t))) ∧
    (s.hw.on .TB_CTRL_src = true → s.hw.io.holdover = false →
      let h := ((s.hw.wr .PW_CLKMON_ts_clk 1).raise 0x012 8).setBit .PW_EVENT_events 6
      exec .tsClkLoss s = .next (s.setHw
        (({ h with io := { h.io with holdover := true } } : Hw).setBit .TB_EVENT_events 4))) ∧
    (s.hw.on .TB_CTRL_src = false ∨ s.hw.io.holdover = true → exec .tsClkLoss s = .next s) ∧
    exec .tsClkRelock s = .next (s.setHw { s.hw with io := { s.hw.io with holdover := false } }))

/-- I2C block reads and emergency commands, the regulator poll, JTAG (R495, R496, R497, R498, R500, R329). -/
def Obligations.BoardPins : Prop :=
  (∀ (cmd : Byte) (s : State),
    (s.hw.io.rom = true → cmd.toNat < 0x80 →
      let d := s.hw.i2cBlock cmd.toNat
      let a := 2 * s.hw.rd .GL_I2CT_address
      let msg := BitVec.ofNat 8 d.length :: d
      exec (.i2cBlockRead cmd) s = .next (s.setHw { s.hw with sent := s.hw.sent ++
        [Out.i2c (msg ++ [BitVec.ofNat 8 (pec ([BitVec.ofNat 8 a, cmd, BitVec.ofNat 8 (a + 1)] ++ msg))])] })) ∧
    (s.hw.io.rom = false ∨ 0x80 ≤ cmd.toNat → exec (.i2cBlockRead cmd) s = .next s)) ∧
  (∀ (arg : Byte) (s : State), s.hw.io.rom = true →
    (arg ≠ 0xA5#8 →
      exec (.i2cZeroize arg) s = .next (s.setHw (s.hw.countSat .GL_I2CT_refused)).settle ∧
      exec (.i2cHold arg) s = .next (s.setHw (s.hw.countSat .GL_I2CT_refused)).settle ∧
      exec (.i2cReset arg) s = .next (s.setHw (s.hw.countSat .GL_I2CT_refused)).settle) ∧
    exec (.i2cZeroize 0xA5#8) s = .next (s.setHw ((s.hw.countSat .GL_I2CT_accepted).zeroize 1)).settle ∧
    exec (.i2cHold 0xA5#8) s = .next (s.setHw ((s.hw.countSat .GL_I2CT_accepted).command 4 8 0x3FF none)).settle ∧
    exec (.i2cReset 0xA5#8) s = .next (s.setHw ((s.hw.countSat .GL_I2CT_accepted).note (.reset 3))).settle) ∧
  (∀ (k : Fin 16) (r : Option VrReading) (s : State),
    (s.hw.on .PW_VRCTRL_enable = false ∨ s.hw.on .PW_VR_valid k = false → exec (.vrPoll k r) s = .next s) ∧
    (s.hw.on .PW_VRCTRL_enable = true → s.hw.on .PW_VR_valid k = true →
      let h := s.hw.countSat .PW_VRDATA_failures k
      exec (.vrPoll k none) s = .next (s.setHw
        (if h.rd .PW_VRDATA_failures k = 3 then (h.wr .PW_VRDATA_stale 1 k).raise 0x030 8 else h)))) ∧
  (∀ (ir : JtagIr) (s : State),
    (ir = .extest ∨ ir = .extestPulse ∨ ir = .extestTrain ∨ ir = .highz ∨ ir = .clamp →
      exec (.jtagInstruction ir) s = .next (s.setHw ((s.hw.raise 0x031 8).deviceHold)).settle) ∧
    (ir = .scanAccess → exec (.jtagInstruction ir) s = .next (s.setHw
      (((s.hw.zeroize 5).raise 0x031 8).deviceHold)).settle) ∧
    (ir ≠ .extest → ir ≠ .extestPulse → ir ≠ .extestTrain → ir ≠ .highz → ir ≠ .clamp → ir ≠ .scanAccess →
      exec (.jtagInstruction ir) s = .next s.settle))

/-- Records collected, windows, freezes and releases commanded, injection and the log (R33, R44, R45, R46, R48, R49, R511,
R514). -/
def Obligations.FaultCollector : Prop :=
  (∀ (origin : Fin 9) (s : State),
    let mine (f : FaultRec) : Bool := f.origin == origin.val
    (∀ ups : List Upset, ups.all upsetOk = true →
      exec (.faultRecord ⟨origin, ups⟩) s = exec (.faultRecord ⟨origin, []⟩) (s.setDev (s.dev.struck ups))) ∧
    (s.hw.fc.queue.find? mine = none → exec (.faultRecord ⟨origin, []⟩) s = .next s.settle) ∧
    (∀ f : FaultRec, s.hw.fc.queue.find? mine = some f → exec (.faultRecord ⟨origin, []⟩) s = .next (s.setHw
      (({ s.hw with fc := { s.hw.fc with queue := delFirst mine s.hw.fc.queue } } : Hw).collect f)).settle)) ∧
  (∀ s : State,
    exec .escWindowEnd s = .next (s.setHw
      (({ s.hw with
          fc := { s.hw.fc with win := [] }, planeErr := [0, 0, 0, 0]
          hbm := { s.hw.hbm with corr := [0, 0, 0, 0] } } : Hw).each 8 (fun h n => h.setVal .FC_PIPE 0 n))) ∧
    exec .collectorWatchdog s = .next (s.setHw ((s.hw.raise 0x82F 8).deviceHold)).settle ∧
    exec .hold s = .next (s.setHw
      (s.hw.collect ⟨0x8F0, 8, 15, 0x3FF, none, s.hw.now, false, some 4, true⟩)).settle) ∧
  (∀ (t : BitVec 16) (s : State),
    exec (.tenantFreeze t) s = .next (s.setHw
      (s.hw.collect ⟨0x8F0, 8, 15, 0x3FF, some t.toNat, s.hw.now, false, some 1, true⟩)).settle ∧
    exec (.tenantRelease t) s = .next (s.setHw
      ((s.hw.setVal .FC_TFROZEN (setBits (s.hw.val .FC_TFROZEN (t.toNat / 64)) (t.toNat % 64) (t.toNat % 64) 0)
        (t.toNat / 64)).maskRewrite (tenantWord t.toNat)).watch)) ∧
  (∀ (p : Port) (s : State),
    exec (.portFreeze p) s = .next (s.setHw
      (s.hw.collect ⟨0x8F0, 8, 15, p, none, s.hw.now, false, some 2, true⟩)).settle ∧
    exec (.portRelease p) s = .next (s.setHw
      ((s.hw.setVal .FC_PFROZEN (setBits (s.hw.val .FC_PFROZEN (p.val / 64)) (p.val % 64) (p.val % 64) 0)
        (p.val / 64)).maskRewrite (portWord p)).watch)) ∧
  (∀ (n : Slice) (s : State),
    exec (.sliceFreeze n) s = .next (s.setHw
      (s.hw.collect ⟨0x8F0, n, 15, 0x3FF, none, s.hw.now, false, some 3, true⟩)).settle ∧
    (s.hw.slicePower n = 1 → exec (.sliceRelease n) s = .next (s.setHw
      ((s.hw.wr .FC_STATUS_slice_frozen (setBits (s.hw.rd .FC_STATUS_slice_frozen) n n 0)).maskRewrite sliceWord).watch)) ∧
    (s.hw.slicePower n ≠ 1 → exec (.sliceRelease n) s = .next (s.setHw (s.hw.wr .FC_STATUS_cmd_refused 1)))) ∧
  (∀ (v : Word) (s : State),
    let ok : Prop := bit v.toNat 63 = true ∧ s.hw.on .FC_CTRL_inject_en = true ∧
      listedFaults.contains (bits v.toNat 49 38) = true ∧ bits v.toNat 57 54 ≤ 8 ∧
      (bits v.toNat 53 50 ≤ 8 ∨ bits v.toNat 53 50 = 15)
    (ok → exec (.fcInject v) s = .next (s.setHw
      (s.hw.raise (bits v.toNat 49 38) (bits v.toNat 57 54) (bits v.toNat 53 50) (bits v.toNat 37 28)
        (if bit v.toNat 58 then some (bits v.toNat 27 12) else none) true))) ∧
    (¬ok → exec (.fcInject v) s = .next s)) ∧
  (∀ s : State, (s.hw.fc.log = [] → exec .logPop s = .next (s.setHw (s.hw.setVal .FC_LOG_HEAD 0))) ∧
    (∀ (l : LogRec) (r : List LogRec), s.hw.fc.log = l :: r → exec .logPop s = .next (s.setHw
      ((({ s.hw with fc := { s.hw.fc with log := r } } : Hw).setVal .FC_LOG_HEAD l.word).setVal .FC_LOG_TIME
        l.fault.time).watch)))

/-- The test strip's rotation, stall and test, and self-tests (R50, R51, R52, R53, R54). -/
def Obligations.TestStrip : Prop :=
  (∀ (n : Slice) (s : State),
    (s.hw.inactive n = true ∨ s.hw.stripPhase n = .none → exec (.stripRotate n) s = .next s) ∧
    (s.hw.inactive n = false → s.hw.stripPhase n = .rest →
      exec (.stripRotate n) s = .next (s.setHw (s.hw.rotate n (s.hw.rd .FC_STRIP_strip n)))) ∧
    (∀ q : Nat, s.hw.inactive n = false → s.hw.stripPhase n = .draining q → s.hw.pipeEmpty n q = true →
      exec (.stripRotate n) s = .next (s.setHw
        (((s.hw.wr .FC_STRIP_strip q n).count .FC_STRIP_rotations n).setStrip n
          (fun x => { x with phase := .testing, ed := s.hw.current })))) ∧
    (∀ q : Nat, s.hw.stripPhase n = .draining q → s.hw.pipeEmpty n q = false →
      exec (.stripStall n) s = .next (s.setHw
        ((s.hw.setStrip n (fun x => { x with phase := .waiting (s.hw.prevPipe n q) })).raise 0x813 n q))) ∧
    (s.hw.stripPhase n = .rest → exec (.stripStall n) s = .next s ∧
      ∀ fault : Option (BitVec 16), exec (.stripTestDone n fault) s = .next s) ∧
    (s.hw.stripPhase n = .testing →
      s.hw.rd .SE_REFBASE_ref_count 0 n (nth s.hw.fc.strip n StripSt.reset).ed = 0 →
      let p := s.hw.rd .FC_STRIP_strip n
      exec (.stripTestDone n none) s = .next (s.setHw
        ((s.hw.setStrip n (fun x => x.tested p none)).setStrip n (fun x => { x with phase := .rest }))) ∧
      ∀ f : BitVec 16, exec (.stripTestDone n (some f)) s = .next (s.setHw
        ((s.hw.setStrip n (fun x => x.tested p (some f.toNat))).retirePipe n p)))) ∧
  (∀ (v : Word) (s : State),
    let n := bits v.toNat 62 60
    let t := bits v.toNat 59 56
    let h := (s.hw.wr .FC_SELFTEST_STATUS_pass 0).wr .FC_SELFTEST_STATUS_first_fail 0
    bit v.toNat 63 = true → s.hw.rd .FC_SELFTEST_STATUS_state ≠ 1 → t ≤ 5 →
      (h.canTest n t = false → exec (.selftest v) s = .next (s.setHw (h.wr .FC_SELFTEST_STATUS_state 3))) ∧
      (h.canTest n t = true → exec (.selftest v) s = .next (s.setHw
        (let k := h.setStrip n (fun x => { x with
            selftest := some t, failed := none,
            left := if t = 1 then (List.range 9).filter (fun p => !bit (h.rd .FC_STRIP_retired n) p) else [] })
         (if t < 2 ∧ 2 ≤ h.slicePower n then k.setStrip n (fun x => { x with phase := .testing, ed := k.current })
          else k).wr .FC_SELFTEST_STATUS_state 1)))) ∧
  (∀ (n : Slice) (first : Option (BitVec 16)) (s : State), (nth s.hw.fc.strip n StripSt.reset).selftest = none →
    exec (.selftestDone n first) s = .next s) ∧
  (∀ (n : Slice) (t : Nat) (s : State), (nth s.hw.fc.strip n StripSt.reset).selftest = some t →
    let ended (h : Hw) : Hw :=
      (h.setStrip n (fun x => { x with selftest := none, left := [], failed := none })).wr .FC_SELFTEST_STATUS_state 2
    let h := ended s.hw
    (1 < t →
      exec (.selftestDone n none) s = .next (s.setHw (h.wr .FC_SELFTEST_STATUS_pass 1)) ∧
      ∀ i : BitVec 16, exec (.selftestDone n (some i)) s = .next (s.setHw
        ((h.wr .FC_SELFTEST_STATUS_pass 0).wr .FC_SELFTEST_STATUS_first_fail i.toNat))) ∧
    (t = 0 → 2 ≤ s.hw.slicePower n → s.hw.stripPhase n = .testing → (nth s.hw.fc.strip n StripSt.reset).failed = none →
      s.hw.rd .SE_REFBASE_ref_count 0 n (nth s.hw.fc.strip n StripSt.reset).ed = 0 →
      let p := s.hw.rd .FC_STRIP_strip n
      exec (.selftestDone n none) s = .next (s.setHw
        ((ended ((s.hw.setStrip n (fun x => x.tested p none)).setStrip n (fun x => { x with phase := .rest }))).wr
          .FC_SELFTEST_STATUS_pass 1)) ∧
      ∀ i : BitVec 16, exec (.selftestDone n (some i)) s = .next (s.setHw
        (((ended ((s.hw.setStrip n (fun x => x.tested p (some i.toNat))).retirePipe n p)).wr .FC_SELFTEST_STATUS_pass 0).wr
          .FC_SELFTEST_STATUS_first_fail i.toNat))))

/-- The countersign's table commands, its scrub and permit reads (R38, R39, R40, R57). -/
def Obligations.CountersignTables : Prop :=
  (∀ (n : Slice) (s : State),
    let i := s.hw.rd .CS_CO_INDEX_index 0 n
    exec (.coRead n) s = .next (s.setHw
      ((s.hw.setVal .CS_CO_W0 (s.hw.coEntry n i).1 0 n).setVal .CS_CO_W1 (s.hw.coEntry n i).2 0 n)) ∧
    (s.hw.coReach n = true →
      exec (.coWrite n) s = .next (s.setHw (s.hw.coPut n i (s.hw.val .CS_CO_W0 0 n)
        (coSealed i (s.hw.val .CS_CO_W0 0 n) (s.hw.val .CS_CO_W1 0 n)))) ∧
      exec (.coInvalidate n) s = .next (s.setHw (s.hw.coPut n i (s.hw.coEntry n i).1
        (coSealed i (s.hw.coEntry n i).1 (setBits (s.hw.coEntry n i).2 63 63 0)))) ∧
      exec (.coScrub n) s = .next (s.setHw (s.hw.each 262144 (fun h i => h.coScrubOne n i)))) ∧
    (s.hw.coReach n = false →
      exec (.coWrite n) s = .next (s.setHw (s.hw.raise 0x804 n)) ∧
      exec (.coInvalidate n) s = .next (s.setHw (s.hw.raise 0x804 n)) ∧
      exec (.coScrub n) s = .next (s.setHw (s.hw.raise 0x80A n)))) ∧
  (∀ (n : Slice) (x : Fin 64) (w : Fin 1024) (s : State),
    ((s.hw.permitWord n x w).1 = (s.hw.permitWord n x w).2 → exec (.csPermitRead n x w) s = .next s) ∧
    ((s.hw.permitWord n x w).1 ≠ (s.hw.permitWord n x w).2 →
      exec (.csPermitRead n x w) s = .next (s.setHw (s.hw.raise 0x809 n))))

/-- Writes of registers by clerks and slips, and by the host in BAR0 (R134, R371, R391, R392, R401, R516). -/
def Obligations.RegisterWrites : Prop :=
  ∀ (addr : BitVec 40) (v : Word) (half : Bool) (s : State),
    (∀ o : Originator, o ≠ .bar0 → s.hw.judge o true false addr.toNat 8 ≠ 0 →
      exec (.registerWrite o addr ⟨v, half⟩) s = .next s.settle) ∧
    (∀ (o : Originator) (r : RegName) (n ix : Nat), o ≠ .bar0 → s.hw.judge o true false addr.toNat 8 = 0 →
      place addr.toNat = .reg r n ix → r ≠ .EV_DONE →
      exec (.registerWrite o addr ⟨v, half⟩) s = .next (s.setHw (s.hw.writeReg o addr.toNat r n ix v.toNat)).settle) ∧
    (∀ o : Originator, o ≠ .bar0 → s.hw.judge o true false addr.toNat 8 = 0 →
      (∀ (r : RegName) (n ix : Nat), place addr.toNat ≠ .reg r n ix) →
      exec (.registerWrite o addr ⟨v, half⟩) s = .next (s.setHw
        ((s.hw.store addr.toNat (leBytes 8 v.toNat)).granules 5 addr.toNat 8)).settle) ∧
    (2 ^ 20 ≤ addr.toNat → exec (.registerWrite .bar0 addr ⟨v, half⟩) s = .next s.settle) ∧
    (addr.toNat < 2 ^ 20 →
      (half = false ∧ addr.toNat % 8 ≠ 0) ∨
        (half = true ∧ (addr.toNat % 4 ≠ 0 ∨ addr.toNat < 0xF0000 ∨ 0xF0400 ≤ addr.toNat)) →
      exec (.registerWrite .bar0 addr ⟨v, half⟩) s = .next (s.setHw (s.hw.wr .TW_HSTATUS_bad_access 1).watch).settle) ∧
    (0xF0000 ≤ addr.toNat → addr.toNat < 0xF0400 → addr.toNat % 16 = 8 →
      exec (.registerWrite .bar0 addr ⟨v, true⟩) s = .next (s.setHw
        (s.hw.setVal .A_MSIX_DATA (v.toNat % 2 ^ 32) ((addr.toNat - 0xF0000) / 16)).watch).settle) ∧
    (0x10000 ≤ addr.toNat → addr.toNat < 0x20000 → addr.toNat % 8 = 0 →
      exec (.registerWrite .bar0 addr ⟨v, false⟩) s = .next (s.setHw (s.hw.txPush v).watch).settle)

/-- A frame whose FCS is the complement of its CRC-32 is dropped with 0x0C (R76). -/
def Obligations.StompedFrames : Prop :=
  ∀ (p : Port) (body : List Byte) (s : State), 60 ≤ body.length → body.length + 4 ≤ s.hw.cfg .PT_CFG_max_len p →
    let d := body ++ leBytes 4 (crc crc32 0 body ^^^ 0xFFFFFFFF)
    (s.hw.link p = 5 → (s.hw.port p).cur = none →
      exec (.rxFrame p true d .good false) s = .next (s.setHw
        ((s.hw.setPort p { s.hw.port p with orphan := false }).rxFail p 0x0C)).settle) ∧
    (∀ (fid : Nat) (head rest : List Byte), (s.hw.port p).cur = some (fid, head) → head ++ rest = d →
      exec (.tailStatus p rest .good) s = .next (s.setHw
        (((s.hw.setPort p { s.hw.port p with cur := none, orphan := false }).ptCount p 12).giveTail fid d 0x0C)).settle)

/-- INT_N is low exactly while a source is stranded or intn_all shows a pending host source (R427). -/
def Obligations.InterruptPin : Prop :=
  ∀ h : Hw, h.intN = true ↔
    (∃ n < 2048, bit (h.val .EV_STRANDED (n / 64)) (n % 64) = true) ∨
    (h.on .EV_HOSTCFG_intn_all = true ∧ ∃ n < 2048, h.srcTarget n = 8 ∧ h.srcPending n = true)

/-- A request that has waited starve_us is its bank's next pick, behind forced refreshes and RT, and is counted (R349). -/
def Obligations.StarvedRequests : Prop :=
  ∀ (h : Hw) (k : Stack) (b : Nat) (x : HbmReq), (h.ready k b).find? (·.starved) = some x →
    (8 ≤ h.hbm.owed k b → h.bankPick k b = some (.refresh true, none)) ∧
    (h.hbm.owed k b < 8 → h.hbm.nearDue k b 8 = true → h.bankPick k b = some (.near true, none)) ∧
    (∀ r : HbmReq, h.hbm.owed k b < 8 → h.hbm.nearDue k b 8 = false →
      (h.ready k b).find? (fun r => r.cls == 0) = some r → h.bankPick k b = some (.burst r, none)) ∧
    (h.hbm.owed k b < 8 → h.hbm.nearDue k b 8 = false → (h.ready k b).find? (fun r => r.cls == 0) = none →
      h.bankPick k b = some (.burst x, none)) ∧
    (∀ (parity : Bool) (corr uncorr : List Nat), x.cls ≠ 0 →
      (h.hbmBurst k x parity corr uncorr).rd .HM_SCNT_count (16 * k + 9) =
        (h.count .HM_SCNT_count (16 * k + 9)).rd .HM_SCNT_count (16 * k + 9))

/-- A record takes its reaction whether or not the log or its origin's queue has room (R48). -/
def Obligations.LogSpace : Prop :=
  (∀ (h : Hw) (code origin pipe port : Nat) (t : Option Nat), ∃ f : FaultRec,
    (h.raise code origin pipe port t).fc.queue = h.fc.queue ++ [f] ∧ f.code = code ∧ f.origin = origin ∧ f.port = port ∧
    (16 ≤ (h.fc.queue.filter (fun q => q.origin = origin ∧ q.queued)).length → f.queued = false) ∧
    ((h.fc.queue.filter (fun q => q.origin = origin ∧ q.queued)).length < 16 → f.queued = true)) ∧
  (∀ (origin : Fin 9) (f : FaultRec) (s : State),
    let mine (f : FaultRec) : Bool := f.origin == origin.val
    s.hw.fc.queue.find? mine = some f →
    let h : Hw := { s.hw with fc := { s.hw.fc with queue := delFirst mine s.hw.fc.queue } }
    let r := f.able (h.reaction f).1
    let k := (h.reaction f).2
    (f.queued = false → exec (.faultRecord ⟨origin, []⟩) s = .next (s.setHw
      (((k.countSat .FC_STATUS_overflow_count).attribute f).react f r)).settle) ∧
    (f.queued = true → k.fc.log.length < 256 → exec (.faultRecord ⟨origin, []⟩) s = .next (s.setHw
      ((({ k with fc := { k.fc with log := k.fc.log ++ [⟨f, r⟩] } } : Hw).attribute f).react f r)).settle) ∧
    (f.queued = true → 256 ≤ k.fc.log.length → exec (.faultRecord ⟨origin, []⟩) s = .next (s.setHw
      ((((k.wr .FC_STATUS_log_overflow 1).countSat .FC_STATUS_overflow_count).attribute f).react f r)).settle))

/-- A hello with the device's own member number, and one that names another neighbour on a LIVE link (R443). -/
def Obligations.MemberConflict : Prop :=
  ∀ (p : Port) (d : List Byte) (s : State), s.hw.fabricPort p = true → 62 ≤ d.length → byteAt d 14 / 16 = 1 →
    let v := leNat (slice (d.drop 30) 12 4)
    let src := (sfHeader (d.drop 14)).src
    let id := leNat (slice (d.drop 30) 0 8)
    sfCheck src v (d.drop 14) = fieldAt d 28 2 →
    (let h := ((s.hw.raise 0xC05 8).setBit .SF_EVENT_events 3).wr .SF_LINK_conflict 1 p
     s.hw.rd .SF_LINK_state p = 1 → src = s.hw.member →
      exec (.helloRx p d) s = .next (s.setHw
        (if src ≠ s.hw.rd .SF_LINK_nbr_member p ∨ id ≠ s.hw.val .SF_NBRID p
          then h.setSf p { h.sf p with heard := 0 } else h)).settle ∧ h.rd .SF_LINK_state p = 1) ∧
    (let k := ((s.hw.setBit .SF_EVENT_events 2).leaveLive p 1 true).enterSyncing p
     let t := k.adopt p v src id (leNat (slice (d.drop 30) 8 2) % 1024) (bit (byteAt (d.drop 30) 10) 0) (fieldAt d 6 6)
     s.hw.rd .SF_LINK_state p = 2 → src ≠ s.hw.member → src ≠ s.hw.rd .SF_LINK_nbr_member p ∨ id ≠ s.hw.val .SF_NBRID p →
      exec (.helloRx p d) s = .next (s.setHw t).settle ∧ t.rd .SF_LINK_state p = 1 ∧ t.rd .SF_LINK_nbr_member p = src ∧
        t.val .SF_NBRID p = id)

/-- The reaction applied is the stronger of policy and floor, falls on something the record names, and stands alone (R45,
R49). -/
def Obligations.ReactionFloor : Prop :=
  (∀ (h : Hw) (f : FaultRec), f.commanded = none → h.good ⟨.FC_POLICY, 0, 0, f.code⟩ = true →
    bit (h.val .FC_POLICY f.code) 15 = false →
    (h.reaction f).1 = max (bits (h.val .FC_POLICY f.code) 6 4) (faultDefaults f.code).2.2) ∧
  (∀ (h : Hw) (f : FaultRec), f.commanded = none → (faultDefaults f.code).2.2 ≤ (h.reaction f).1) ∧
  (∀ (f : FaultRec) (r : Nat), r ≤ f.able r ∧ (f.able r = 1 → f.tenant.isSome = true) ∧ (f.able r = 2 → f.port < 768) ∧
    (f.able r = 3 → f.slice.isSome = true)) ∧
  (∀ f : FaultRec, (f.origin < 8 → f.slice = some f.origin) ∧
    (8 ≤ f.origin → f.port < 768 → f.slice = some (portSl f.port)) ∧ (8 ≤ f.origin → 768 ≤ f.port → f.slice = none)) ∧
  (∀ (t : BitVec 16) (p : Port) (s : State),
    (∃ u, exec (.tenantRelease t) s = .next u ∧ (∀ i, u.hw.val .FC_PFROZEN i = s.hw.val .FC_PFROZEN i) ∧
      u.hw.held = s.hw.held ∧ u.hw.rd .FC_STATUS_slice_frozen = s.hw.rd .FC_STATUS_slice_frozen) ∧
    (∃ u, exec (.portRelease p) s = .next u ∧ (∀ i, u.hw.val .FC_TFROZEN i = s.hw.val .FC_TFROZEN i) ∧
      u.hw.held = s.hw.held ∧ u.hw.rd .FC_STATUS_slice_frozen = s.hw.rd .FC_STATUS_slice_frozen))

/-- A step takes the command at the front of the queue; with none waiting the clocks advance (00_scope.md,
95_what_each_step_holds.md). -/
def Obligations.StepTakesFront : Prop :=
  (∀ (c : Instr) (q : List Instr) (s : State), step (s.withPending (c :: q)) = exec c (s.withPending q)) ∧
  (∀ s : State, s.pending = [] → step s = .next { s with dev := s.dev.tick }) ∧
  (∀ (nbits w : Nat) (s : State), Sys2Proof.decodeTableWord nbits w = none ∧ s.withFetchWord nbits w = s)

/-- Every well-formed command completes and leaves the queue alone; an ill-formed one faults (00_scope.md R516, 00_scope.md
R1). -/
def Obligations.CommandsComplete : Prop :=
  ∀ (c : Instr) (s : State),
    (c.wf = true → ∃ t, exec c s = .next t ∧ t.pending = s.pending) ∧
    (c.wf = false → exec c s = .fault .illFormed)

/-- Every step keeps: each frame in the transmit path was delivered by the countersign's rule
(02_isolation_and_fault_safety.md R40, 02_isolation_and_fault_safety.md R16, 02_isolation_and_fault_safety.md R24). -/
def Obligations.FramesDelivered : Prop :=
  ∀ s t : State, s.Lawful → step s = .next t → t.Lawful

/-- The state after reset: nothing in flight, and the reset values that the register maps give (21_clocks_power_and_reset.md
R474, 01_device_overview.md R6). -/
def Obligations.ResetIsClean : Prop :=
  State.reset.Lawful ∧ State.reset.Settled ∧ State.reset.pending = [] ∧ State.reset.dev.tx = [] ∧
  State.reset.hw.mem = [] ∧ Memory.wf State.reset.hw.mem = true ∧
  (∀ p : Port, State.reset.hw.link p = 0 ∧ State.reset.hw.cfg .PT_CFG_max_len p = 10000 ∧
    State.reset.hw.cfg .PT_CFG_rx_wd_us p = 10) ∧
  (∀ n : Slice, State.reset.hw.slicePower n = 0 ∧ State.reset.hw.rd .CS_CTRL_scrub_ms 0 n = 1000 ∧
    State.reset.hw.rd .CS_CTRL_fallback_port 0 n = 1 ∧ State.reset.hw.rd .FC_STRIP_strip n = 8) ∧
  State.reset.hw.rd .FC_CTRL_esc_count = 8 ∧ State.reset.hw.rd .FC_CTRL_retire_count = 4 ∧
  State.reset.hw.rd .XB_STATUS_plane_up = 15 ∧
  (∀ k : Stack, State.reset.hw.rd .HM_STACKSTAT_state k = 0) ∧
  State.reset.hw.rd .HM_CTRL_patrol_h = 24 ∧ State.reset.hw.rd .HM_CTRL_starve_us = 20 ∧
  State.reset.hw.rd .MC_CTRL_clerk7_reserved = 1 ∧
  (∀ c : Clerk, State.reset.hw.clerkState c = 0 ∧ State.reset.hw.clerkPower c = 3) ∧
  (∀ n : Fin 2048, State.reset.hw.rd .EV_SRC_target n = 8) ∧
  State.reset.hw.rd .TW_CTRL_idle_us = 1000 ∧ State.reset.hw.txFree = 8192 ∧
  State.reset.hw.rd .PW_CTRL_quiesce_us = 1000 ∧ (∀ x : Fin 8192, State.reset.hw.rd .CX_SA_state x = 0)

/-- No step mends a revoke fuse or lowers the minimum security version (16_clerks_and_boot.md R387,
21_clocks_power_and_reset.md R474). -/
def Obligations.FusesOnlyRise : Prop :=
  ∀ s t : State, step s = .next t → s.dev.perm.within t.dev.perm

/-- A unit fed word after word computes the check of all its bytes at once (14_check_value_units.md R333,
14_check_value_units.md R339). -/
def Obligations.CheckChaining : Prop :=
  (∀ (k : CrcKind) (v : Nat) (a b : List Byte), crc k v (a ++ b) = crc k (crc k v a) b) ∧
  (∀ (u : Fin 16) (ws : List Word) (h : Hw), h.val .CK_URESULT u < 2 ^ (h.ckPoly u).width →
    (ws.foldl (fun h v => h.ckFeed u (h.ckBytes u v.toNat)) h).val .CK_URESULT u =
      crc (h.ckPoly u) (h.val .CK_URESULT u) (ws.flatMap (fun v => h.ckBytes u v.toNat)))

/-- An accepted HBM write is read back whole, and every other byte of memory stands (15_hbm_controller.md R346,
15_hbm_controller.md R350, 01_device_overview.md R4). -/
def Obligations.WritesReadBack : Prop :=
  (∀ (r : HbmOp) (d : List Byte) (s : State), r.write = some d → hbmOpOk r = true →
    s.hw.stackActive r.addr.toNat = true → s.hw.hbm.trackerFree (stackOf r.addr.toNat) r.cls = true →
    (∀ w ∈ s.hw.hbm.waiting, w.1.stack = stackOf r.addr.toNat → w.1.cls ≠ r.cls) →
    ∃ t, exec (.hbmRequest r) s = .next t ∧ t.hw.load r.addr.toNat d.length = d ∧
      (∀ a, a < r.addr.toNat ∨ r.addr.toNat + d.length ≤ a → Memory.read t.hw.mem a = Memory.read s.hw.mem a)) ∧
  (∀ (h : Hw) (a v : Nat), (h.store64 a v).load64 a = v % 2 ^ 64)

/-- A clerk's priority stack stays strictly nested and never holds more than 15 entries (18_event_controller.md R417,
18_event_controller.md R418, 18_event_controller.md R419, 18_event_controller.md R421). -/
def Obligations.NestedPriorities : Prop :=
  let nested (x : List EvEntry) : Prop := x.Pairwise (fun a b => b.level < a.level) ∧ ∀ e ∈ x, 1 ≤ e.level ∧ e.level ≤ 15
  (∀ x : List EvEntry, nested x → x.length ≤ 15) ∧
  (∀ (c : Clerk) (v : Word) (gone : Bool) (s : State), nested (s.hw.clerk c).stack →
    (∃ t, exec (.interruptEntry ⟨c, gone⟩) s = .next t ∧ nested (t.hw.clerk c).stack) ∧
    (∃ t, exec (.polledClaim c) s = .next t ∧ nested (t.hw.clerk c).stack) ∧
    (∃ t, exec (.evDone c v) s = .next t ∧ nested (t.hw.clerk c).stack) ∧
    (∃ t, exec (.clerkReset c) s = .next t ∧ nested (t.hw.clerk c).stack))

/-- The controller's commands keep every bank's refresh debt between 0 and 8 (15_hbm_controller.md R351,
15_hbm_controller.md R347). -/
def Obligations.RefreshDebt : Prop :=
  let bounded (h : Hw) : Prop := ∀ l ∈ h.hbm.debt, ∀ d ∈ l, d ≤ 8
  (∀ (r : HbmOp) (k : Stack) (pc : Fin 32) (parity : Bool) (corr uncorr : List Nat) (s : State), bounded s.hw →
    (hbmOpOk r = true → ∃ t, exec (.hbmRequest r) s = .next t ∧ bounded t.hw) ∧
    (∃ t, exec (.hbmBurstIssue k ⟨pc, parity⟩ corr uncorr) s = .next t ∧ bounded t.hw) ∧
    (∃ t, exec (.refreshInterval k) s = .next t ∧ bounded t.hw) ∧
    (∃ t, exec (.starvePick k pc) s = .next t ∧ bounded t.hw)) ∧
  (∀ (k : Stack) (s : State), 2 ≤ s.hw.rd .HM_STACKSTAT_state k → s.hw.hbm.debt.length = 4 →
    ∃ t, exec (.refreshInterval k) s = .next t ∧
      nth t.hw.hbm.debt k [] = (nth s.hw.hbm.debt k []).map (fun x => min 8 (x + 1)))
end

