-- ==== Sys2Proof/Laws/Dispatch.lean ====
section
/-! SUPPORT. Which meaning runs for each command: one lemma for each arm of exec. -/

namespace Sys2Proof.Machine

@[simp] theorem exec_rxFrame : ∀ p start bytes err full s, exec (.rxFrame p start bytes err full) s = execRxFrame p start bytes err full s := fun _ _ _ _ _ _ => rfl
@[simp] theorem exec_earlyRelease : ∀ p head full s, exec (.earlyRelease p head full) s = execEarlyRelease p head full s := fun _ _ _ _ => rfl
@[simp] theorem exec_tailStatus : ∀ p rest err s, exec (.tailStatus p rest err) s = execTailStatus p rest err s := fun _ _ _ _ => rfl
@[simp] theorem exec_rxWatchdog : ∀ p arrived s, exec (.rxWatchdog p arrived) s = execRxWatchdog p arrived s := fun _ _ _ => rfl
@[simp] theorem exec_gmodeWrite : ∀ n g v copiesAgree s, exec (.gmodeWrite n g v copiesAgree) s = execGmodeWrite n g v copiesAgree s := fun _ _ _ _ _ => rfl
@[simp] theorem exec_portEnable : ∀ p v s, exec (.portEnable p v) s = execPortEnable p v s := fun _ _ _ => rfl
@[simp] theorem exec_portDisable : ∀ p v s, exec (.portDisable p v) s = execPortDisable p v s := fun _ _ _ => rfl
@[simp] theorem exec_partnerPresent : ∀ p s, exec (.partnerPresent p) s = execPartnerPresent p s := fun _ _ => rfl
@[simp] theorem exec_partnerLost : ∀ p s, exec (.partnerLost p) s = execPartnerLost p s := fun _ _ => rfl
@[simp] theorem exec_signalLoss : ∀ p alignLost arrived s, exec (.signalLoss p alignLost arrived) s = execSignalLoss p alignLost arrived s := fun _ _ _ _ => rfl
@[simp] theorem exec_anComplete : ∀ p code lp s, exec (.anComplete p code lp) s = execAnComplete p code lp s := fun _ _ _ _ => rfl
@[simp] theorem exec_trainDone : ∀ p s, exec (.trainDone p) s = execTrainDone p s := fun _ _ => rfl
@[simp] theorem exec_trainFail : ∀ p s, exec (.trainFail p) s = execTrainFail p s := fun _ _ => rfl
@[simp] theorem exec_alignLock : ∀ p s, exec (.alignLock p) s = execAlignLock p s := fun _ _ => rfl
@[simp] theorem exec_linkUp : ∀ p s, exec (.linkUp p) s = execLinkUp p s := fun _ _ => rfl
@[simp] theorem exec_linkDown : ∀ p s, exec (.linkDown p) s = execLinkDown p s := fun _ _ => rfl
@[simp] theorem exec_localFault : ∀ p s, exec (.localFault p) s = execLocalFault p s := fun _ _ => rfl
@[simp] theorem exec_remoteFault : ∀ p s, exec (.remoteFault p) s = execRemoteFault p s := fun _ _ => rfl
@[simp] theorem exec_fecWindow : ∀ p codewords symbols s, exec (.fecWindow p codewords symbols) s = execFecWindow p codewords symbols s := fun _ _ _ _ => rfl
@[simp] theorem exec_prbsGo : ∀ l v s, exec (.prbsGo l v) s = execPrbsGo l v s := fun _ _ _ => rfl
@[simp] theorem exec_prbsStop : ∀ l v s, exec (.prbsStop l v) s = execPrbsStop l v s := fun _ _ _ => rfl
@[simp] theorem exec_txFrameStart : ∀ p cond s, exec (.txFrameStart p cond) s = execTxFrameStart p cond s := fun _ _ _ => rfl
@[simp] theorem exec_txFrameEnd : ∀ p s, exec (.txFrameEnd p) s = execTxFrameEnd p s := fun _ _ => rfl
@[simp] theorem exec_secyFrameEnd : ∀ p s, exec (.secyFrameEnd p) s = execSecyFrameEnd p s := fun _ _ => rfl
@[simp] theorem exec_parserAdmit : ∀ n pipe src flt s, exec (.parserAdmit n pipe src flt) s = execParserAdmit n pipe src flt s := fun _ _ _ _ _ => rfl
@[simp] theorem exec_paBankedWrite : ∀ n off v s, exec (.paBankedWrite n off v) s = execPaBankedWrite n off v s := fun _ _ _ _ => rfl
@[simp] theorem exec_paBankcopy : ∀ n s, exec (.paBankcopy n) s = execPaBankcopy n s := fun _ _ => rfl
@[simp] theorem exec_paBankcopyDone : ∀ n s, exec (.paBankcopyDone n) s = execPaBankcopyDone n s := fun _ _ => rfl
@[simp] theorem exec_paScrub : ∀ n s, exec (.paScrub n) s = execPaScrub n s := fun _ _ => rfl
@[simp] theorem exec_stageRoutineStart : ∀ n c s, exec (.stageRoutineStart n c) s = execStageRoutineStart n c s := fun _ _ _ => rfl
@[simp] theorem exec_stageNanoWord : ∀ n c s, exec (.stageNanoWord n c) s = execStageNanoWord n c s := fun _ _ _ => rfl
@[simp] theorem exec_beatLimit : ∀ n c s, exec (.beatLimit n c) s = execBeatLimit n c s := fun _ _ _ => rfl
@[simp] theorem exec_tcLookup : ∀ n c s, exec (.tcLookup n c) s = execTcLookup n c s := fun _ _ _ => rfl
@[simp] theorem exec_gcLookup : ∀ n c s, exec (.gcLookup n c) s = execGcLookup n c s := fun _ _ _ => rfl
@[simp] theorem exec_clLookup : ∀ n c s, exec (.clLookup n c) s = execClLookup n c s := fun _ _ _ => rfl
@[simp] theorem exec_lpLookup : ∀ n c s, exec (.lpLookup n c) s = execLpLookup n c s := fun _ _ _ => rfl
@[simp] theorem exec_exLookup : ∀ n c s, exec (.exLookup n c) s = execExLookup n c s := fun _ _ _ => rfl
@[simp] theorem exec_hxLookup : ∀ n c s, exec (.hxLookup n c) s = execHxLookup n c s := fun _ _ _ => rfl
@[simp] theorem exec_stageFix : ∀ n c checkOk s, exec (.stageFix n c checkOk) s = execStageFix n c checkOk s := fun _ _ _ _ => rfl
@[simp] theorem exec_countersign : ∀ n c agree s, exec (.countersign n c agree) s = execCountersign n c agree s := fun _ _ _ _ => rfl
@[simp] theorem exec_pcntRead : ∀ n s, exec (.pcntRead n) s = execPcntRead n s := fun _ _ => rfl
@[simp] theorem exec_pcntReadClear : ∀ n s, exec (.pcntReadClear n) s = execPcntReadClear n s := fun _ _ => rfl
@[simp] theorem exec_pcntClear : ∀ n s, exec (.pcntClear n) s = execPcntClear n s := fun _ _ => rfl
@[simp] theorem exec_nanoWordStage : ∀ n e x w v s, exec (.nanoWordStage n e x w v) s = execNanoWordStage n e x w v s := fun _ _ _ _ _ _ => rfl
@[simp] theorem exec_nanoWordCommit : ∀ n e x v s, exec (.nanoWordCommit n e x v) s = execNanoWordCommit n e x v s := fun _ _ _ _ _ => rfl
@[simp] theorem exec_microwordWrite : ∀ n e a v s, exec (.microwordWrite n e a v) s = execMicrowordWrite n e a v s := fun _ _ _ _ _ => rfl
@[simp] theorem exec_seBankedWrite : ∀ n off v s, exec (.seBankedWrite n off v) s = execSeBankedWrite n off v s := fun _ _ _ _ => rfl
@[simp] theorem exec_seBankcopy : ∀ n s, exec (.seBankcopy n) s = execSeBankcopy n s := fun _ _ => rfl
@[simp] theorem exec_seBankcopyDone : ∀ n s, exec (.seBankcopyDone n) s = execSeBankcopyDone n s := fun _ _ => rfl
@[simp] theorem exec_seScrub : ∀ n s, exec (.seScrub n) s = execSeScrub n s := fun _ _ => rfl
@[simp] theorem exec_recircPick : ∀ n pipe s, exec (.recircPick n pipe) s = execRecircPick n pipe s := fun _ _ _ => rfl
@[simp] theorem exec_clRead : ∀ n s, exec (.clRead n) s = execClRead n s := fun _ _ => rfl
@[simp] theorem exec_clWrite : ∀ n s, exec (.clWrite n) s = execClWrite n s := fun _ _ => rfl
@[simp] theorem exec_clInvalidate : ∀ n s, exec (.clInvalidate n) s = execClInvalidate n s := fun _ _ => rfl
@[simp] theorem exec_clEdbits : ∀ n ed s, exec (.clEdbits n ed) s = execClEdbits n ed s := fun _ _ _ => rfl
@[simp] theorem exec_clMove : ∀ n s, exec (.clMove n) s = execClMove n s := fun _ _ => rfl
@[simp] theorem exec_clCmdDone : ∀ n s, exec (.clCmdDone n) s = execClCmdDone n s := fun _ _ => rfl
@[simp] theorem exec_gcRead : ∀ n v s, exec (.gcRead n v) s = execGcRead n v s := fun _ _ _ => rfl
@[simp] theorem exec_gcWrite : ∀ n halfB v s, exec (.gcWrite n halfB v) s = execGcWrite n halfB v s := fun _ _ _ _ => rfl
@[simp] theorem exec_gcInvalidate : ∀ n halfB v s, exec (.gcInvalidate n halfB v) s = execGcInvalidate n halfB v s := fun _ _ _ _ => rfl
@[simp] theorem exec_gcEdbits : ∀ n halfB v s, exec (.gcEdbits n halfB v) s = execGcEdbits n halfB v s := fun _ _ _ _ => rfl
@[simp] theorem exec_gcCmdDone : ∀ n s, exec (.gcCmdDone n) s = execGcCmdDone n s := fun _ _ => rfl
@[simp] theorem exec_clScrub : ∀ n s, exec (.clScrub n) s = execClScrub n s := fun _ _ => rfl
@[simp] theorem exec_gcScrub : ∀ n s, exec (.gcScrub n) s = execGcScrub n s := fun _ _ => rfl
@[simp] theorem exec_clGcBankedWrite : ∀ n gc off v s, exec (.clGcBankedWrite n gc off v) s = execClGcBankedWrite n gc off v s := fun _ _ _ _ _ => rfl
@[simp] theorem exec_ftRead : ∀ n s, exec (.ftRead n) s = execFtRead n s := fun _ _ => rfl
@[simp] theorem exec_ftWrite : ∀ n replicas s, exec (.ftWrite n replicas) s = execFtWrite n replicas s := fun _ _ _ => rfl
@[simp] theorem exec_ftCmdDone : ∀ n s, exec (.ftCmdDone n) s = execFtCmdDone n s := fun _ _ => rfl
@[simp] theorem exec_ftSync : ∀ n v s, exec (.ftSync n v) s = execFtSync n v s := fun _ _ _ => rfl
@[simp] theorem exec_ftSyncDone : ∀ n s, exec (.ftSyncDone n) s = execFtSyncDone n s := fun _ _ => rfl
@[simp] theorem exec_lpFence : ∀ n replicas s, exec (.lpFence n replicas) s = execLpFence n replicas s := fun _ _ _ => rfl
@[simp] theorem exec_lpFenceDone : ∀ n s, exec (.lpFenceDone n) s = execLpFenceDone n s := fun _ _ => rfl
@[simp] theorem exec_ftScrub : ∀ n s, exec (.ftScrub n) s = execFtScrub n s := fun _ _ => rfl
@[simp] theorem exec_ftBankedWrite : ∀ n off v s, exec (.ftBankedWrite n off v) s = execFtBankedWrite n off v s := fun _ _ _ _ => rfl
@[simp] theorem exec_hxRead : ∀ n s, exec (.hxRead n) s = execHxRead n s := fun _ _ => rfl
@[simp] theorem exec_hxWrite : ∀ n s, exec (.hxWrite n) s = execHxWrite n s := fun _ _ => rfl
@[simp] theorem exec_learnRequest (s : State) : exec .learnRequest s = execLearnRequest s := rfl
@[simp] theorem exec_chRequestProcess (s : State) : exec .chRequestProcess s = execChRequestProcess s := rfl
@[simp] theorem exec_chLookup : ∀ sub s, exec (.chLookup sub) s = execChLookup sub s := fun _ _ => rfl
@[simp] theorem exec_chInsert : ∀ sub s, exec (.chInsert sub) s = execChInsert sub s := fun _ _ => rfl
@[simp] theorem exec_chDelete : ∀ sub s, exec (.chDelete sub) s = execChDelete sub s := fun _ _ => rfl
@[simp] theorem exec_chClearContested : ∀ sub s, exec (.chClearContested sub) s = execChClearContested sub s := fun _ _ => rfl
@[simp] theorem exec_chSetEd : ∀ sub s, exec (.chSetEd sub) s = execChSetEd sub s := fun _ _ => rfl
@[simp] theorem exec_agingScan : ∀ j s, exec (.agingScan j) s = execAgingScan j s := fun _ _ => rfl
@[simp] theorem exec_chRingWrite : ∀ v s, exec (.chRingWrite v) s = execChRingWrite v s := fun _ _ => rfl
@[simp] theorem exec_edFlip (s : State) : exec .edFlip s = execEdFlip s := rfl
@[simp] theorem exec_edClose (s : State) : exec .edClose s = execEdClose s := rfl
@[simp] theorem exec_edForceClose (s : State) : exec .edForceClose s = execEdForceClose s := rfl
@[simp] theorem exec_forceCloseZeroCounts (s : State) : exec .forceCloseZeroCounts s = execForceCloseZeroCounts s := rfl
@[simp] theorem exec_editionClose (s : State) : exec .editionClose s = execEditionClose s := rfl
@[simp] theorem exec_drainMarkerRx : ∀ p b s, exec (.drainMarkerRx p b) s = execDrainMarkerRx p b s := fun _ _ _ => rfl
@[simp] theorem exec_markerWaitTimeout (s : State) : exec .markerWaitTimeout s = execMarkerWaitTimeout s := rfl
@[simp] theorem exec_drainSlow (s : State) : exec .drainSlow s = execDrainSlow s := rfl
@[simp] theorem exec_placesGrant : ∀ f s, exec (.placesGrant f) s = execPlacesGrant f s := fun _ _ => rfl
@[simp] theorem exec_xbHold : ∀ f s, exec (.xbHold f) s = execXbHold f s := fun _ _ => rfl
@[simp] theorem exec_fillerCell : ∀ src pipe dst s, exec (.fillerCell src pipe dst) s = execFillerCell src pipe dst s := fun _ _ _ _ => rfl
@[simp] theorem exec_cellArrival : ∀ src pipe dst seq checkOk s, exec (.cellArrival src pipe dst seq checkOk) s = execCellArrival src pipe dst seq checkOk s := fun _ _ _ _ _ _ => rfl
@[simp] theorem exec_reseqTimeout : ∀ src pipe dst s, exec (.reseqTimeout src pipe dst) s = execReseqTimeout src pipe dst s := fun _ _ _ _ => rfl
@[simp] theorem exec_lossNotice : ∀ src s, exec (.lossNotice src) s = execLossNotice src s := fun _ _ => rfl
@[simp] theorem exec_releaseAck : ∀ src s, exec (.releaseAck src) s = execReleaseAck src s := fun _ _ => rfl
@[simp] theorem exec_planeRestore : ∀ v s, exec (.planeRestore v) s = execPlaneRestore v s := fun _ _ => rfl
@[simp] theorem exec_planeRestoreDone : ∀ plane pass s, exec (.planeRestoreDone plane pass) s = execPlaneRestoreDone plane pass s := fun _ _ _ => rfl
@[simp] theorem exec_allocRequest : ∀ n t s, exec (.allocRequest n t) s = execAllocRequest n t s := fun _ _ _ => rfl
@[simp] theorem exec_bufferFree : ∀ n s, exec (.bufferFree n) s = execBufferFree n s := fun _ _ => rfl
@[simp] theorem exec_bpCarveWrite : ∀ n v s, exec (.bpCarveWrite n v) s = execBpCarveWrite n v s := fun _ _ _ => rfl
@[simp] theorem exec_poolAccountCheck : ∀ n s, exec (.poolAccountCheck n) s = execPoolAccountCheck n s := fun _ _ => rfl
@[simp] theorem exec_copyVisible : ∀ n c s, exec (.copyVisible n c) s = execCopyVisible n c s := fun _ _ _ => rfl
@[simp] theorem exec_schedulerPick : ∀ p pipe s, exec (.schedulerPick p pipe) s = execSchedulerPick p pipe s := fun _ _ _ => rfl
@[simp] theorem exec_spillWrite : ∀ n c s, exec (.spillWrite n c) s = execSpillWrite n c s := fun _ _ _ => rfl
@[simp] theorem exec_drainBlockRead : ∀ n q s, exec (.drainBlockRead n q) s = execDrainBlockRead n q s := fun _ _ _ => rfl
@[simp] theorem exec_drainBlockArrived : ∀ n q s, exec (.drainBlockArrived n q) s = execDrainBlockArrived n q s := fun _ _ _ => rfl
@[simp] theorem exec_gclGo : ∀ p v s, exec (.gclGo p v) s = execGclGo p v s := fun _ _ _ => rfl
@[simp] theorem exec_gclSwitch : ∀ p s, exec (.gclSwitch p) s = execGclSwitch p s := fun _ _ => rfl
@[simp] theorem exec_gateEntryAdvance : ∀ p s, exec (.gateEntryAdvance p) s = execGateEntryAdvance p s := fun _ _ => rfl
@[simp] theorem exec_queueAgeScan : ∀ n s, exec (.queueAgeScan n) s = execQueueAgeScan n s := fun _ _ => rfl
@[simp] theorem exec_queueAccountCheck : ∀ n s, exec (.queueAccountCheck n) s = execQueueAccountCheck n s := fun _ _ => rfl
@[simp] theorem exec_polRead : ∀ n s, exec (.polRead n) s = execPolRead n s := fun _ _ => rfl
@[simp] theorem exec_polWrite : ∀ n s, exec (.polWrite n) s = execPolWrite n s := fun _ _ => rfl
@[simp] theorem exec_polReset : ∀ n s, exec (.polReset n) s = execPolReset n s := fun _ _ => rfl
@[simp] theorem exec_minuteMark (s : State) : exec .minuteMark s = execMinuteMark s := rfl
@[simp] theorem exec_settleEnd (s : State) : exec .settleEnd s = execSettleEnd s := rfl
@[simp] theorem exec_bookClose (s : State) : exec .bookClose s = execBookClose s := rfl
@[simp] theorem exec_folioPlace (s : State) : exec .folioPlace s = execFolioPlace s := rfl
@[simp] theorem exec_ledgerUpdate : ∀ checkOk s, exec (.ledgerUpdate checkOk) s = execLedgerUpdate checkOk s := fun _ _ => rfl
@[simp] theorem exec_lgEnable : ∀ v s, exec (.lgEnable v) s = execLgEnable v s := fun _ _ => rfl
@[simp] theorem exec_lgDisable : ∀ v s, exec (.lgDisable v) s = execLgDisable v s := fun _ _ => rfl
@[simp] theorem exec_lgArm : ∀ v s, exec (.lgArm v) s = execLgArm v s := fun _ _ => rfl
@[simp] theorem exec_lgSettleEnd (s : State) : exec .lgSettleEnd s = execLgSettleEnd s := rfl
@[simp] theorem exec_lastGaspSend : ∀ k s, exec (.lastGaspSend k) s = execLastGaspSend k s := fun _ _ => rfl
@[simp] theorem exec_witnessWaitTimeout (s : State) : exec .witnessWaitTimeout s = execWitnessWaitTimeout s := rfl
@[simp] theorem exec_saBind : ∀ p s, exec (.saBind p) s = execSaBind p s := fun _ _ => rfl
@[simp] theorem exec_saMapWrite : ∀ p rx v s, exec (.saMapWrite p rx v) s = execSaMapWrite p rx v s := fun _ _ _ _ => rfl
@[simp] theorem exec_pnWrite : ∀ a v s, exec (.pnWrite a v) s = execPnWrite a v s := fun _ _ _ => rfl
@[simp] theorem exec_keyImport : ∀ v s, exec (.keyImport v) s = execKeyImport v s := fun _ _ => rfl
@[simp] theorem exec_keyImportDone (s : State) : exec .keyImportDone s = execKeyImportDone s := rfl
@[simp] theorem exec_shadowRelease : ∀ a s, exec (.shadowRelease a) s = execShadowRelease a s := fun _ _ => rfl
@[simp] theorem exec_keyErase : ∀ v s, exec (.keyErase v) s = execKeyErase v s := fun _ _ => rfl
@[simp] theorem exec_eraseVerified (s : State) : exec .eraseVerified s = execEraseVerified s := rfl
@[simp] theorem exec_zeroize : ∀ src s, exec (.zeroize src) s = execZeroize src s := fun _ _ => rfl
@[simp] theorem exec_zeroizeVerify : ∀ ok s, exec (.zeroizeVerify ok) s = execZeroizeVerify ok s := fun _ _ => rfl
@[simp] theorem exec_keyScrub (s : State) : exec .keyScrub s = execKeyScrub s := rfl
@[simp] theorem exec_rngHealthFail (s : State) : exec .rngHealthFail s = execRngHealthFail s := rfl
@[simp] theorem exec_ckClaim : ∀ c u v s, exec (.ckClaim c u v) s = execCkClaim c u v s := fun _ _ _ _ => rfl
@[simp] theorem exec_ckRelease : ∀ c u v s, exec (.ckRelease c u v) s = execCkRelease c u v s := fun _ _ _ _ => rfl
@[simp] theorem exec_ckWindowWrite : ∀ c u v s, exec (.ckWindowWrite c u v) s = execCkWindowWrite c u v s := fun _ _ _ _ => rfl
@[simp] theorem exec_ckStart : ∀ c u s, exec (.ckStart c u) s = execCkStart c u s := fun _ _ _ => rfl
@[simp] theorem exec_ckTail : ∀ c u count s, exec (.ckTail c u count) s = execCkTail c u count s := fun _ _ _ _ => rfl
@[simp] theorem exec_ckFold : ∀ c u code s, exec (.ckFold c u code) s = execCkFold c u code s := fun _ _ _ _ => rfl
@[simp] theorem exec_ckCompare : ∀ c u agree s, exec (.ckCompare c u agree) s = execCkCompare c u agree s := fun _ _ _ _ => rfl
@[simp] theorem exec_stackSetState : ∀ h v s, exec (.stackSetState h v) s = execStackSetState h v s := fun _ _ _ => rfl
@[simp] theorem exec_stackRetrain : ∀ h v s, exec (.stackRetrain h v) s = execStackRetrain h v s := fun _ _ _ => rfl
@[simp] theorem exec_stackCmdDone : ∀ h trained s, exec (.stackCmdDone h trained) s = execStackCmdDone h trained s := fun _ _ _ => rfl
@[simp] theorem exec_hbmRequest : ∀ r s, exec (.hbmRequest r) s = execHbmRequest r s := fun _ _ => rfl
@[simp] theorem exec_hbmBurstIssue : ∀ h pc corr uncorr s, exec (.hbmBurstIssue h pc corr uncorr) s = execHbmBurstIssue h pc corr uncorr s := fun _ _ _ _ _ => rfl
@[simp] theorem exec_refreshInterval : ∀ h s, exec (.refreshInterval h) s = execRefreshInterval h s := fun _ _ => rfl
@[simp] theorem exec_starvePick : ∀ h pc s, exec (.starvePick h pc) s = execStarvePick h pc s := fun _ _ _ => rfl
@[simp] theorem exec_patrol : ∀ h corr uncorr s, exec (.patrol h corr uncorr) s = execPatrol h corr uncorr s := fun _ _ _ _ => rfl
@[simp] theorem exec_marginLow : ∀ h margin s, exec (.marginLow h margin) s = execMarginLow h margin s := fun _ _ _ => rfl
@[simp] theorem exec_hmDbWrite : ∀ n v s, exec (.hmDbWrite n v) s = execHmDbWrite n v s := fun _ _ _ => rfl
@[simp] theorem exec_purgeWalk : ∀ n q s, exec (.purgeWalk n q) s = execPurgeWalk n q s := fun _ _ _ => rfl
@[simp] theorem exec_dbAccountCheck : ∀ n s, exec (.dbAccountCheck n) s = execDbAccountCheck n s := fun _ _ => rfl
@[simp] theorem exec_hmErrlogClear : ∀ v s, exec (.hmErrlogClear v) s = execHmErrlogClear v s := fun _ _ => rfl
@[simp] theorem exec_clerkNanoWord : ∀ c s, exec (.clerkNanoWord c) s = execClerkNanoWord c s := fun _ _ => rfl
@[simp] theorem exec_clerkLoadReturn : ∀ c s, exec (.clerkLoadReturn c) s = execClerkLoadReturn c s := fun _ _ => rfl
@[simp] theorem exec_blockWord : ∀ c s, exec (.blockWord c) s = execBlockWord c s := fun _ _ => rfl
@[simp] theorem exec_clerkHalt : ∀ c s, exec (.clerkHalt c) s = execClerkHalt c s := fun _ _ => rfl
@[simp] theorem exec_clerkStart : ∀ c s, exec (.clerkStart c) s = execClerkStart c s := fun _ _ => rfl
@[simp] theorem exec_clerkReset : ∀ c s, exec (.clerkReset c) s = execClerkReset c s := fun _ _ => rfl
@[simp] theorem exec_clerkTaskWake : ∀ c s, exec (.clerkTaskWake c) s = execClerkTaskWake c s := fun _ _ => rfl
@[simp] theorem exec_clerkKick : ∀ c s, exec (.clerkKick c) s = execClerkKick c s := fun _ _ => rfl
@[simp] theorem exec_clerkWatchdog : ∀ c s, exec (.clerkWatchdog c) s = execClerkWatchdog c s := fun _ _ => rfl
@[simp] theorem exec_clerkStoreWrite : ∀ off v s, exec (.clerkStoreWrite off v) s = execClerkStoreWrite off v s := fun _ _ _ => rfl
@[simp] theorem exec_rxRingConfig : ∀ c tx v s, exec (.rxRingConfig c tx v) s = execRxRingConfig c tx v s := fun _ _ _ _ => rfl
@[simp] theorem exec_puntArrival : ∀ s, exec .puntArrival s = execPuntArrival s := fun _ => rfl
@[simp] theorem exec_clerkInject : ∀ c n pipe s, exec (.clerkInject c n pipe) s = execClerkInject c n pipe s := fun _ _ _ _ => rfl
@[simp] theorem exec_clerkDirect : ∀ c s, exec (.clerkDirect c) s = execClerkDirect c s := fun _ _ => rfl
@[simp] theorem exec_bootStart : ∀ straps s, exec (.bootStart straps) s = execBootStart straps s := fun _ _ => rfl
@[simp] theorem exec_bootSourceDone : ∀ image s, exec (.bootSourceDone image) s = execBootSourceDone image s := fun _ _ => rfl
@[simp] theorem exec_fuseRevoke : ∀ o v s, exec (.fuseRevoke o v) s = execFuseRevoke o v s := fun _ _ _ => rfl
@[simp] theorem exec_fuseRaise : ∀ o v s, exec (.fuseRaise o v) s = execFuseRaise o v s := fun _ _ _ => rfl
@[simp] theorem exec_txwinPush : ∀ v s, exec (.txwinPush v) s = execTxwinPush v s := fun _ _ => rfl
@[simp] theorem exec_slipComplete (s : State) : exec .slipComplete s = execSlipComplete s := rfl
@[simp] theorem exec_echo (s : State) : exec .echo s = execEcho s := rfl
@[simp] theorem exec_writeWords (s : State) : exec .writeWords s = execWriteWords s := rfl
@[simp] theorem exec_readWords (s : State) : exec .readWords s = execReadWords s := rfl
@[simp] theorem exec_runProgram (s : State) : exec .runProgram s = execRunProgram s := rfl
@[simp] theorem exec_loadImage (s : State) : exec .loadImage s = execLoadImage s := rfl
@[simp] theorem exec_importKey (s : State) : exec .importKey s = execImportKey s := rfl
@[simp] theorem exec_clerkBusy (s : State) : exec .clerkBusy s = execClerkBusy s := rfl
@[simp] theorem exec_slipIdleTimeout (s : State) : exec .slipIdleTimeout s = execSlipIdleTimeout s := rfl
@[simp] theorem exec_resync (s : State) : exec .resync s = execResync s := rfl
@[simp] theorem exec_rxpop : ∀ v s, exec (.rxpop v) s = execRxpop v s := fun _ _ => rfl
@[simp] theorem exec_receiptPlace (s : State) : exec .receiptPlace s = execReceiptPlace s := rfl
@[simp] theorem exec_clerkReceipt : ∀ c v s, exec (.clerkReceipt c v) s = execClerkReceipt c v s := fun _ _ _ => rfl
@[simp] theorem exec_endpointReset (s : State) : exec .endpointReset s = execEndpointReset s := rfl
@[simp] theorem exec_interruptEntry : ∀ c s, exec (.interruptEntry c) s = execInterruptEntry c s := fun _ _ => rfl
@[simp] theorem exec_polledClaim : ∀ c s, exec (.polledClaim c) s = execPolledClaim c s := fun _ _ => rfl
@[simp] theorem exec_evDone : ∀ c v s, exec (.evDone c v) s = execEvDone c v s := fun _ _ _ => rfl
@[simp] theorem exec_strandTimeout : ∀ n s, exec (.strandTimeout n) s = execStrandTimeout n s := fun _ _ => rfl
@[simp] theorem exec_evSrcWrite : ∀ n v s, exec (.evSrcWrite n v) s = execEvSrcWrite n v s := fun _ _ _ => rfl
@[simp] theorem exec_msixSend : ∀ k s, exec (.msixSend k) s = execMsixSend k s := fun _ _ => rfl
@[simp] theorem exec_vectorUnmask : ∀ k s, exec (.vectorUnmask k) s = execVectorUnmask k s := fun _ _ => rfl
@[simp] theorem exec_evTimerExpiry : ∀ c s, exec (.evTimerExpiry c) s = execEvTimerExpiry c s := fun _ _ => rfl
@[simp] theorem exec_softSet : ∀ tgt v s, exec (.softSet tgt v) s = execSoftSet tgt v s := fun _ _ _ => rfl
@[simp] theorem exec_pmRun : ∀ a v s, exec (.pmRun a v) s = execPmRun a v s := fun _ _ _ => rfl
@[simp] theorem exec_cycClear : ∀ a s, exec (.cycClear a) s = execCycClear a s := fun _ _ => rfl
@[simp] theorem exec_counterOverflow : ∀ a k s, exec (.counterOverflow a k) s = execCounterOverflow a k s := fun _ _ _ => rfl
@[simp] theorem exec_sampleCapture : ∀ a s, exec (.sampleCapture a) s = execSampleCapture a s := fun _ _ => rfl
@[simp] theorem exec_sfMemberWrite : ∀ v s, exec (.sfMemberWrite v) s = execSfMemberWrite v s := fun _ _ => rfl
@[simp] theorem exec_helloSend : ∀ p s, exec (.helloSend p) s = execHelloSend p s := fun _ _ => rfl
@[simp] theorem exec_helloRx : ∀ p bytes s, exec (.helloRx p bytes) s = execHelloRx p bytes s := fun _ _ _ => rfl
@[simp] theorem exec_linkDead : ∀ p s, exec (.linkDead p) s = execLinkDead p s := fun _ _ => rfl
@[simp] theorem exec_reachRead (s : State) : exec .reachRead s = execReachRead s := rfl
@[simp] theorem exec_reachWrite (s : State) : exec .reachWrite s = execReachWrite s := rfl
@[simp] theorem exec_twinRecordSend (s : State) : exec .twinRecordSend s = execTwinRecordSend s := rfl
@[simp] theorem exec_twinHeartbeat (s : State) : exec .twinHeartbeat s = execTwinHeartbeat s := rfl
@[simp] theorem exec_twinRecordRx : ∀ p rec s, exec (.twinRecordRx p rec) s = execTwinRecordRx p rec s := fun _ _ _ => rfl
@[simp] theorem exec_twinPartnerLost (s : State) : exec .twinPartnerLost s = execTwinPartnerLost s := rfl
@[simp] theorem exec_slicePowerCmd : ∀ n v s, exec (.slicePowerCmd n v) s = execSlicePowerCmd n v s := fun _ _ _ => rfl
@[simp] theorem exec_sliceTransitionDone : ∀ n failed s, exec (.sliceTransitionDone n failed) s = execSliceTransitionDone n failed s := fun _ _ _ => rfl
@[simp] theorem exec_quiesceTimeout : ∀ n s, exec (.quiesceTimeout n) s = execQuiesceTimeout n s := fun _ _ => rfl
@[simp] theorem exec_lanePower : ∀ l v s, exec (.lanePower l v) s = execLanePower l v s := fun _ _ _ => rfl
@[simp] theorem exec_laneTransitionDone : ∀ l s, exec (.laneTransitionDone l) s = execLaneTransitionDone l s := fun _ _ => rfl
@[simp] theorem exec_clerkPowerCmd : ∀ c v s, exec (.clerkPowerCmd c v) s = execClerkPowerCmd c v s := fun _ _ _ => rfl
@[simp] theorem exec_clerkPowerDone : ∀ c s, exec (.clerkPowerDone c) s = execClerkPowerDone c s := fun _ _ => rfl
@[simp] theorem exec_supplyAlarm : ∀ rail die glitch s, exec (.supplyAlarm rail die glitch) s = execSupplyAlarm rail die glitch s := fun _ _ _ _ => rfl
@[simp] theorem exec_pwrFailN (s : State) : exec .pwrFailN s = execPwrFailN s := rfl
@[simp] theorem exec_thermalWarn : ∀ d temp s, exec (.thermalWarn d temp) s = execThermalWarn d temp s := fun _ _ _ => rfl
@[simp] theorem exec_thermalCritical : ∀ d temp s, exec (.thermalCritical d temp) s = execThermalCritical d temp s := fun _ _ _ => rfl
@[simp] theorem exec_resetN (s : State) : exec .resetN s = execResetN s := rfl
@[simp] theorem exec_glResetArm : ∀ o v s, exec (.glResetArm o v) s = execGlResetArm o v s := fun _ _ _ => rfl
@[simp] theorem exec_glResetGo : ∀ o v s, exec (.glResetGo o v) s = execGlResetGo o v s := fun _ _ _ => rfl
@[simp] theorem exec_perstN (s : State) : exec .perstN s = execPerstN s := rfl
@[simp] theorem exec_clockMonitorFault : ∀ bit s, exec (.clockMonitorFault bit) s = execClockMonitorFault bit s := fun _ _ => rfl
@[simp] theorem exec_sdRefclkLoss : ∀ k s, exec (.sdRefclkLoss k) s = execSdRefclkLoss k s := fun _ _ => rfl
@[simp] theorem exec_pcieRefclkLoss (s : State) : exec .pcieRefclkLoss s = execPcieRefclkLoss s := rfl
@[simp] theorem exec_tsClkLoss (s : State) : exec .tsClkLoss s = execTsClkLoss s := rfl
@[simp] theorem exec_tbStep : ∀ v s, exec (.tbStep v) s = execTbStep v s := fun _ _ => rfl
@[simp] theorem exec_tbSet : ∀ v s, exec (.tbSet v) s = execTbSet v s := fun _ _ => rfl
@[simp] theorem exec_ppsIn (s : State) : exec .ppsIn s = execPpsIn s := rfl
@[simp] theorem exec_todInMessage : ∀ bytes s, exec (.todInMessage bytes) s = execTodInMessage bytes s := fun _ _ => rfl
@[simp] theorem exec_ppsOut (s : State) : exec .ppsOut s = execPpsOut s := rfl
@[simp] theorem exec_todOut (s : State) : exec .todOut s = execTodOut s := rfl
@[simp] theorem exec_txtsPop (s : State) : exec .txtsPop s = execTxtsPop s := rfl
@[simp] theorem exec_i2cBlockRead : ∀ cmd s, exec (.i2cBlockRead cmd) s = execI2cBlockRead cmd s := fun _ _ => rfl
@[simp] theorem exec_i2cZeroize : ∀ arg s, exec (.i2cZeroize arg) s = execI2cZeroize arg s := fun _ _ => rfl
@[simp] theorem exec_i2cHold : ∀ arg s, exec (.i2cHold arg) s = execI2cHold arg s := fun _ _ => rfl
@[simp] theorem exec_i2cReset : ∀ arg s, exec (.i2cReset arg) s = execI2cReset arg s := fun _ _ => rfl
@[simp] theorem exec_vrPoll : ∀ k reading s, exec (.vrPoll k reading) s = execVrPoll k reading s := fun _ _ _ => rfl
@[simp] theorem exec_jtagInstruction : ∀ ir s, exec (.jtagInstruction ir) s = execJtagInstruction ir s := fun _ _ => rfl
@[simp] theorem exec_faultRecord : ∀ origin s, exec (.faultRecord origin) s = execFaultRecord origin s := fun _ _ => rfl
@[simp] theorem exec_escWindowEnd : ∀ s, exec .escWindowEnd s = execEscWindowEnd s := fun _ => rfl
@[simp] theorem exec_collectorWatchdog (s : State) : exec .collectorWatchdog s = execCollectorWatchdog s := rfl
@[simp] theorem exec_tenantFreeze : ∀ t s, exec (.tenantFreeze t) s = execTenantFreeze t s := fun _ _ => rfl
@[simp] theorem exec_tenantRelease : ∀ t s, exec (.tenantRelease t) s = execTenantRelease t s := fun _ _ => rfl
@[simp] theorem exec_portFreeze : ∀ p s, exec (.portFreeze p) s = execPortFreeze p s := fun _ _ => rfl
@[simp] theorem exec_portRelease : ∀ p s, exec (.portRelease p) s = execPortRelease p s := fun _ _ => rfl
@[simp] theorem exec_sliceFreeze : ∀ n s, exec (.sliceFreeze n) s = execSliceFreeze n s := fun _ _ => rfl
@[simp] theorem exec_sliceRelease : ∀ n s, exec (.sliceRelease n) s = execSliceRelease n s := fun _ _ => rfl
@[simp] theorem exec_hold (s : State) : exec .hold s = execHold s := rfl
@[simp] theorem exec_fcInject : ∀ v s, exec (.fcInject v) s = execFcInject v s := fun _ _ => rfl
@[simp] theorem exec_logPop (s : State) : exec .logPop s = execLogPop s := rfl
@[simp] theorem exec_selftest : ∀ v s, exec (.selftest v) s = execSelftest v s := fun _ _ => rfl
@[simp] theorem exec_selftestDone : ∀ n firstFail s, exec (.selftestDone n firstFail) s = execSelftestDone n firstFail s := fun _ _ _ => rfl
@[simp] theorem exec_stripRotate : ∀ n s, exec (.stripRotate n) s = execStripRotate n s := fun _ _ => rfl
@[simp] theorem exec_stripStall : ∀ n s, exec (.stripStall n) s = execStripStall n s := fun _ _ => rfl
@[simp] theorem exec_stripTestDone : ∀ n fault s, exec (.stripTestDone n fault) s = execStripTestDone n fault s := fun _ _ _ => rfl
@[simp] theorem exec_coRead : ∀ n s, exec (.coRead n) s = execCoRead n s := fun _ _ => rfl
@[simp] theorem exec_coWrite : ∀ n s, exec (.coWrite n) s = execCoWrite n s := fun _ _ => rfl
@[simp] theorem exec_coInvalidate : ∀ n s, exec (.coInvalidate n) s = execCoInvalidate n s := fun _ _ => rfl
@[simp] theorem exec_coScrub : ∀ n s, exec (.coScrub n) s = execCoScrub n s := fun _ _ => rfl
@[simp] theorem exec_registerWrite : ∀ o addr v s, exec (.registerWrite o addr v) s = execRegisterWrite o addr v s := fun _ _ _ _ => rfl
@[simp] theorem exec_csPermitRead : ∀ n a w s, exec (.csPermitRead n a w) s = execCsPermitRead n a w s := fun _ _ _ _ => rfl
@[simp] theorem exec_hostBadAccess (s : State) : exec .hostBadAccess s = execHostBadAccess s := rfl
@[simp] theorem exec_rngHealthPass (s : State) : exec .rngHealthPass s = execRngHealthPass s := rfl
@[simp] theorem exec_tsClkRelock (s : State) : exec .tsClkRelock s = execTsClkRelock s := rfl
@[simp] theorem exec_faultClear : ∀ p remote s, exec (.faultClear p remote) s = execFaultClear p remote s := fun _ _ _ => rfl
@[simp] theorem exec_powerOn (s : State) : exec .powerOn s = execPowerOn s := rfl
@[simp] theorem exec_msixFunctionControl : ∀ enable mask busMaster s, exec (.msixFunctionControl enable mask busMaster) s = execMsixFunctionControl enable mask busMaster s := fun _ _ _ _ => rfl

end Sys2Proof.Machine
end

