-- ==== Sys2Proof/Laws/Stores.lean ====
section
/-! SUPPORT. The laws of the sparse stores: what reads back, what stands, and the canonical form (R19 memory, and every register). -/

namespace Sys2Proof.Machine

section Store

variable {K V : Type} [DecidableEq K]

theorem FMap.get_del_same (d : K → V) (m : List (K × V)) (k : K) : FMap.get d (FMap.del m k) k = d k := by
  induction m with
  | nil => rfl
  | cons e r ih =>
    by_cases h : e.1 = k
    · simpa [FMap.del, h] using ih
    · simpa [FMap.del, h, FMap.get] using ih

theorem FMap.get_del_other (d : K → V) (m : List (K × V)) {k k' : K} (hk : k' ≠ k) :
    FMap.get d (FMap.del m k) k' = FMap.get d m k' := by
  induction m with
  | nil => rfl
  | cons e r ih =>
    by_cases h : e.1 = k
    · simpa [FMap.del, h, FMap.get, hk.symm] using ih
    · by_cases h' : e.1 = k'
      · simp [FMap.del, FMap.get, h', hk]
      · simpa [FMap.del, h, FMap.get, h'] using ih

theorem FMap.get_ins_same (lt : K → K → Bool) (d : K → V) (m : List (K × V)) (k : K) (v : V)
    (h : ∀ e ∈ m, e.1 ≠ k) : FMap.get d (FMap.ins lt m k v) k = v := by
  induction m with
  | nil => simp [FMap.ins, FMap.get]
  | cons e r ih =>
    have he : e.1 ≠ k := h e (by simp)
    have hr := ih fun x hx => h x (by simp [hx])
    cases hlt : lt k e.1 <;> simp [FMap.ins, FMap.get, hlt, he, hr]

theorem FMap.get_ins_other (lt : K → K → Bool) (d : K → V) (m : List (K × V)) {k k' : K} (v : V) (hk : k' ≠ k) :
    FMap.get d (FMap.ins lt m k v) k' = FMap.get d m k' := by
  induction m with
  | nil => simp [FMap.ins, FMap.get, hk.symm]
  | cons e r ih =>
    obtain ⟨x, y⟩ := e
    cases hlt : lt k x
    · simp only [FMap.ins, hlt, FMap.get, ih, Bool.false_eq_true, if_false]
    · simp [FMap.ins, FMap.get, hlt, hk.symm]

/-- An entry put in its place and taken out again leaves the store as it was without its entries there. -/
theorem FMap.del_ins (lt : K → K → Bool) (m : List (K × V)) (k : K) (v : V) :
    FMap.del (FMap.ins lt m k v) k = FMap.del m k := by
  induction m with
  | nil => simp [FMap.ins, FMap.del]
  | cons e r ih =>
    obtain ⟨x, y⟩ := e
    cases h : lt k x
    · simp only [FMap.ins, h, Bool.false_eq_true, if_false]
      simp only [FMap.del, List.filter_cons] at ih ⊢
      rw [ih]
    · simp [FMap.ins, h, FMap.del]

theorem FMap.del_del (m : List (K × V)) (k : K) : FMap.del (FMap.del m k) k = FMap.del m k := by
  simp [FMap.del, List.filter_filter]

variable [DecidableEq V]

/-- A store reads at the key that was written what was written there. -/
@[simp] theorem FMap.get_put_same (lt : K → K → Bool) (d : K → V) (m : List (K × V)) (k : K) (v : V) :
    FMap.get d (FMap.put lt d m k v) k = v := by
  unfold FMap.put
  split
  · rename_i h
    rw [FMap.get_del_same, h]
  · exact FMap.get_ins_same lt d _ k v (by simp [FMap.del])

/-- A store reads at any other key what it read before. -/
theorem FMap.get_put_other (lt : K → K → Bool) (d : K → V) (m : List (K × V)) {k k' : K} (v : V) (hk : k' ≠ k) :
    FMap.get d (FMap.put lt d m k v) k' = FMap.get d m k' := by
  unfold FMap.put
  split
  · exact FMap.get_del_other d m hk
  · rw [FMap.get_ins_other lt d _ v hk, FMap.get_del_other d m hk]

/-- Of two writes at one key the later stands. -/
theorem FMap.put_put (lt : K → K → Bool) (d : K → V) (m : List (K × V)) (k : K) (v w : V) :
    FMap.put lt d (FMap.put lt d m k v) k w = FMap.put lt d m k w := by
  have e : FMap.del (FMap.put lt d m k v) k = FMap.del m k := by
    unfold FMap.put
    split
    · exact FMap.del_del m k
    · rw [FMap.del_ins, FMap.del_del]
  unfold FMap.put at *
  rw [e]

/-- The entries of a store with one put in its place: the new one and the old ones. -/
theorem FMap.mem_ins (lt : K → K → Bool) (m : List (K × V)) (k : K) (v : V) (x : K × V) :
    x ∈ FMap.ins lt m k v ↔ x = (k, v) ∨ x ∈ m := by
  induction m with
  | nil => simp [FMap.ins]
  | cons e r ih =>
    obtain ⟨k', v'⟩ := e
    cases h : lt k k' <;> simp [FMap.ins, h, ih]
    tauto

/-- Putting an entry in its place keeps a store in order. -/
theorem FMap.ins_sorted (lt : K → K → Bool) (trans : ∀ a b c, lt a b = true → lt b c = true → lt a c = true)
    (total : ∀ a b, a ≠ b → lt a b = false → lt b a = true) (m : List (K × V)) (k : K) (v : V)
    (hs : m.Pairwise (fun a b => lt a.1 b.1 = true)) (hk : ∀ e ∈ m, e.1 ≠ k) :
    (FMap.ins lt m k v).Pairwise (fun a b => lt a.1 b.1 = true) := by
  induction m with
  | nil => simp [FMap.ins]
  | cons e r ih =>
    obtain ⟨k', v'⟩ := e
    have hne : k ≠ k' := fun h => hk (k', v') (by simp) h.symm
    rw [List.pairwise_cons] at hs
    cases h : lt k k'
    · simp only [FMap.ins, h, Bool.false_eq_true, if_false, List.pairwise_cons]
      refine ⟨fun x hx => ?_, ih hs.2 fun x hx => hk x (by simp [hx])⟩
      rcases (FMap.mem_ins lt r k v x).1 hx with rfl | hx
      · exact total k k' hne h
      · exact hs.1 x hx
    · simp only [FMap.ins, h, if_true, List.pairwise_cons]
      refine ⟨fun x hx => ?_, hs⟩
      rcases List.mem_cons.1 hx with rfl | hx
      · exact h
      · exact trans _ _ _ h (hs.1 x hx)

/-- Every write keeps the canonical form of a store. -/
theorem FMap.put_wf (lt : K → K → Bool) (d : K → V) (trans : ∀ a b c, lt a b = true → lt b c = true → lt a c = true)
    (total : ∀ a b, a ≠ b → lt a b = false → lt b a = true) (m : List (K × V)) (k : K) (v : V)
    (h : FMap.wf lt d m = true) : FMap.wf lt d (FMap.put lt d m k v) = true := by
  simp only [FMap.wf, Bool.and_eq_true, decide_eq_true_eq, List.all_eq_true] at h ⊢
  have hd : (FMap.del m k).Pairwise (fun a b => lt a.1 b.1 = true) := h.1.filter _
  have hn : ∀ e ∈ FMap.del m k, e.2 ≠ d e.1 := fun e he => h.2 e (List.mem_of_mem_filter he)
  unfold FMap.put
  split
  · exact ⟨hd, hn⟩
  · rename_i hv
    refine ⟨FMap.ins_sorted lt trans total _ k v hd (by simp [FMap.del]), fun e he => ?_⟩
    rcases (FMap.mem_ins lt _ k v e).1 he with rfl | he
    · exact hv
    · exact hn e he

end Store

/-! ### Memory -/

/-- The memory after reset is in canonical form. -/
theorem Memory.wf_reset : Memory.wf State.reset.dev.hw.mem = true := rfl

/-- Writing a byte keeps memory in canonical form. -/
theorem Memory.write_wf (m : List Host.Cell) (a : Nat) (b : Byte) (h : Memory.wf m = true) :
    Memory.wf (Memory.write m a b) = true :=
  FMap.put_wf natLt Memory.unwritten
    (fun _ _ _ h1 h2 => by simp only [natLt, decide_eq_true_eq] at *; omega)
    (fun _ _ h1 h2 => by simp only [natLt, decide_eq_true_eq, decide_eq_false_iff_not] at *; omega) m a b h

/-- Writing bytes keeps memory in canonical form. -/
theorem Memory.writeBytes_wf (d : List Byte) : ∀ (m : List Host.Cell) (a : Nat), Memory.wf m = true →
    Memory.wf (Memory.writeBytes m a d) = true := by
  induction d with
  | nil => intro m a h; exact h
  | cons b r ih => intro m a h; exact ih _ _ (Memory.write_wf m a b h)

/-- A store to memory keeps its canonical form. -/
theorem Hw.store_wf (h : Hw) (a : Nat) (d : List Byte) (hw : Memory.wf h.mem = true) :
    Memory.wf (h.store a d).mem = true := Memory.writeBytes_wf d h.mem a hw

/-- A filtered memory keeps its canonical form. -/
theorem Memory.filter_wf (m : List Host.Cell) (p : Host.Cell → Bool) (h : Memory.wf m = true) :
    Memory.wf (m.filter p) = true := by
  simp only [Memory.wf, FMap.wf, Bool.and_eq_true, decide_eq_true_eq, List.all_eq_true] at h ⊢
  exact ⟨h.1.filter _, fun e he => h.2 e (List.mem_of_mem_filter he)⟩

/-- A byte written reads back. -/
@[simp] theorem Memory.read_write_same (m : List Host.Cell) (a : Nat) (b : Byte) :
    Memory.read (Memory.write m a b) a = b := FMap.get_put_same natLt Memory.unwritten m a b

/-- A byte written leaves every other byte. -/
theorem Memory.read_write_other (m : List Host.Cell) {a x : Nat} (b : Byte) (h : x ≠ a) :
    Memory.read (Memory.write m a b) x = Memory.read m x := FMap.get_put_other natLt Memory.unwritten m b h

/-! ### Registers -/

/-- A register word written reads back. -/
@[simp] theorem Hw.reg_setReg_same (h : Hw) (r : Reg) (w : Word) : (h.setReg r w).reg r = w :=
  FMap.get_put_same Reg.lt regReset h.words r w

/-- A register word written leaves every other word. -/
theorem Hw.reg_setReg_other (h : Hw) {r x : Reg} (w : Word) (hx : x ≠ r) : (h.setReg r w).reg x = h.reg x :=
  FMap.get_put_other Reg.lt regReset h.words w hx

end Sys2Proof.Machine
end

