-- ==== Sys2Proof/Laws/Fields.lean ====
section
/-! SUPPORT. The laws of bit fields: a field set reads back, and leaves every field beside it. -/

namespace Sys2Proof.Machine

/-- A number split at a field: what lies above it, the field, what lies below it. -/
theorem bits_split (v hi lo : Nat) :
    v = 2 ^ lo * (2 ^ (hi + 1 - lo) * (v / 2 ^ lo / 2 ^ (hi + 1 - lo)) + bits v hi lo) + v % 2 ^ lo := by
  unfold bits
  rw [Nat.shiftRight_eq_div_pow, Nat.div_add_mod, Nat.div_add_mod]

/-- A number with a field set, split in the same way. -/
theorem setBits_split (v hi lo x : Nat) :
    setBits v hi lo x =
      2 ^ lo * (2 ^ (hi + 1 - lo) * (v / 2 ^ lo / 2 ^ (hi + 1 - lo)) + x % 2 ^ (hi + 1 - lo)) + v % 2 ^ lo := by
  have h := bits_split v hi lo
  unfold setBits
  rw [Nat.shiftLeft_eq, Nat.shiftLeft_eq]
  generalize v / 2 ^ lo / 2 ^ (hi + 1 - lo) = q at *
  generalize bits v hi lo = m at *
  generalize x % 2 ^ (hi + 1 - lo) = y at *
  generalize v % 2 ^ lo = l at *
  subst h
  rw [Nat.mul_add, Nat.mul_add, Nat.mul_comm m, Nat.mul_comm y]
  omega

/-- A field set reads as the value, cut to its width. -/
@[simp] theorem bits_setBits_same (v hi lo x : Nat) : bits (setBits v hi lo x) hi lo = x % 2 ^ (hi + 1 - lo) := by
  rw [setBits_split]
  unfold bits
  have hl : v % 2 ^ lo < 2 ^ lo := Nat.mod_lt _ (Nat.two_pow_pos _)
  rw [Nat.shiftRight_eq_div_pow, Nat.mul_add_div (Nat.two_pow_pos _), Nat.div_eq_of_lt hl, Nat.add_zero,
    Nat.mul_add_mod, Nat.mod_mod]

/-- A field that lies above the one set reads as before. -/
theorem bits_setBits_above (v hi lo x hi' lo' : Nat) (h : hi < lo') (hle : lo ≤ hi + 1) :
    bits (setBits v hi lo x) hi' lo' = bits v hi' lo' := by
  have key (y : Nat) (hy : y < 2 ^ (hi + 1 - lo)) (l : Nat) (hl : l < 2 ^ lo) (q : Nat) :
      (2 ^ lo * (2 ^ (hi + 1 - lo) * q + y) + l) / 2 ^ lo' = q / 2 ^ (lo' - (hi + 1)) := by
    have e : 2 ^ lo' = 2 ^ lo * (2 ^ (hi + 1 - lo) * 2 ^ (lo' - (hi + 1))) := by
      rw [← Nat.pow_add, ← Nat.pow_add]; congr 1; omega
    rw [e, ← Nat.div_div_eq_div_mul, ← Nat.div_div_eq_div_mul, Nat.mul_add_div (Nat.two_pow_pos _), Nat.div_eq_of_lt hl,
      Nat.add_zero, Nat.mul_add_div (Nat.two_pow_pos _), Nat.div_eq_of_lt hy, Nat.add_zero]
  unfold bits
  rw [Nat.shiftRight_eq_div_pow, Nat.shiftRight_eq_div_pow, setBits_split,
    key _ (Nat.mod_lt _ (Nat.two_pow_pos _)) _ (Nat.mod_lt _ (Nat.two_pow_pos _))]
  conv_rhs => rw [bits_split v hi lo, key _ (by unfold bits; exact Nat.mod_lt _ (Nat.two_pow_pos _)) _
    (Nat.mod_lt _ (Nat.two_pow_pos _))]

/-- A field that lies below the one set reads as before. -/
theorem bits_setBits_below (v hi lo x hi' lo' : Nat) (h : hi' < lo) :
    bits (setBits v hi lo x) hi' lo' = bits v hi' lo' := by
  have cut (a b : Nat) (hab : a % 2 ^ lo = b % 2 ^ lo) : bits a hi' lo' = bits b hi' lo' := by
    have e (c : Nat) : bits c hi' lo' = bits (c % 2 ^ lo) hi' lo' := by
      unfold bits
      apply Nat.eq_of_testBit_eq
      intro i
      rw [Nat.testBit_mod_two_pow, Nat.testBit_mod_two_pow, Nat.testBit_shiftRight, Nat.testBit_shiftRight,
        Nat.testBit_mod_two_pow]
      by_cases hi1 : i < hi' + 1 - lo'
      · have : lo' + i < lo := by omega
        simp [hi1, this]
      · simp [hi1]
    rw [e a, e b, hab]
  apply cut
  rw [setBits_split, Nat.mul_add_mod, Nat.mod_mod]

/-- A word's fields do not depend on what lies above its 64 bits. -/
theorem bits_mod_word (v hi lo : Nat) (h : hi < 64) : bits (v % 2 ^ 64) hi lo = bits v hi lo := by
  unfold bits
  apply Nat.eq_of_testBit_eq
  intro i
  rw [Nat.testBit_mod_two_pow, Nat.testBit_mod_two_pow, Nat.testBit_shiftRight, Nat.testBit_shiftRight,
    Nat.testBit_mod_two_pow]
  by_cases hi1 : i < hi + 1 - lo
  · have : lo + i < 64 := by omega
    simp [hi1, this]
  · simp [hi1]

end Sys2Proof.Machine
end

