-- ==== Sys2Proof/Laws/State.lean ====
section
/-! SUPPORT. What each shared update leaves of the hardware: one lemma for each field, so that no later proof unfolds a record
update; and the two ways in which a command ends. -/

namespace Sys2Proof.Machine

/-! ### setReg -/

@[simp] theorem Hw.setReg_bad (h : Hw) (r : Reg) (w : Word) : (h.setReg r w).bad = h.bad := (rfl)
@[simp] theorem Hw.setReg_mem (h : Hw) (r : Reg) (w : Word) : (h.setReg r w).mem = h.mem := (rfl)
@[simp] theorem Hw.setReg_poison (h : Hw) (r : Reg) (w : Word) : (h.setReg r w).poison = h.poison := (rfl)
@[simp] theorem Hw.setReg_drawn (h : Hw) (r : Reg) (w : Word) : (h.setReg r w).drawn = h.drawn := (rfl)
@[simp] theorem Hw.setReg_ids (h : Hw) (r : Reg) (w : Word) : (h.setReg r w).ids = h.ids := (rfl)
@[simp] theorem Hw.setReg_lastDrop (h : Hw) (r : Reg) (w : Word) : (h.setReg r w).lastDrop = h.lastDrop := (rfl)
@[simp] theorem Hw.setReg_time (h : Hw) (r : Reg) (w : Word) : (h.setReg r w).time = h.time := (rfl)
@[simp] theorem Hw.setReg_up (h : Hw) (r : Reg) (w : Word) : (h.setReg r w).up = h.up := (rfl)
@[simp] theorem Hw.setReg_fc (h : Hw) (r : Reg) (w : Word) : (h.setReg r w).fc = h.fc := (rfl)
@[simp] theorem Hw.setReg_ports (h : Hw) (r : Reg) (w : Word) : (h.setReg r w).ports = h.ports := (rfl)
@[simp] theorem Hw.setReg_recirc (h : Hw) (r : Reg) (w : Word) : (h.setReg r w).recirc = h.recirc := (rfl)
@[simp] theorem Hw.setReg_punts (h : Hw) (r : Reg) (w : Word) : (h.setReg r w).punts = h.punts := (rfl)
@[simp] theorem Hw.setReg_deferred (h : Hw) (r : Reg) (w : Word) : (h.setReg r w).deferred = h.deferred := (rfl)
@[simp] theorem Hw.setReg_ctxs (h : Hw) (r : Reg) (w : Word) : (h.setReg r w).ctxs = h.ctxs := (rfl)
@[simp] theorem Hw.setReg_formers (h : Hw) (r : Reg) (w : Word) : (h.setReg r w).formers = h.formers := (rfl)
@[simp] theorem Hw.setReg_streams (h : Hw) (r : Reg) (w : Word) : (h.setReg r w).streams = h.streams := (rfl)
@[simp] theorem Hw.setReg_flight (h : Hw) (r : Reg) (w : Word) : (h.setReg r w).flight = h.flight := (rfl)
@[simp] theorem Hw.setReg_notices (h : Hw) (r : Reg) (w : Word) : (h.setReg r w).notices = h.notices := (rfl)
@[simp] theorem Hw.setReg_unacked (h : Hw) (r : Reg) (w : Word) : (h.setReg r w).unacked = h.unacked := (rfl)
@[simp] theorem Hw.setReg_planeErr (h : Hw) (r : Reg) (w : Word) : (h.setReg r w).planeErr = h.planeErr := (rfl)
@[simp] theorem Hw.setReg_planePtr (h : Hw) (r : Reg) (w : Word) : (h.setReg r w).planePtr = h.planePtr := (rfl)
@[simp] theorem Hw.setReg_restoring (h : Hw) (r : Reg) (w : Word) : (h.setReg r w).restoring = h.restoring := (rfl)
@[simp] theorem Hw.setReg_landings (h : Hw) (r : Reg) (w : Word) : (h.setReg r w).landings = h.landings := (rfl)
@[simp] theorem Hw.setReg_queues (h : Hw) (r : Reg) (w : Word) : (h.setReg r w).queues = h.queues := (rfl)
@[simp] theorem Hw.setReg_scheds (h : Hw) (r : Reg) (w : Word) : (h.setReg r w).scheds = h.scheds := (rfl)
@[simp] theorem Hw.setReg_dbs (h : Hw) (r : Reg) (w : Word) : (h.setReg r w).dbs = h.dbs := (rfl)
@[simp] theorem Hw.setReg_notes (h : Hw) (r : Reg) (w : Word) : (h.setReg r w).notes = h.notes := (rfl)
@[simp] theorem Hw.setReg_sent (h : Hw) (r : Reg) (w : Word) : (h.setReg r w).sent = h.sent := (rfl)
@[simp] theorem Hw.setReg_pools (h : Hw) (r : Reg) (w : Word) : (h.setReg r w).pools = h.pools := (rfl)
@[simp] theorem Hw.setReg_frees (h : Hw) (r : Reg) (w : Word) : (h.setReg r w).frees = h.frees := (rfl)
@[simp] theorem Hw.setReg_lgq (h : Hw) (r : Reg) (w : Word) : (h.setReg r w).lgq = h.lgq := (rfl)
@[simp] theorem Hw.setReg_lg (h : Hw) (r : Reg) (w : Word) : (h.setReg r w).lg = h.lg := (rfl)
@[simp] theorem Hw.setReg_ch (h : Hw) (r : Reg) (w : Word) : (h.setReg r w).ch = h.ch := (rfl)
@[simp] theorem Hw.setReg_ed (h : Hw) (r : Reg) (w : Word) : (h.setReg r w).ed = h.ed := (rfl)
@[simp] theorem Hw.setReg_moves (h : Hw) (r : Reg) (w : Word) : (h.setReg r w).moves = h.moves := (rfl)
@[simp] theorem Hw.setReg_wraps (h : Hw) (r : Reg) (w : Word) : (h.setReg r w).wraps = h.wraps := (rfl)
@[simp] theorem Hw.setReg_armed (h : Hw) (r : Reg) (w : Word) : (h.setReg r w).armed = h.armed := (rfl)
@[simp] theorem Hw.setReg_gate (h : Hw) (r : Reg) (w : Word) : (h.setReg r w).gate = h.gate := (rfl)
@[simp] theorem Hw.setReg_hbm (h : Hw) (r : Reg) (w : Word) : (h.setReg r w).hbm = h.hbm := (rfl)
@[simp] theorem Hw.setReg_clerks (h : Hw) (r : Reg) (w : Word) : (h.setReg r w).clerks = h.clerks := (rfl)
@[simp] theorem Hw.setReg_tw (h : Hw) (r : Reg) (w : Word) : (h.setReg r w).tw = h.tw := (rfl)
@[simp] theorem Hw.setReg_ev (h : Hw) (r : Reg) (w : Word) : (h.setReg r w).ev = h.ev := (rfl)
@[simp] theorem Hw.setReg_io (h : Hw) (r : Reg) (w : Word) : (h.setReg r w).io = h.io := (rfl)
@[simp] theorem Hw.setReg_fences (h : Hw) (r : Reg) (w : Word) : (h.setReg r w).fences = h.fences := (rfl)
@[simp] theorem Hw.setReg_links (h : Hw) (r : Reg) (w : Word) : (h.setReg r w).links = h.links := (rfl)
@[simp] theorem Hw.setReg_twin (h : Hw) (r : Reg) (w : Word) : (h.setReg r w).twin = h.twin := (rfl)
@[simp] theorem Hw.setReg_astray (h : Hw) (r : Reg) (w : Word) : (h.setReg r w).astray = h.astray := (rfl)
@[simp] theorem Hw.setReg_cam (h : Hw) (r : Reg) (w : Word) : (h.setReg r w).cam = h.cam := (rfl)
@[simp] theorem Hw.setReg_cx (h : Hw) (r : Reg) (w : Word) : (h.setReg r w).cx = h.cx := (rfl)
@[simp] theorem Hw.setReg_txts (h : Hw) (r : Reg) (w : Word) : (h.setReg r w).txts = h.txts := (rfl)
@[simp] theorem Hw.setReg_wrote (h : Hw) (r : Reg) (w : Word) : (h.setReg r w).wrote = h.wrote := (rfl)
@[simp] theorem Hw.setReg_get_port (h : Hw) (r : Reg) (w : Word) (q : Nat) : (h.setReg r w).port q = h.port q := (rfl)
@[simp] theorem Hw.setReg_get_pool (h : Hw) (r : Reg) (w : Word) (q : Nat) : (h.setReg r w).pool q = h.pool q := (rfl)
@[simp] theorem Hw.setReg_get_stream (h : Hw) (r : Reg) (w : Word) (q : Nat × Nat × Nat) : (h.setReg r w).stream q = h.stream q := (rfl)
@[simp] theorem Hw.setReg_get_ctx (h : Hw) (r : Reg) (w : Word) (q : Nat) : (h.setReg r w).ctx? q = h.ctx? q := (rfl)

/-! ### setVal -/

@[simp] theorem Hw.setVal_bad (h : Hw) (n : RegName) (v ix sl bank : Nat) : (h.setVal n v ix sl bank).bad = h.bad := (rfl)
@[simp] theorem Hw.setVal_mem (h : Hw) (n : RegName) (v ix sl bank : Nat) : (h.setVal n v ix sl bank).mem = h.mem := (rfl)
@[simp] theorem Hw.setVal_poison (h : Hw) (n : RegName) (v ix sl bank : Nat) : (h.setVal n v ix sl bank).poison = h.poison := (rfl)
@[simp] theorem Hw.setVal_drawn (h : Hw) (n : RegName) (v ix sl bank : Nat) : (h.setVal n v ix sl bank).drawn = h.drawn := (rfl)
@[simp] theorem Hw.setVal_ids (h : Hw) (n : RegName) (v ix sl bank : Nat) : (h.setVal n v ix sl bank).ids = h.ids := (rfl)
@[simp] theorem Hw.setVal_lastDrop (h : Hw) (n : RegName) (v ix sl bank : Nat) : (h.setVal n v ix sl bank).lastDrop = h.lastDrop := (rfl)
@[simp] theorem Hw.setVal_time (h : Hw) (n : RegName) (v ix sl bank : Nat) : (h.setVal n v ix sl bank).time = h.time := (rfl)
@[simp] theorem Hw.setVal_up (h : Hw) (n : RegName) (v ix sl bank : Nat) : (h.setVal n v ix sl bank).up = h.up := (rfl)
@[simp] theorem Hw.setVal_fc (h : Hw) (n : RegName) (v ix sl bank : Nat) : (h.setVal n v ix sl bank).fc = h.fc := (rfl)
@[simp] theorem Hw.setVal_ports (h : Hw) (n : RegName) (v ix sl bank : Nat) : (h.setVal n v ix sl bank).ports = h.ports := (rfl)
@[simp] theorem Hw.setVal_recirc (h : Hw) (n : RegName) (v ix sl bank : Nat) : (h.setVal n v ix sl bank).recirc = h.recirc := (rfl)
@[simp] theorem Hw.setVal_punts (h : Hw) (n : RegName) (v ix sl bank : Nat) : (h.setVal n v ix sl bank).punts = h.punts := (rfl)
@[simp] theorem Hw.setVal_deferred (h : Hw) (n : RegName) (v ix sl bank : Nat) : (h.setVal n v ix sl bank).deferred = h.deferred := (rfl)
@[simp] theorem Hw.setVal_ctxs (h : Hw) (n : RegName) (v ix sl bank : Nat) : (h.setVal n v ix sl bank).ctxs = h.ctxs := (rfl)
@[simp] theorem Hw.setVal_formers (h : Hw) (n : RegName) (v ix sl bank : Nat) : (h.setVal n v ix sl bank).formers = h.formers := (rfl)
@[simp] theorem Hw.setVal_streams (h : Hw) (n : RegName) (v ix sl bank : Nat) : (h.setVal n v ix sl bank).streams = h.streams := (rfl)
@[simp] theorem Hw.setVal_flight (h : Hw) (n : RegName) (v ix sl bank : Nat) : (h.setVal n v ix sl bank).flight = h.flight := (rfl)
@[simp] theorem Hw.setVal_notices (h : Hw) (n : RegName) (v ix sl bank : Nat) : (h.setVal n v ix sl bank).notices = h.notices := (rfl)
@[simp] theorem Hw.setVal_unacked (h : Hw) (n : RegName) (v ix sl bank : Nat) : (h.setVal n v ix sl bank).unacked = h.unacked := (rfl)
@[simp] theorem Hw.setVal_planeErr (h : Hw) (n : RegName) (v ix sl bank : Nat) : (h.setVal n v ix sl bank).planeErr = h.planeErr := (rfl)
@[simp] theorem Hw.setVal_planePtr (h : Hw) (n : RegName) (v ix sl bank : Nat) : (h.setVal n v ix sl bank).planePtr = h.planePtr := (rfl)
@[simp] theorem Hw.setVal_restoring (h : Hw) (n : RegName) (v ix sl bank : Nat) : (h.setVal n v ix sl bank).restoring = h.restoring := (rfl)
@[simp] theorem Hw.setVal_landings (h : Hw) (n : RegName) (v ix sl bank : Nat) : (h.setVal n v ix sl bank).landings = h.landings := (rfl)
@[simp] theorem Hw.setVal_queues (h : Hw) (n : RegName) (v ix sl bank : Nat) : (h.setVal n v ix sl bank).queues = h.queues := (rfl)
@[simp] theorem Hw.setVal_scheds (h : Hw) (n : RegName) (v ix sl bank : Nat) : (h.setVal n v ix sl bank).scheds = h.scheds := (rfl)
@[simp] theorem Hw.setVal_dbs (h : Hw) (n : RegName) (v ix sl bank : Nat) : (h.setVal n v ix sl bank).dbs = h.dbs := (rfl)
@[simp] theorem Hw.setVal_notes (h : Hw) (n : RegName) (v ix sl bank : Nat) : (h.setVal n v ix sl bank).notes = h.notes := (rfl)
@[simp] theorem Hw.setVal_sent (h : Hw) (n : RegName) (v ix sl bank : Nat) : (h.setVal n v ix sl bank).sent = h.sent := (rfl)
@[simp] theorem Hw.setVal_pools (h : Hw) (n : RegName) (v ix sl bank : Nat) : (h.setVal n v ix sl bank).pools = h.pools := (rfl)
@[simp] theorem Hw.setVal_frees (h : Hw) (n : RegName) (v ix sl bank : Nat) : (h.setVal n v ix sl bank).frees = h.frees := (rfl)
@[simp] theorem Hw.setVal_lgq (h : Hw) (n : RegName) (v ix sl bank : Nat) : (h.setVal n v ix sl bank).lgq = h.lgq := (rfl)
@[simp] theorem Hw.setVal_lg (h : Hw) (n : RegName) (v ix sl bank : Nat) : (h.setVal n v ix sl bank).lg = h.lg := (rfl)
@[simp] theorem Hw.setVal_ch (h : Hw) (n : RegName) (v ix sl bank : Nat) : (h.setVal n v ix sl bank).ch = h.ch := (rfl)
@[simp] theorem Hw.setVal_ed (h : Hw) (n : RegName) (v ix sl bank : Nat) : (h.setVal n v ix sl bank).ed = h.ed := (rfl)
@[simp] theorem Hw.setVal_moves (h : Hw) (n : RegName) (v ix sl bank : Nat) : (h.setVal n v ix sl bank).moves = h.moves := (rfl)
@[simp] theorem Hw.setVal_wraps (h : Hw) (n : RegName) (v ix sl bank : Nat) : (h.setVal n v ix sl bank).wraps = h.wraps := (rfl)
@[simp] theorem Hw.setVal_armed (h : Hw) (n : RegName) (v ix sl bank : Nat) : (h.setVal n v ix sl bank).armed = h.armed := (rfl)
@[simp] theorem Hw.setVal_gate (h : Hw) (n : RegName) (v ix sl bank : Nat) : (h.setVal n v ix sl bank).gate = h.gate := (rfl)
@[simp] theorem Hw.setVal_hbm (h : Hw) (n : RegName) (v ix sl bank : Nat) : (h.setVal n v ix sl bank).hbm = h.hbm := (rfl)
@[simp] theorem Hw.setVal_clerks (h : Hw) (n : RegName) (v ix sl bank : Nat) : (h.setVal n v ix sl bank).clerks = h.clerks := (rfl)
@[simp] theorem Hw.setVal_tw (h : Hw) (n : RegName) (v ix sl bank : Nat) : (h.setVal n v ix sl bank).tw = h.tw := (rfl)
@[simp] theorem Hw.setVal_ev (h : Hw) (n : RegName) (v ix sl bank : Nat) : (h.setVal n v ix sl bank).ev = h.ev := (rfl)
@[simp] theorem Hw.setVal_io (h : Hw) (n : RegName) (v ix sl bank : Nat) : (h.setVal n v ix sl bank).io = h.io := (rfl)
@[simp] theorem Hw.setVal_fences (h : Hw) (n : RegName) (v ix sl bank : Nat) : (h.setVal n v ix sl bank).fences = h.fences := (rfl)
@[simp] theorem Hw.setVal_links (h : Hw) (n : RegName) (v ix sl bank : Nat) : (h.setVal n v ix sl bank).links = h.links := (rfl)
@[simp] theorem Hw.setVal_twin (h : Hw) (n : RegName) (v ix sl bank : Nat) : (h.setVal n v ix sl bank).twin = h.twin := (rfl)
@[simp] theorem Hw.setVal_astray (h : Hw) (n : RegName) (v ix sl bank : Nat) : (h.setVal n v ix sl bank).astray = h.astray := (rfl)
@[simp] theorem Hw.setVal_cam (h : Hw) (n : RegName) (v ix sl bank : Nat) : (h.setVal n v ix sl bank).cam = h.cam := (rfl)
@[simp] theorem Hw.setVal_cx (h : Hw) (n : RegName) (v ix sl bank : Nat) : (h.setVal n v ix sl bank).cx = h.cx := (rfl)
@[simp] theorem Hw.setVal_txts (h : Hw) (n : RegName) (v ix sl bank : Nat) : (h.setVal n v ix sl bank).txts = h.txts := (rfl)
@[simp] theorem Hw.setVal_wrote (h : Hw) (n : RegName) (v ix sl bank : Nat) : (h.setVal n v ix sl bank).wrote = h.wrote := (rfl)
@[simp] theorem Hw.setVal_get_port (h : Hw) (n : RegName) (v ix sl bank : Nat) (q : Nat) : (h.setVal n v ix sl bank).port q = h.port q := (rfl)
@[simp] theorem Hw.setVal_get_pool (h : Hw) (n : RegName) (v ix sl bank : Nat) (q : Nat) : (h.setVal n v ix sl bank).pool q = h.pool q := (rfl)
@[simp] theorem Hw.setVal_get_stream (h : Hw) (n : RegName) (v ix sl bank : Nat) (q : Nat × Nat × Nat) : (h.setVal n v ix sl bank).stream q = h.stream q := (rfl)
@[simp] theorem Hw.setVal_get_ctx (h : Hw) (n : RegName) (v ix sl bank : Nat) (q : Nat) : (h.setVal n v ix sl bank).ctx? q = h.ctx? q := (rfl)

/-! ### wr -/

@[simp] theorem Hw.wr_bad (h : Hw) (f : Fld) (v ix sl bank : Nat) : (h.wr f v ix sl bank).bad = h.bad := (rfl)
@[simp] theorem Hw.wr_mem (h : Hw) (f : Fld) (v ix sl bank : Nat) : (h.wr f v ix sl bank).mem = h.mem := (rfl)
@[simp] theorem Hw.wr_poison (h : Hw) (f : Fld) (v ix sl bank : Nat) : (h.wr f v ix sl bank).poison = h.poison := (rfl)
@[simp] theorem Hw.wr_drawn (h : Hw) (f : Fld) (v ix sl bank : Nat) : (h.wr f v ix sl bank).drawn = h.drawn := (rfl)
@[simp] theorem Hw.wr_ids (h : Hw) (f : Fld) (v ix sl bank : Nat) : (h.wr f v ix sl bank).ids = h.ids := (rfl)
@[simp] theorem Hw.wr_lastDrop (h : Hw) (f : Fld) (v ix sl bank : Nat) : (h.wr f v ix sl bank).lastDrop = h.lastDrop := (rfl)
@[simp] theorem Hw.wr_time (h : Hw) (f : Fld) (v ix sl bank : Nat) : (h.wr f v ix sl bank).time = h.time := (rfl)
@[simp] theorem Hw.wr_up (h : Hw) (f : Fld) (v ix sl bank : Nat) : (h.wr f v ix sl bank).up = h.up := (rfl)
@[simp] theorem Hw.wr_fc (h : Hw) (f : Fld) (v ix sl bank : Nat) : (h.wr f v ix sl bank).fc = h.fc := (rfl)
@[simp] theorem Hw.wr_ports (h : Hw) (f : Fld) (v ix sl bank : Nat) : (h.wr f v ix sl bank).ports = h.ports := (rfl)
@[simp] theorem Hw.wr_recirc (h : Hw) (f : Fld) (v ix sl bank : Nat) : (h.wr f v ix sl bank).recirc = h.recirc := (rfl)
@[simp] theorem Hw.wr_punts (h : Hw) (f : Fld) (v ix sl bank : Nat) : (h.wr f v ix sl bank).punts = h.punts := (rfl)
@[simp] theorem Hw.wr_deferred (h : Hw) (f : Fld) (v ix sl bank : Nat) : (h.wr f v ix sl bank).deferred = h.deferred := (rfl)
@[simp] theorem Hw.wr_ctxs (h : Hw) (f : Fld) (v ix sl bank : Nat) : (h.wr f v ix sl bank).ctxs = h.ctxs := (rfl)
@[simp] theorem Hw.wr_formers (h : Hw) (f : Fld) (v ix sl bank : Nat) : (h.wr f v ix sl bank).formers = h.formers := (rfl)
@[simp] theorem Hw.wr_streams (h : Hw) (f : Fld) (v ix sl bank : Nat) : (h.wr f v ix sl bank).streams = h.streams := (rfl)
@[simp] theorem Hw.wr_flight (h : Hw) (f : Fld) (v ix sl bank : Nat) : (h.wr f v ix sl bank).flight = h.flight := (rfl)
@[simp] theorem Hw.wr_notices (h : Hw) (f : Fld) (v ix sl bank : Nat) : (h.wr f v ix sl bank).notices = h.notices := (rfl)
@[simp] theorem Hw.wr_unacked (h : Hw) (f : Fld) (v ix sl bank : Nat) : (h.wr f v ix sl bank).unacked = h.unacked := (rfl)
@[simp] theorem Hw.wr_planeErr (h : Hw) (f : Fld) (v ix sl bank : Nat) : (h.wr f v ix sl bank).planeErr = h.planeErr := (rfl)
@[simp] theorem Hw.wr_planePtr (h : Hw) (f : Fld) (v ix sl bank : Nat) : (h.wr f v ix sl bank).planePtr = h.planePtr := (rfl)
@[simp] theorem Hw.wr_restoring (h : Hw) (f : Fld) (v ix sl bank : Nat) : (h.wr f v ix sl bank).restoring = h.restoring := (rfl)
@[simp] theorem Hw.wr_landings (h : Hw) (f : Fld) (v ix sl bank : Nat) : (h.wr f v ix sl bank).landings = h.landings := (rfl)
@[simp] theorem Hw.wr_queues (h : Hw) (f : Fld) (v ix sl bank : Nat) : (h.wr f v ix sl bank).queues = h.queues := (rfl)
@[simp] theorem Hw.wr_scheds (h : Hw) (f : Fld) (v ix sl bank : Nat) : (h.wr f v ix sl bank).scheds = h.scheds := (rfl)
@[simp] theorem Hw.wr_dbs (h : Hw) (f : Fld) (v ix sl bank : Nat) : (h.wr f v ix sl bank).dbs = h.dbs := (rfl)
@[simp] theorem Hw.wr_notes (h : Hw) (f : Fld) (v ix sl bank : Nat) : (h.wr f v ix sl bank).notes = h.notes := (rfl)
@[simp] theorem Hw.wr_sent (h : Hw) (f : Fld) (v ix sl bank : Nat) : (h.wr f v ix sl bank).sent = h.sent := (rfl)
@[simp] theorem Hw.wr_pools (h : Hw) (f : Fld) (v ix sl bank : Nat) : (h.wr f v ix sl bank).pools = h.pools := (rfl)
@[simp] theorem Hw.wr_frees (h : Hw) (f : Fld) (v ix sl bank : Nat) : (h.wr f v ix sl bank).frees = h.frees := (rfl)
@[simp] theorem Hw.wr_lgq (h : Hw) (f : Fld) (v ix sl bank : Nat) : (h.wr f v ix sl bank).lgq = h.lgq := (rfl)
@[simp] theorem Hw.wr_lg (h : Hw) (f : Fld) (v ix sl bank : Nat) : (h.wr f v ix sl bank).lg = h.lg := (rfl)
@[simp] theorem Hw.wr_ch (h : Hw) (f : Fld) (v ix sl bank : Nat) : (h.wr f v ix sl bank).ch = h.ch := (rfl)
@[simp] theorem Hw.wr_ed (h : Hw) (f : Fld) (v ix sl bank : Nat) : (h.wr f v ix sl bank).ed = h.ed := (rfl)
@[simp] theorem Hw.wr_moves (h : Hw) (f : Fld) (v ix sl bank : Nat) : (h.wr f v ix sl bank).moves = h.moves := (rfl)
@[simp] theorem Hw.wr_wraps (h : Hw) (f : Fld) (v ix sl bank : Nat) : (h.wr f v ix sl bank).wraps = h.wraps := (rfl)
@[simp] theorem Hw.wr_armed (h : Hw) (f : Fld) (v ix sl bank : Nat) : (h.wr f v ix sl bank).armed = h.armed := (rfl)
@[simp] theorem Hw.wr_gate (h : Hw) (f : Fld) (v ix sl bank : Nat) : (h.wr f v ix sl bank).gate = h.gate := (rfl)
@[simp] theorem Hw.wr_hbm (h : Hw) (f : Fld) (v ix sl bank : Nat) : (h.wr f v ix sl bank).hbm = h.hbm := (rfl)
@[simp] theorem Hw.wr_clerks (h : Hw) (f : Fld) (v ix sl bank : Nat) : (h.wr f v ix sl bank).clerks = h.clerks := (rfl)
@[simp] theorem Hw.wr_tw (h : Hw) (f : Fld) (v ix sl bank : Nat) : (h.wr f v ix sl bank).tw = h.tw := (rfl)
@[simp] theorem Hw.wr_ev (h : Hw) (f : Fld) (v ix sl bank : Nat) : (h.wr f v ix sl bank).ev = h.ev := (rfl)
@[simp] theorem Hw.wr_io (h : Hw) (f : Fld) (v ix sl bank : Nat) : (h.wr f v ix sl bank).io = h.io := (rfl)
@[simp] theorem Hw.wr_fences (h : Hw) (f : Fld) (v ix sl bank : Nat) : (h.wr f v ix sl bank).fences = h.fences := (rfl)
@[simp] theorem Hw.wr_links (h : Hw) (f : Fld) (v ix sl bank : Nat) : (h.wr f v ix sl bank).links = h.links := (rfl)
@[simp] theorem Hw.wr_twin (h : Hw) (f : Fld) (v ix sl bank : Nat) : (h.wr f v ix sl bank).twin = h.twin := (rfl)
@[simp] theorem Hw.wr_astray (h : Hw) (f : Fld) (v ix sl bank : Nat) : (h.wr f v ix sl bank).astray = h.astray := (rfl)
@[simp] theorem Hw.wr_cam (h : Hw) (f : Fld) (v ix sl bank : Nat) : (h.wr f v ix sl bank).cam = h.cam := (rfl)
@[simp] theorem Hw.wr_cx (h : Hw) (f : Fld) (v ix sl bank : Nat) : (h.wr f v ix sl bank).cx = h.cx := (rfl)
@[simp] theorem Hw.wr_txts (h : Hw) (f : Fld) (v ix sl bank : Nat) : (h.wr f v ix sl bank).txts = h.txts := (rfl)
@[simp] theorem Hw.wr_wrote (h : Hw) (f : Fld) (v ix sl bank : Nat) : (h.wr f v ix sl bank).wrote = h.wrote := (rfl)
@[simp] theorem Hw.wr_get_port (h : Hw) (f : Fld) (v ix sl bank : Nat) (q : Nat) : (h.wr f v ix sl bank).port q = h.port q := (rfl)
@[simp] theorem Hw.wr_get_pool (h : Hw) (f : Fld) (v ix sl bank : Nat) (q : Nat) : (h.wr f v ix sl bank).pool q = h.pool q := (rfl)
@[simp] theorem Hw.wr_get_stream (h : Hw) (f : Fld) (v ix sl bank : Nat) (q : Nat × Nat × Nat) : (h.wr f v ix sl bank).stream q = h.stream q := (rfl)
@[simp] theorem Hw.wr_get_ctx (h : Hw) (f : Fld) (v ix sl bank : Nat) (q : Nat) : (h.wr f v ix sl bank).ctx? q = h.ctx? q := (rfl)

/-! ### setBit -/

@[simp] theorem Hw.setBit_bad (h : Hw) (f : Fld) (k ix sl : Nat) : (h.setBit f k ix sl).bad = h.bad := (rfl)
@[simp] theorem Hw.setBit_mem (h : Hw) (f : Fld) (k ix sl : Nat) : (h.setBit f k ix sl).mem = h.mem := (rfl)
@[simp] theorem Hw.setBit_poison (h : Hw) (f : Fld) (k ix sl : Nat) : (h.setBit f k ix sl).poison = h.poison := (rfl)
@[simp] theorem Hw.setBit_drawn (h : Hw) (f : Fld) (k ix sl : Nat) : (h.setBit f k ix sl).drawn = h.drawn := (rfl)
@[simp] theorem Hw.setBit_ids (h : Hw) (f : Fld) (k ix sl : Nat) : (h.setBit f k ix sl).ids = h.ids := (rfl)
@[simp] theorem Hw.setBit_lastDrop (h : Hw) (f : Fld) (k ix sl : Nat) : (h.setBit f k ix sl).lastDrop = h.lastDrop := (rfl)
@[simp] theorem Hw.setBit_time (h : Hw) (f : Fld) (k ix sl : Nat) : (h.setBit f k ix sl).time = h.time := (rfl)
@[simp] theorem Hw.setBit_up (h : Hw) (f : Fld) (k ix sl : Nat) : (h.setBit f k ix sl).up = h.up := (rfl)
@[simp] theorem Hw.setBit_fc (h : Hw) (f : Fld) (k ix sl : Nat) : (h.setBit f k ix sl).fc = h.fc := (rfl)
@[simp] theorem Hw.setBit_ports (h : Hw) (f : Fld) (k ix sl : Nat) : (h.setBit f k ix sl).ports = h.ports := (rfl)
@[simp] theorem Hw.setBit_recirc (h : Hw) (f : Fld) (k ix sl : Nat) : (h.setBit f k ix sl).recirc = h.recirc := (rfl)
@[simp] theorem Hw.setBit_punts (h : Hw) (f : Fld) (k ix sl : Nat) : (h.setBit f k ix sl).punts = h.punts := (rfl)
@[simp] theorem Hw.setBit_deferred (h : Hw) (f : Fld) (k ix sl : Nat) : (h.setBit f k ix sl).deferred = h.deferred := (rfl)
@[simp] theorem Hw.setBit_ctxs (h : Hw) (f : Fld) (k ix sl : Nat) : (h.setBit f k ix sl).ctxs = h.ctxs := (rfl)
@[simp] theorem Hw.setBit_formers (h : Hw) (f : Fld) (k ix sl : Nat) : (h.setBit f k ix sl).formers = h.formers := (rfl)
@[simp] theorem Hw.setBit_streams (h : Hw) (f : Fld) (k ix sl : Nat) : (h.setBit f k ix sl).streams = h.streams := (rfl)
@[simp] theorem Hw.setBit_flight (h : Hw) (f : Fld) (k ix sl : Nat) : (h.setBit f k ix sl).flight = h.flight := (rfl)
@[simp] theorem Hw.setBit_notices (h : Hw) (f : Fld) (k ix sl : Nat) : (h.setBit f k ix sl).notices = h.notices := (rfl)
@[simp] theorem Hw.setBit_unacked (h : Hw) (f : Fld) (k ix sl : Nat) : (h.setBit f k ix sl).unacked = h.unacked := (rfl)
@[simp] theorem Hw.setBit_planeErr (h : Hw) (f : Fld) (k ix sl : Nat) : (h.setBit f k ix sl).planeErr = h.planeErr := (rfl)
@[simp] theorem Hw.setBit_planePtr (h : Hw) (f : Fld) (k ix sl : Nat) : (h.setBit f k ix sl).planePtr = h.planePtr := (rfl)
@[simp] theorem Hw.setBit_restoring (h : Hw) (f : Fld) (k ix sl : Nat) : (h.setBit f k ix sl).restoring = h.restoring := (rfl)
@[simp] theorem Hw.setBit_landings (h : Hw) (f : Fld) (k ix sl : Nat) : (h.setBit f k ix sl).landings = h.landings := (rfl)
@[simp] theorem Hw.setBit_queues (h : Hw) (f : Fld) (k ix sl : Nat) : (h.setBit f k ix sl).queues = h.queues := (rfl)
@[simp] theorem Hw.setBit_scheds (h : Hw) (f : Fld) (k ix sl : Nat) : (h.setBit f k ix sl).scheds = h.scheds := (rfl)
@[simp] theorem Hw.setBit_dbs (h : Hw) (f : Fld) (k ix sl : Nat) : (h.setBit f k ix sl).dbs = h.dbs := (rfl)
@[simp] theorem Hw.setBit_notes (h : Hw) (f : Fld) (k ix sl : Nat) : (h.setBit f k ix sl).notes = h.notes := (rfl)
@[simp] theorem Hw.setBit_sent (h : Hw) (f : Fld) (k ix sl : Nat) : (h.setBit f k ix sl).sent = h.sent := (rfl)
@[simp] theorem Hw.setBit_pools (h : Hw) (f : Fld) (k ix sl : Nat) : (h.setBit f k ix sl).pools = h.pools := (rfl)
@[simp] theorem Hw.setBit_frees (h : Hw) (f : Fld) (k ix sl : Nat) : (h.setBit f k ix sl).frees = h.frees := (rfl)
@[simp] theorem Hw.setBit_lgq (h : Hw) (f : Fld) (k ix sl : Nat) : (h.setBit f k ix sl).lgq = h.lgq := (rfl)
@[simp] theorem Hw.setBit_lg (h : Hw) (f : Fld) (k ix sl : Nat) : (h.setBit f k ix sl).lg = h.lg := (rfl)
@[simp] theorem Hw.setBit_ch (h : Hw) (f : Fld) (k ix sl : Nat) : (h.setBit f k ix sl).ch = h.ch := (rfl)
@[simp] theorem Hw.setBit_ed (h : Hw) (f : Fld) (k ix sl : Nat) : (h.setBit f k ix sl).ed = h.ed := (rfl)
@[simp] theorem Hw.setBit_moves (h : Hw) (f : Fld) (k ix sl : Nat) : (h.setBit f k ix sl).moves = h.moves := (rfl)
@[simp] theorem Hw.setBit_wraps (h : Hw) (f : Fld) (k ix sl : Nat) : (h.setBit f k ix sl).wraps = h.wraps := (rfl)
@[simp] theorem Hw.setBit_armed (h : Hw) (f : Fld) (k ix sl : Nat) : (h.setBit f k ix sl).armed = h.armed := (rfl)
@[simp] theorem Hw.setBit_gate (h : Hw) (f : Fld) (k ix sl : Nat) : (h.setBit f k ix sl).gate = h.gate := (rfl)
@[simp] theorem Hw.setBit_hbm (h : Hw) (f : Fld) (k ix sl : Nat) : (h.setBit f k ix sl).hbm = h.hbm := (rfl)
@[simp] theorem Hw.setBit_clerks (h : Hw) (f : Fld) (k ix sl : Nat) : (h.setBit f k ix sl).clerks = h.clerks := (rfl)
@[simp] theorem Hw.setBit_tw (h : Hw) (f : Fld) (k ix sl : Nat) : (h.setBit f k ix sl).tw = h.tw := (rfl)
@[simp] theorem Hw.setBit_ev (h : Hw) (f : Fld) (k ix sl : Nat) : (h.setBit f k ix sl).ev = h.ev := (rfl)
@[simp] theorem Hw.setBit_io (h : Hw) (f : Fld) (k ix sl : Nat) : (h.setBit f k ix sl).io = h.io := (rfl)
@[simp] theorem Hw.setBit_fences (h : Hw) (f : Fld) (k ix sl : Nat) : (h.setBit f k ix sl).fences = h.fences := (rfl)
@[simp] theorem Hw.setBit_links (h : Hw) (f : Fld) (k ix sl : Nat) : (h.setBit f k ix sl).links = h.links := (rfl)
@[simp] theorem Hw.setBit_twin (h : Hw) (f : Fld) (k ix sl : Nat) : (h.setBit f k ix sl).twin = h.twin := (rfl)
@[simp] theorem Hw.setBit_astray (h : Hw) (f : Fld) (k ix sl : Nat) : (h.setBit f k ix sl).astray = h.astray := (rfl)
@[simp] theorem Hw.setBit_cam (h : Hw) (f : Fld) (k ix sl : Nat) : (h.setBit f k ix sl).cam = h.cam := (rfl)
@[simp] theorem Hw.setBit_cx (h : Hw) (f : Fld) (k ix sl : Nat) : (h.setBit f k ix sl).cx = h.cx := (rfl)
@[simp] theorem Hw.setBit_txts (h : Hw) (f : Fld) (k ix sl : Nat) : (h.setBit f k ix sl).txts = h.txts := (rfl)
@[simp] theorem Hw.setBit_wrote (h : Hw) (f : Fld) (k ix sl : Nat) : (h.setBit f k ix sl).wrote = h.wrote := (rfl)
@[simp] theorem Hw.setBit_get_port (h : Hw) (f : Fld) (k ix sl : Nat) (q : Nat) : (h.setBit f k ix sl).port q = h.port q := (rfl)
@[simp] theorem Hw.setBit_get_pool (h : Hw) (f : Fld) (k ix sl : Nat) (q : Nat) : (h.setBit f k ix sl).pool q = h.pool q := (rfl)
@[simp] theorem Hw.setBit_get_stream (h : Hw) (f : Fld) (k ix sl : Nat) (q : Nat × Nat × Nat) : (h.setBit f k ix sl).stream q = h.stream q := (rfl)
@[simp] theorem Hw.setBit_get_ctx (h : Hw) (f : Fld) (k ix sl : Nat) (q : Nat) : (h.setBit f k ix sl).ctx? q = h.ctx? q := (rfl)

/-! ### count -/

@[simp] theorem Hw.count_bad (h : Hw) (f : Fld) (ix sl n : Nat) : (h.count f ix sl n).bad = h.bad := (rfl)
@[simp] theorem Hw.count_mem (h : Hw) (f : Fld) (ix sl n : Nat) : (h.count f ix sl n).mem = h.mem := (rfl)
@[simp] theorem Hw.count_poison (h : Hw) (f : Fld) (ix sl n : Nat) : (h.count f ix sl n).poison = h.poison := (rfl)
@[simp] theorem Hw.count_drawn (h : Hw) (f : Fld) (ix sl n : Nat) : (h.count f ix sl n).drawn = h.drawn := (rfl)
@[simp] theorem Hw.count_ids (h : Hw) (f : Fld) (ix sl n : Nat) : (h.count f ix sl n).ids = h.ids := (rfl)
@[simp] theorem Hw.count_lastDrop (h : Hw) (f : Fld) (ix sl n : Nat) : (h.count f ix sl n).lastDrop = h.lastDrop := (rfl)
@[simp] theorem Hw.count_time (h : Hw) (f : Fld) (ix sl n : Nat) : (h.count f ix sl n).time = h.time := (rfl)
@[simp] theorem Hw.count_up (h : Hw) (f : Fld) (ix sl n : Nat) : (h.count f ix sl n).up = h.up := (rfl)
@[simp] theorem Hw.count_fc (h : Hw) (f : Fld) (ix sl n : Nat) : (h.count f ix sl n).fc = h.fc := (rfl)
@[simp] theorem Hw.count_ports (h : Hw) (f : Fld) (ix sl n : Nat) : (h.count f ix sl n).ports = h.ports := (rfl)
@[simp] theorem Hw.count_recirc (h : Hw) (f : Fld) (ix sl n : Nat) : (h.count f ix sl n).recirc = h.recirc := (rfl)
@[simp] theorem Hw.count_punts (h : Hw) (f : Fld) (ix sl n : Nat) : (h.count f ix sl n).punts = h.punts := (rfl)
@[simp] theorem Hw.count_deferred (h : Hw) (f : Fld) (ix sl n : Nat) : (h.count f ix sl n).deferred = h.deferred := (rfl)
@[simp] theorem Hw.count_ctxs (h : Hw) (f : Fld) (ix sl n : Nat) : (h.count f ix sl n).ctxs = h.ctxs := (rfl)
@[simp] theorem Hw.count_formers (h : Hw) (f : Fld) (ix sl n : Nat) : (h.count f ix sl n).formers = h.formers := (rfl)
@[simp] theorem Hw.count_streams (h : Hw) (f : Fld) (ix sl n : Nat) : (h.count f ix sl n).streams = h.streams := (rfl)
@[simp] theorem Hw.count_flight (h : Hw) (f : Fld) (ix sl n : Nat) : (h.count f ix sl n).flight = h.flight := (rfl)
@[simp] theorem Hw.count_notices (h : Hw) (f : Fld) (ix sl n : Nat) : (h.count f ix sl n).notices = h.notices := (rfl)
@[simp] theorem Hw.count_unacked (h : Hw) (f : Fld) (ix sl n : Nat) : (h.count f ix sl n).unacked = h.unacked := (rfl)
@[simp] theorem Hw.count_planeErr (h : Hw) (f : Fld) (ix sl n : Nat) : (h.count f ix sl n).planeErr = h.planeErr := (rfl)
@[simp] theorem Hw.count_planePtr (h : Hw) (f : Fld) (ix sl n : Nat) : (h.count f ix sl n).planePtr = h.planePtr := (rfl)
@[simp] theorem Hw.count_restoring (h : Hw) (f : Fld) (ix sl n : Nat) : (h.count f ix sl n).restoring = h.restoring := (rfl)
@[simp] theorem Hw.count_landings (h : Hw) (f : Fld) (ix sl n : Nat) : (h.count f ix sl n).landings = h.landings := (rfl)
@[simp] theorem Hw.count_queues (h : Hw) (f : Fld) (ix sl n : Nat) : (h.count f ix sl n).queues = h.queues := (rfl)
@[simp] theorem Hw.count_scheds (h : Hw) (f : Fld) (ix sl n : Nat) : (h.count f ix sl n).scheds = h.scheds := (rfl)
@[simp] theorem Hw.count_dbs (h : Hw) (f : Fld) (ix sl n : Nat) : (h.count f ix sl n).dbs = h.dbs := (rfl)
@[simp] theorem Hw.count_notes (h : Hw) (f : Fld) (ix sl n : Nat) : (h.count f ix sl n).notes = h.notes := (rfl)
@[simp] theorem Hw.count_sent (h : Hw) (f : Fld) (ix sl n : Nat) : (h.count f ix sl n).sent = h.sent := (rfl)
@[simp] theorem Hw.count_pools (h : Hw) (f : Fld) (ix sl n : Nat) : (h.count f ix sl n).pools = h.pools := (rfl)
@[simp] theorem Hw.count_frees (h : Hw) (f : Fld) (ix sl n : Nat) : (h.count f ix sl n).frees = h.frees := (rfl)
@[simp] theorem Hw.count_lgq (h : Hw) (f : Fld) (ix sl n : Nat) : (h.count f ix sl n).lgq = h.lgq := (rfl)
@[simp] theorem Hw.count_lg (h : Hw) (f : Fld) (ix sl n : Nat) : (h.count f ix sl n).lg = h.lg := (rfl)
@[simp] theorem Hw.count_ch (h : Hw) (f : Fld) (ix sl n : Nat) : (h.count f ix sl n).ch = h.ch := (rfl)
@[simp] theorem Hw.count_ed (h : Hw) (f : Fld) (ix sl n : Nat) : (h.count f ix sl n).ed = h.ed := (rfl)
@[simp] theorem Hw.count_moves (h : Hw) (f : Fld) (ix sl n : Nat) : (h.count f ix sl n).moves = h.moves := (rfl)
@[simp] theorem Hw.count_wraps (h : Hw) (f : Fld) (ix sl n : Nat) : (h.count f ix sl n).wraps = h.wraps := (rfl)
@[simp] theorem Hw.count_armed (h : Hw) (f : Fld) (ix sl n : Nat) : (h.count f ix sl n).armed = h.armed := (rfl)
@[simp] theorem Hw.count_gate (h : Hw) (f : Fld) (ix sl n : Nat) : (h.count f ix sl n).gate = h.gate := (rfl)
@[simp] theorem Hw.count_hbm (h : Hw) (f : Fld) (ix sl n : Nat) : (h.count f ix sl n).hbm = h.hbm := (rfl)
@[simp] theorem Hw.count_clerks (h : Hw) (f : Fld) (ix sl n : Nat) : (h.count f ix sl n).clerks = h.clerks := (rfl)
@[simp] theorem Hw.count_tw (h : Hw) (f : Fld) (ix sl n : Nat) : (h.count f ix sl n).tw = h.tw := (rfl)
@[simp] theorem Hw.count_ev (h : Hw) (f : Fld) (ix sl n : Nat) : (h.count f ix sl n).ev = h.ev := (rfl)
@[simp] theorem Hw.count_io (h : Hw) (f : Fld) (ix sl n : Nat) : (h.count f ix sl n).io = h.io := (rfl)
@[simp] theorem Hw.count_fences (h : Hw) (f : Fld) (ix sl n : Nat) : (h.count f ix sl n).fences = h.fences := (rfl)
@[simp] theorem Hw.count_links (h : Hw) (f : Fld) (ix sl n : Nat) : (h.count f ix sl n).links = h.links := (rfl)
@[simp] theorem Hw.count_twin (h : Hw) (f : Fld) (ix sl n : Nat) : (h.count f ix sl n).twin = h.twin := (rfl)
@[simp] theorem Hw.count_astray (h : Hw) (f : Fld) (ix sl n : Nat) : (h.count f ix sl n).astray = h.astray := (rfl)
@[simp] theorem Hw.count_cam (h : Hw) (f : Fld) (ix sl n : Nat) : (h.count f ix sl n).cam = h.cam := (rfl)
@[simp] theorem Hw.count_cx (h : Hw) (f : Fld) (ix sl n : Nat) : (h.count f ix sl n).cx = h.cx := (rfl)
@[simp] theorem Hw.count_txts (h : Hw) (f : Fld) (ix sl n : Nat) : (h.count f ix sl n).txts = h.txts := (rfl)
@[simp] theorem Hw.count_wrote (h : Hw) (f : Fld) (ix sl n : Nat) : (h.count f ix sl n).wrote = h.wrote := (rfl)
@[simp] theorem Hw.count_get_port (h : Hw) (f : Fld) (ix sl n : Nat) (q : Nat) : (h.count f ix sl n).port q = h.port q := (rfl)
@[simp] theorem Hw.count_get_pool (h : Hw) (f : Fld) (ix sl n : Nat) (q : Nat) : (h.count f ix sl n).pool q = h.pool q := (rfl)
@[simp] theorem Hw.count_get_stream (h : Hw) (f : Fld) (ix sl n : Nat) (q : Nat × Nat × Nat) : (h.count f ix sl n).stream q = h.stream q := (rfl)
@[simp] theorem Hw.count_get_ctx (h : Hw) (f : Fld) (ix sl n : Nat) (q : Nat) : (h.count f ix sl n).ctx? q = h.ctx? q := (rfl)

/-! ### countSat -/

@[simp] theorem Hw.countSat_bad (h : Hw) (f : Fld) (ix sl n : Nat) : (h.countSat f ix sl n).bad = h.bad := (rfl)
@[simp] theorem Hw.countSat_mem (h : Hw) (f : Fld) (ix sl n : Nat) : (h.countSat f ix sl n).mem = h.mem := (rfl)
@[simp] theorem Hw.countSat_poison (h : Hw) (f : Fld) (ix sl n : Nat) : (h.countSat f ix sl n).poison = h.poison := (rfl)
@[simp] theorem Hw.countSat_drawn (h : Hw) (f : Fld) (ix sl n : Nat) : (h.countSat f ix sl n).drawn = h.drawn := (rfl)
@[simp] theorem Hw.countSat_ids (h : Hw) (f : Fld) (ix sl n : Nat) : (h.countSat f ix sl n).ids = h.ids := (rfl)
@[simp] theorem Hw.countSat_lastDrop (h : Hw) (f : Fld) (ix sl n : Nat) : (h.countSat f ix sl n).lastDrop = h.lastDrop := (rfl)
@[simp] theorem Hw.countSat_time (h : Hw) (f : Fld) (ix sl n : Nat) : (h.countSat f ix sl n).time = h.time := (rfl)
@[simp] theorem Hw.countSat_up (h : Hw) (f : Fld) (ix sl n : Nat) : (h.countSat f ix sl n).up = h.up := (rfl)
@[simp] theorem Hw.countSat_fc (h : Hw) (f : Fld) (ix sl n : Nat) : (h.countSat f ix sl n).fc = h.fc := (rfl)
@[simp] theorem Hw.countSat_ports (h : Hw) (f : Fld) (ix sl n : Nat) : (h.countSat f ix sl n).ports = h.ports := (rfl)
@[simp] theorem Hw.countSat_recirc (h : Hw) (f : Fld) (ix sl n : Nat) : (h.countSat f ix sl n).recirc = h.recirc := (rfl)
@[simp] theorem Hw.countSat_punts (h : Hw) (f : Fld) (ix sl n : Nat) : (h.countSat f ix sl n).punts = h.punts := (rfl)
@[simp] theorem Hw.countSat_deferred (h : Hw) (f : Fld) (ix sl n : Nat) : (h.countSat f ix sl n).deferred = h.deferred := (rfl)
@[simp] theorem Hw.countSat_ctxs (h : Hw) (f : Fld) (ix sl n : Nat) : (h.countSat f ix sl n).ctxs = h.ctxs := (rfl)
@[simp] theorem Hw.countSat_formers (h : Hw) (f : Fld) (ix sl n : Nat) : (h.countSat f ix sl n).formers = h.formers := (rfl)
@[simp] theorem Hw.countSat_streams (h : Hw) (f : Fld) (ix sl n : Nat) : (h.countSat f ix sl n).streams = h.streams := (rfl)
@[simp] theorem Hw.countSat_flight (h : Hw) (f : Fld) (ix sl n : Nat) : (h.countSat f ix sl n).flight = h.flight := (rfl)
@[simp] theorem Hw.countSat_notices (h : Hw) (f : Fld) (ix sl n : Nat) : (h.countSat f ix sl n).notices = h.notices := (rfl)
@[simp] theorem Hw.countSat_unacked (h : Hw) (f : Fld) (ix sl n : Nat) : (h.countSat f ix sl n).unacked = h.unacked := (rfl)
@[simp] theorem Hw.countSat_planeErr (h : Hw) (f : Fld) (ix sl n : Nat) : (h.countSat f ix sl n).planeErr = h.planeErr := (rfl)
@[simp] theorem Hw.countSat_planePtr (h : Hw) (f : Fld) (ix sl n : Nat) : (h.countSat f ix sl n).planePtr = h.planePtr := (rfl)
@[simp] theorem Hw.countSat_restoring (h : Hw) (f : Fld) (ix sl n : Nat) : (h.countSat f ix sl n).restoring = h.restoring := (rfl)
@[simp] theorem Hw.countSat_landings (h : Hw) (f : Fld) (ix sl n : Nat) : (h.countSat f ix sl n).landings = h.landings := (rfl)
@[simp] theorem Hw.countSat_queues (h : Hw) (f : Fld) (ix sl n : Nat) : (h.countSat f ix sl n).queues = h.queues := (rfl)
@[simp] theorem Hw.countSat_scheds (h : Hw) (f : Fld) (ix sl n : Nat) : (h.countSat f ix sl n).scheds = h.scheds := (rfl)
@[simp] theorem Hw.countSat_dbs (h : Hw) (f : Fld) (ix sl n : Nat) : (h.countSat f ix sl n).dbs = h.dbs := (rfl)
@[simp] theorem Hw.countSat_notes (h : Hw) (f : Fld) (ix sl n : Nat) : (h.countSat f ix sl n).notes = h.notes := (rfl)
@[simp] theorem Hw.countSat_sent (h : Hw) (f : Fld) (ix sl n : Nat) : (h.countSat f ix sl n).sent = h.sent := (rfl)
@[simp] theorem Hw.countSat_pools (h : Hw) (f : Fld) (ix sl n : Nat) : (h.countSat f ix sl n).pools = h.pools := (rfl)
@[simp] theorem Hw.countSat_frees (h : Hw) (f : Fld) (ix sl n : Nat) : (h.countSat f ix sl n).frees = h.frees := (rfl)
@[simp] theorem Hw.countSat_lgq (h : Hw) (f : Fld) (ix sl n : Nat) : (h.countSat f ix sl n).lgq = h.lgq := (rfl)
@[simp] theorem Hw.countSat_lg (h : Hw) (f : Fld) (ix sl n : Nat) : (h.countSat f ix sl n).lg = h.lg := (rfl)
@[simp] theorem Hw.countSat_ch (h : Hw) (f : Fld) (ix sl n : Nat) : (h.countSat f ix sl n).ch = h.ch := (rfl)
@[simp] theorem Hw.countSat_ed (h : Hw) (f : Fld) (ix sl n : Nat) : (h.countSat f ix sl n).ed = h.ed := (rfl)
@[simp] theorem Hw.countSat_moves (h : Hw) (f : Fld) (ix sl n : Nat) : (h.countSat f ix sl n).moves = h.moves := (rfl)
@[simp] theorem Hw.countSat_wraps (h : Hw) (f : Fld) (ix sl n : Nat) : (h.countSat f ix sl n).wraps = h.wraps := (rfl)
@[simp] theorem Hw.countSat_armed (h : Hw) (f : Fld) (ix sl n : Nat) : (h.countSat f ix sl n).armed = h.armed := (rfl)
@[simp] theorem Hw.countSat_gate (h : Hw) (f : Fld) (ix sl n : Nat) : (h.countSat f ix sl n).gate = h.gate := (rfl)
@[simp] theorem Hw.countSat_hbm (h : Hw) (f : Fld) (ix sl n : Nat) : (h.countSat f ix sl n).hbm = h.hbm := (rfl)
@[simp] theorem Hw.countSat_clerks (h : Hw) (f : Fld) (ix sl n : Nat) : (h.countSat f ix sl n).clerks = h.clerks := (rfl)
@[simp] theorem Hw.countSat_tw (h : Hw) (f : Fld) (ix sl n : Nat) : (h.countSat f ix sl n).tw = h.tw := (rfl)
@[simp] theorem Hw.countSat_ev (h : Hw) (f : Fld) (ix sl n : Nat) : (h.countSat f ix sl n).ev = h.ev := (rfl)
@[simp] theorem Hw.countSat_io (h : Hw) (f : Fld) (ix sl n : Nat) : (h.countSat f ix sl n).io = h.io := (rfl)
@[simp] theorem Hw.countSat_fences (h : Hw) (f : Fld) (ix sl n : Nat) : (h.countSat f ix sl n).fences = h.fences := (rfl)
@[simp] theorem Hw.countSat_links (h : Hw) (f : Fld) (ix sl n : Nat) : (h.countSat f ix sl n).links = h.links := (rfl)
@[simp] theorem Hw.countSat_twin (h : Hw) (f : Fld) (ix sl n : Nat) : (h.countSat f ix sl n).twin = h.twin := (rfl)
@[simp] theorem Hw.countSat_astray (h : Hw) (f : Fld) (ix sl n : Nat) : (h.countSat f ix sl n).astray = h.astray := (rfl)
@[simp] theorem Hw.countSat_cam (h : Hw) (f : Fld) (ix sl n : Nat) : (h.countSat f ix sl n).cam = h.cam := (rfl)
@[simp] theorem Hw.countSat_cx (h : Hw) (f : Fld) (ix sl n : Nat) : (h.countSat f ix sl n).cx = h.cx := (rfl)
@[simp] theorem Hw.countSat_txts (h : Hw) (f : Fld) (ix sl n : Nat) : (h.countSat f ix sl n).txts = h.txts := (rfl)
@[simp] theorem Hw.countSat_wrote (h : Hw) (f : Fld) (ix sl n : Nat) : (h.countSat f ix sl n).wrote = h.wrote := (rfl)
@[simp] theorem Hw.countSat_get_port (h : Hw) (f : Fld) (ix sl n : Nat) (q : Nat) : (h.countSat f ix sl n).port q = h.port q := (rfl)
@[simp] theorem Hw.countSat_get_pool (h : Hw) (f : Fld) (ix sl n : Nat) (q : Nat) : (h.countSat f ix sl n).pool q = h.pool q := (rfl)
@[simp] theorem Hw.countSat_get_stream (h : Hw) (f : Fld) (ix sl n : Nat) (q : Nat × Nat × Nat) : (h.countSat f ix sl n).stream q = h.stream q := (rfl)
@[simp] theorem Hw.countSat_get_ctx (h : Hw) (f : Fld) (ix sl n : Nat) (q : Nat) : (h.countSat f ix sl n).ctx? q = h.ctx? q := (rfl)

/-! ### mark -/

@[simp] theorem Hw.mark_words (h : Hw) (r : Reg) (b : Bool) : (h.mark r b).words = h.words := (rfl)
@[simp] theorem Hw.mark_mem (h : Hw) (r : Reg) (b : Bool) : (h.mark r b).mem = h.mem := (rfl)
@[simp] theorem Hw.mark_poison (h : Hw) (r : Reg) (b : Bool) : (h.mark r b).poison = h.poison := (rfl)
@[simp] theorem Hw.mark_drawn (h : Hw) (r : Reg) (b : Bool) : (h.mark r b).drawn = h.drawn := (rfl)
@[simp] theorem Hw.mark_ids (h : Hw) (r : Reg) (b : Bool) : (h.mark r b).ids = h.ids := (rfl)
@[simp] theorem Hw.mark_lastDrop (h : Hw) (r : Reg) (b : Bool) : (h.mark r b).lastDrop = h.lastDrop := (rfl)
@[simp] theorem Hw.mark_time (h : Hw) (r : Reg) (b : Bool) : (h.mark r b).time = h.time := (rfl)
@[simp] theorem Hw.mark_up (h : Hw) (r : Reg) (b : Bool) : (h.mark r b).up = h.up := (rfl)
@[simp] theorem Hw.mark_fc (h : Hw) (r : Reg) (b : Bool) : (h.mark r b).fc = h.fc := (rfl)
@[simp] theorem Hw.mark_ports (h : Hw) (r : Reg) (b : Bool) : (h.mark r b).ports = h.ports := (rfl)
@[simp] theorem Hw.mark_recirc (h : Hw) (r : Reg) (b : Bool) : (h.mark r b).recirc = h.recirc := (rfl)
@[simp] theorem Hw.mark_punts (h : Hw) (r : Reg) (b : Bool) : (h.mark r b).punts = h.punts := (rfl)
@[simp] theorem Hw.mark_deferred (h : Hw) (r : Reg) (b : Bool) : (h.mark r b).deferred = h.deferred := (rfl)
@[simp] theorem Hw.mark_ctxs (h : Hw) (r : Reg) (b : Bool) : (h.mark r b).ctxs = h.ctxs := (rfl)
@[simp] theorem Hw.mark_formers (h : Hw) (r : Reg) (b : Bool) : (h.mark r b).formers = h.formers := (rfl)
@[simp] theorem Hw.mark_streams (h : Hw) (r : Reg) (b : Bool) : (h.mark r b).streams = h.streams := (rfl)
@[simp] theorem Hw.mark_flight (h : Hw) (r : Reg) (b : Bool) : (h.mark r b).flight = h.flight := (rfl)
@[simp] theorem Hw.mark_notices (h : Hw) (r : Reg) (b : Bool) : (h.mark r b).notices = h.notices := (rfl)
@[simp] theorem Hw.mark_unacked (h : Hw) (r : Reg) (b : Bool) : (h.mark r b).unacked = h.unacked := (rfl)
@[simp] theorem Hw.mark_planeErr (h : Hw) (r : Reg) (b : Bool) : (h.mark r b).planeErr = h.planeErr := (rfl)
@[simp] theorem Hw.mark_planePtr (h : Hw) (r : Reg) (b : Bool) : (h.mark r b).planePtr = h.planePtr := (rfl)
@[simp] theorem Hw.mark_restoring (h : Hw) (r : Reg) (b : Bool) : (h.mark r b).restoring = h.restoring := (rfl)
@[simp] theorem Hw.mark_landings (h : Hw) (r : Reg) (b : Bool) : (h.mark r b).landings = h.landings := (rfl)
@[simp] theorem Hw.mark_queues (h : Hw) (r : Reg) (b : Bool) : (h.mark r b).queues = h.queues := (rfl)
@[simp] theorem Hw.mark_scheds (h : Hw) (r : Reg) (b : Bool) : (h.mark r b).scheds = h.scheds := (rfl)
@[simp] theorem Hw.mark_dbs (h : Hw) (r : Reg) (b : Bool) : (h.mark r b).dbs = h.dbs := (rfl)
@[simp] theorem Hw.mark_notes (h : Hw) (r : Reg) (b : Bool) : (h.mark r b).notes = h.notes := (rfl)
@[simp] theorem Hw.mark_sent (h : Hw) (r : Reg) (b : Bool) : (h.mark r b).sent = h.sent := (rfl)
@[simp] theorem Hw.mark_pools (h : Hw) (r : Reg) (b : Bool) : (h.mark r b).pools = h.pools := (rfl)
@[simp] theorem Hw.mark_frees (h : Hw) (r : Reg) (b : Bool) : (h.mark r b).frees = h.frees := (rfl)
@[simp] theorem Hw.mark_lgq (h : Hw) (r : Reg) (b : Bool) : (h.mark r b).lgq = h.lgq := (rfl)
@[simp] theorem Hw.mark_lg (h : Hw) (r : Reg) (b : Bool) : (h.mark r b).lg = h.lg := (rfl)
@[simp] theorem Hw.mark_ch (h : Hw) (r : Reg) (b : Bool) : (h.mark r b).ch = h.ch := (rfl)
@[simp] theorem Hw.mark_ed (h : Hw) (r : Reg) (b : Bool) : (h.mark r b).ed = h.ed := (rfl)
@[simp] theorem Hw.mark_moves (h : Hw) (r : Reg) (b : Bool) : (h.mark r b).moves = h.moves := (rfl)
@[simp] theorem Hw.mark_wraps (h : Hw) (r : Reg) (b : Bool) : (h.mark r b).wraps = h.wraps := (rfl)
@[simp] theorem Hw.mark_armed (h : Hw) (r : Reg) (b : Bool) : (h.mark r b).armed = h.armed := (rfl)
@[simp] theorem Hw.mark_gate (h : Hw) (r : Reg) (b : Bool) : (h.mark r b).gate = h.gate := (rfl)
@[simp] theorem Hw.mark_hbm (h : Hw) (r : Reg) (b : Bool) : (h.mark r b).hbm = h.hbm := (rfl)
@[simp] theorem Hw.mark_clerks (h : Hw) (r : Reg) (b : Bool) : (h.mark r b).clerks = h.clerks := (rfl)
@[simp] theorem Hw.mark_tw (h : Hw) (r : Reg) (b : Bool) : (h.mark r b).tw = h.tw := (rfl)
@[simp] theorem Hw.mark_ev (h : Hw) (r : Reg) (b : Bool) : (h.mark r b).ev = h.ev := (rfl)
@[simp] theorem Hw.mark_io (h : Hw) (r : Reg) (b : Bool) : (h.mark r b).io = h.io := (rfl)
@[simp] theorem Hw.mark_fences (h : Hw) (r : Reg) (b : Bool) : (h.mark r b).fences = h.fences := (rfl)
@[simp] theorem Hw.mark_links (h : Hw) (r : Reg) (b : Bool) : (h.mark r b).links = h.links := (rfl)
@[simp] theorem Hw.mark_twin (h : Hw) (r : Reg) (b : Bool) : (h.mark r b).twin = h.twin := (rfl)
@[simp] theorem Hw.mark_astray (h : Hw) (r : Reg) (b : Bool) : (h.mark r b).astray = h.astray := (rfl)
@[simp] theorem Hw.mark_cam (h : Hw) (r : Reg) (b : Bool) : (h.mark r b).cam = h.cam := (rfl)
@[simp] theorem Hw.mark_cx (h : Hw) (r : Reg) (b : Bool) : (h.mark r b).cx = h.cx := (rfl)
@[simp] theorem Hw.mark_txts (h : Hw) (r : Reg) (b : Bool) : (h.mark r b).txts = h.txts := (rfl)
@[simp] theorem Hw.mark_wrote (h : Hw) (r : Reg) (b : Bool) : (h.mark r b).wrote = h.wrote := (rfl)
@[simp] theorem Hw.mark_reg (h : Hw) (r : Reg) (b : Bool) (y : Reg) : (h.mark r b).reg y = h.reg y := (rfl)
@[simp] theorem Hw.mark_val (h : Hw) (r : Reg) (b : Bool) (m : RegName) (ix2 sl2 bank2 : Nat) :
    (h.mark r b).val m ix2 sl2 bank2 = h.val m ix2 sl2 bank2 := (rfl)
@[simp] theorem Hw.mark_rd (h : Hw) (r : Reg) (b : Bool) (g : Fld) (ix2 sl2 bank2 : Nat) :
    (h.mark r b).rd g ix2 sl2 bank2 = h.rd g ix2 sl2 bank2 := (rfl)
@[simp] theorem Hw.mark_on (h : Hw) (r : Reg) (b : Bool) (g : Fld) (ix2 sl2 bank2 : Nat) :
    (h.mark r b).on g ix2 sl2 bank2 = h.on g ix2 sl2 bank2 := (rfl)
@[simp] theorem Hw.mark_get_port (h : Hw) (r : Reg) (b : Bool) (q : Nat) : (h.mark r b).port q = h.port q := (rfl)
@[simp] theorem Hw.mark_get_pool (h : Hw) (r : Reg) (b : Bool) (q : Nat) : (h.mark r b).pool q = h.pool q := (rfl)
@[simp] theorem Hw.mark_get_stream (h : Hw) (r : Reg) (b : Bool) (q : Nat × Nat × Nat) : (h.mark r b).stream q = h.stream q := (rfl)
@[simp] theorem Hw.mark_get_ctx (h : Hw) (r : Reg) (b : Bool) (q : Nat) : (h.mark r b).ctx? q = h.ctx? q := (rfl)

/-! ### raise -/

@[simp] theorem Hw.raise_words (h : Hw) (code origin pipe port : Nat) (t : Option Nat) (i : Bool) (c : Option Nat) : (h.raise code origin pipe port t i c).words = h.words := (rfl)
@[simp] theorem Hw.raise_bad (h : Hw) (code origin pipe port : Nat) (t : Option Nat) (i : Bool) (c : Option Nat) : (h.raise code origin pipe port t i c).bad = h.bad := (rfl)
@[simp] theorem Hw.raise_mem (h : Hw) (code origin pipe port : Nat) (t : Option Nat) (i : Bool) (c : Option Nat) : (h.raise code origin pipe port t i c).mem = h.mem := (rfl)
@[simp] theorem Hw.raise_poison (h : Hw) (code origin pipe port : Nat) (t : Option Nat) (i : Bool) (c : Option Nat) : (h.raise code origin pipe port t i c).poison = h.poison := (rfl)
@[simp] theorem Hw.raise_drawn (h : Hw) (code origin pipe port : Nat) (t : Option Nat) (i : Bool) (c : Option Nat) : (h.raise code origin pipe port t i c).drawn = h.drawn := (rfl)
@[simp] theorem Hw.raise_ids (h : Hw) (code origin pipe port : Nat) (t : Option Nat) (i : Bool) (c : Option Nat) : (h.raise code origin pipe port t i c).ids = h.ids := (rfl)
@[simp] theorem Hw.raise_lastDrop (h : Hw) (code origin pipe port : Nat) (t : Option Nat) (i : Bool) (c : Option Nat) : (h.raise code origin pipe port t i c).lastDrop = h.lastDrop := (rfl)
@[simp] theorem Hw.raise_time (h : Hw) (code origin pipe port : Nat) (t : Option Nat) (i : Bool) (c : Option Nat) : (h.raise code origin pipe port t i c).time = h.time := (rfl)
@[simp] theorem Hw.raise_up (h : Hw) (code origin pipe port : Nat) (t : Option Nat) (i : Bool) (c : Option Nat) : (h.raise code origin pipe port t i c).up = h.up := (rfl)
@[simp] theorem Hw.raise_ports (h : Hw) (code origin pipe port : Nat) (t : Option Nat) (i : Bool) (c : Option Nat) : (h.raise code origin pipe port t i c).ports = h.ports := (rfl)
@[simp] theorem Hw.raise_recirc (h : Hw) (code origin pipe port : Nat) (t : Option Nat) (i : Bool) (c : Option Nat) : (h.raise code origin pipe port t i c).recirc = h.recirc := (rfl)
@[simp] theorem Hw.raise_punts (h : Hw) (code origin pipe port : Nat) (t : Option Nat) (i : Bool) (c : Option Nat) : (h.raise code origin pipe port t i c).punts = h.punts := (rfl)
@[simp] theorem Hw.raise_deferred (h : Hw) (code origin pipe port : Nat) (t : Option Nat) (i : Bool) (c : Option Nat) : (h.raise code origin pipe port t i c).deferred = h.deferred := (rfl)
@[simp] theorem Hw.raise_ctxs (h : Hw) (code origin pipe port : Nat) (t : Option Nat) (i : Bool) (c : Option Nat) : (h.raise code origin pipe port t i c).ctxs = h.ctxs := (rfl)
@[simp] theorem Hw.raise_formers (h : Hw) (code origin pipe port : Nat) (t : Option Nat) (i : Bool) (c : Option Nat) : (h.raise code origin pipe port t i c).formers = h.formers := (rfl)
@[simp] theorem Hw.raise_streams (h : Hw) (code origin pipe port : Nat) (t : Option Nat) (i : Bool) (c : Option Nat) : (h.raise code origin pipe port t i c).streams = h.streams := (rfl)
@[simp] theorem Hw.raise_flight (h : Hw) (code origin pipe port : Nat) (t : Option Nat) (i : Bool) (c : Option Nat) : (h.raise code origin pipe port t i c).flight = h.flight := (rfl)
@[simp] theorem Hw.raise_notices (h : Hw) (code origin pipe port : Nat) (t : Option Nat) (i : Bool) (c : Option Nat) : (h.raise code origin pipe port t i c).notices = h.notices := (rfl)
@[simp] theorem Hw.raise_unacked (h : Hw) (code origin pipe port : Nat) (t : Option Nat) (i : Bool) (c : Option Nat) : (h.raise code origin pipe port t i c).unacked = h.unacked := (rfl)
@[simp] theorem Hw.raise_planeErr (h : Hw) (code origin pipe port : Nat) (t : Option Nat) (i : Bool) (c : Option Nat) : (h.raise code origin pipe port t i c).planeErr = h.planeErr := (rfl)
@[simp] theorem Hw.raise_planePtr (h : Hw) (code origin pipe port : Nat) (t : Option Nat) (i : Bool) (c : Option Nat) : (h.raise code origin pipe port t i c).planePtr = h.planePtr := (rfl)
@[simp] theorem Hw.raise_restoring (h : Hw) (code origin pipe port : Nat) (t : Option Nat) (i : Bool) (c : Option Nat) : (h.raise code origin pipe port t i c).restoring = h.restoring := (rfl)
@[simp] theorem Hw.raise_landings (h : Hw) (code origin pipe port : Nat) (t : Option Nat) (i : Bool) (c : Option Nat) : (h.raise code origin pipe port t i c).landings = h.landings := (rfl)
@[simp] theorem Hw.raise_queues (h : Hw) (code origin pipe port : Nat) (t : Option Nat) (i : Bool) (c : Option Nat) : (h.raise code origin pipe port t i c).queues = h.queues := (rfl)
@[simp] theorem Hw.raise_scheds (h : Hw) (code origin pipe port : Nat) (t : Option Nat) (i : Bool) (c : Option Nat) : (h.raise code origin pipe port t i c).scheds = h.scheds := (rfl)
@[simp] theorem Hw.raise_dbs (h : Hw) (code origin pipe port : Nat) (t : Option Nat) (i : Bool) (c : Option Nat) : (h.raise code origin pipe port t i c).dbs = h.dbs := (rfl)
@[simp] theorem Hw.raise_notes (h : Hw) (code origin pipe port : Nat) (t : Option Nat) (i : Bool) (c : Option Nat) : (h.raise code origin pipe port t i c).notes = h.notes := (rfl)
@[simp] theorem Hw.raise_sent (h : Hw) (code origin pipe port : Nat) (t : Option Nat) (i : Bool) (c : Option Nat) : (h.raise code origin pipe port t i c).sent = h.sent := (rfl)
@[simp] theorem Hw.raise_pools (h : Hw) (code origin pipe port : Nat) (t : Option Nat) (i : Bool) (c : Option Nat) : (h.raise code origin pipe port t i c).pools = h.pools := (rfl)
@[simp] theorem Hw.raise_frees (h : Hw) (code origin pipe port : Nat) (t : Option Nat) (i : Bool) (c : Option Nat) : (h.raise code origin pipe port t i c).frees = h.frees := (rfl)
@[simp] theorem Hw.raise_lgq (h : Hw) (code origin pipe port : Nat) (t : Option Nat) (i : Bool) (c : Option Nat) : (h.raise code origin pipe port t i c).lgq = h.lgq := (rfl)
@[simp] theorem Hw.raise_lg (h : Hw) (code origin pipe port : Nat) (t : Option Nat) (i : Bool) (c : Option Nat) : (h.raise code origin pipe port t i c).lg = h.lg := (rfl)
@[simp] theorem Hw.raise_ch (h : Hw) (code origin pipe port : Nat) (t : Option Nat) (i : Bool) (c : Option Nat) : (h.raise code origin pipe port t i c).ch = h.ch := (rfl)
@[simp] theorem Hw.raise_ed (h : Hw) (code origin pipe port : Nat) (t : Option Nat) (i : Bool) (c : Option Nat) : (h.raise code origin pipe port t i c).ed = h.ed := (rfl)
@[simp] theorem Hw.raise_moves (h : Hw) (code origin pipe port : Nat) (t : Option Nat) (i : Bool) (c : Option Nat) : (h.raise code origin pipe port t i c).moves = h.moves := (rfl)
@[simp] theorem Hw.raise_wraps (h : Hw) (code origin pipe port : Nat) (t : Option Nat) (i : Bool) (c : Option Nat) : (h.raise code origin pipe port t i c).wraps = h.wraps := (rfl)
@[simp] theorem Hw.raise_armed (h : Hw) (code origin pipe port : Nat) (t : Option Nat) (i : Bool) (c : Option Nat) : (h.raise code origin pipe port t i c).armed = h.armed := (rfl)
@[simp] theorem Hw.raise_gate (h : Hw) (code origin pipe port : Nat) (t : Option Nat) (i : Bool) (c : Option Nat) : (h.raise code origin pipe port t i c).gate = h.gate := (rfl)
@[simp] theorem Hw.raise_hbm (h : Hw) (code origin pipe port : Nat) (t : Option Nat) (i : Bool) (c : Option Nat) : (h.raise code origin pipe port t i c).hbm = h.hbm := (rfl)
@[simp] theorem Hw.raise_clerks (h : Hw) (code origin pipe port : Nat) (t : Option Nat) (i : Bool) (c : Option Nat) : (h.raise code origin pipe port t i c).clerks = h.clerks := (rfl)
@[simp] theorem Hw.raise_tw (h : Hw) (code origin pipe port : Nat) (t : Option Nat) (i : Bool) (c : Option Nat) : (h.raise code origin pipe port t i c).tw = h.tw := (rfl)
@[simp] theorem Hw.raise_ev (h : Hw) (code origin pipe port : Nat) (t : Option Nat) (i : Bool) (c : Option Nat) : (h.raise code origin pipe port t i c).ev = h.ev := (rfl)
@[simp] theorem Hw.raise_io (h : Hw) (code origin pipe port : Nat) (t : Option Nat) (i : Bool) (c : Option Nat) : (h.raise code origin pipe port t i c).io = h.io := (rfl)
@[simp] theorem Hw.raise_fences (h : Hw) (code origin pipe port : Nat) (t : Option Nat) (i : Bool) (c : Option Nat) : (h.raise code origin pipe port t i c).fences = h.fences := (rfl)
@[simp] theorem Hw.raise_links (h : Hw) (code origin pipe port : Nat) (t : Option Nat) (i : Bool) (c : Option Nat) : (h.raise code origin pipe port t i c).links = h.links := (rfl)
@[simp] theorem Hw.raise_twin (h : Hw) (code origin pipe port : Nat) (t : Option Nat) (i : Bool) (c : Option Nat) : (h.raise code origin pipe port t i c).twin = h.twin := (rfl)
@[simp] theorem Hw.raise_astray (h : Hw) (code origin pipe port : Nat) (t : Option Nat) (i : Bool) (c : Option Nat) : (h.raise code origin pipe port t i c).astray = h.astray := (rfl)
@[simp] theorem Hw.raise_cam (h : Hw) (code origin pipe port : Nat) (t : Option Nat) (i : Bool) (c : Option Nat) : (h.raise code origin pipe port t i c).cam = h.cam := (rfl)
@[simp] theorem Hw.raise_cx (h : Hw) (code origin pipe port : Nat) (t : Option Nat) (i : Bool) (c : Option Nat) : (h.raise code origin pipe port t i c).cx = h.cx := (rfl)
@[simp] theorem Hw.raise_txts (h : Hw) (code origin pipe port : Nat) (t : Option Nat) (i : Bool) (c : Option Nat) : (h.raise code origin pipe port t i c).txts = h.txts := (rfl)
@[simp] theorem Hw.raise_wrote (h : Hw) (code origin pipe port : Nat) (t : Option Nat) (i : Bool) (c : Option Nat) : (h.raise code origin pipe port t i c).wrote = h.wrote := (rfl)
@[simp] theorem Hw.raise_reg (h : Hw) (code origin pipe port : Nat) (t : Option Nat) (i : Bool) (c : Option Nat) (y : Reg) : (h.raise code origin pipe port t i c).reg y = h.reg y := (rfl)
@[simp] theorem Hw.raise_val (h : Hw) (code origin pipe port : Nat) (t : Option Nat) (i : Bool) (c : Option Nat) (m : RegName) (ix2 sl2 bank2 : Nat) :
    (h.raise code origin pipe port t i c).val m ix2 sl2 bank2 = h.val m ix2 sl2 bank2 := (rfl)
@[simp] theorem Hw.raise_rd (h : Hw) (code origin pipe port : Nat) (t : Option Nat) (i : Bool) (c : Option Nat) (g : Fld) (ix2 sl2 bank2 : Nat) :
    (h.raise code origin pipe port t i c).rd g ix2 sl2 bank2 = h.rd g ix2 sl2 bank2 := (rfl)
@[simp] theorem Hw.raise_on (h : Hw) (code origin pipe port : Nat) (t : Option Nat) (i : Bool) (c : Option Nat) (g : Fld) (ix2 sl2 bank2 : Nat) :
    (h.raise code origin pipe port t i c).on g ix2 sl2 bank2 = h.on g ix2 sl2 bank2 := (rfl)
@[simp] theorem Hw.raise_get_port (h : Hw) (code origin pipe port : Nat) (t : Option Nat) (i : Bool) (c : Option Nat) (q : Nat) : (h.raise code origin pipe port t i c).port q = h.port q := (rfl)
@[simp] theorem Hw.raise_get_pool (h : Hw) (code origin pipe port : Nat) (t : Option Nat) (i : Bool) (c : Option Nat) (q : Nat) : (h.raise code origin pipe port t i c).pool q = h.pool q := (rfl)
@[simp] theorem Hw.raise_get_stream (h : Hw) (code origin pipe port : Nat) (t : Option Nat) (i : Bool) (c : Option Nat) (q : Nat × Nat × Nat) : (h.raise code origin pipe port t i c).stream q = h.stream q := (rfl)
@[simp] theorem Hw.raise_get_ctx (h : Hw) (code origin pipe port : Nat) (t : Option Nat) (i : Bool) (c : Option Nat) (q : Nat) : (h.raise code origin pipe port t i c).ctx? q = h.ctx? q := (rfl)

/-! ### setPort -/

@[simp] theorem Hw.setPort_words (h : Hw) (p : Nat) (x : PortSt) : (h.setPort p x).words = h.words := (rfl)
@[simp] theorem Hw.setPort_bad (h : Hw) (p : Nat) (x : PortSt) : (h.setPort p x).bad = h.bad := (rfl)
@[simp] theorem Hw.setPort_mem (h : Hw) (p : Nat) (x : PortSt) : (h.setPort p x).mem = h.mem := (rfl)
@[simp] theorem Hw.setPort_poison (h : Hw) (p : Nat) (x : PortSt) : (h.setPort p x).poison = h.poison := (rfl)
@[simp] theorem Hw.setPort_drawn (h : Hw) (p : Nat) (x : PortSt) : (h.setPort p x).drawn = h.drawn := (rfl)
@[simp] theorem Hw.setPort_ids (h : Hw) (p : Nat) (x : PortSt) : (h.setPort p x).ids = h.ids := (rfl)
@[simp] theorem Hw.setPort_lastDrop (h : Hw) (p : Nat) (x : PortSt) : (h.setPort p x).lastDrop = h.lastDrop := (rfl)
@[simp] theorem Hw.setPort_time (h : Hw) (p : Nat) (x : PortSt) : (h.setPort p x).time = h.time := (rfl)
@[simp] theorem Hw.setPort_up (h : Hw) (p : Nat) (x : PortSt) : (h.setPort p x).up = h.up := (rfl)
@[simp] theorem Hw.setPort_fc (h : Hw) (p : Nat) (x : PortSt) : (h.setPort p x).fc = h.fc := (rfl)
@[simp] theorem Hw.setPort_recirc (h : Hw) (p : Nat) (x : PortSt) : (h.setPort p x).recirc = h.recirc := (rfl)
@[simp] theorem Hw.setPort_punts (h : Hw) (p : Nat) (x : PortSt) : (h.setPort p x).punts = h.punts := (rfl)
@[simp] theorem Hw.setPort_deferred (h : Hw) (p : Nat) (x : PortSt) : (h.setPort p x).deferred = h.deferred := (rfl)
@[simp] theorem Hw.setPort_ctxs (h : Hw) (p : Nat) (x : PortSt) : (h.setPort p x).ctxs = h.ctxs := (rfl)
@[simp] theorem Hw.setPort_formers (h : Hw) (p : Nat) (x : PortSt) : (h.setPort p x).formers = h.formers := (rfl)
@[simp] theorem Hw.setPort_streams (h : Hw) (p : Nat) (x : PortSt) : (h.setPort p x).streams = h.streams := (rfl)
@[simp] theorem Hw.setPort_flight (h : Hw) (p : Nat) (x : PortSt) : (h.setPort p x).flight = h.flight := (rfl)
@[simp] theorem Hw.setPort_notices (h : Hw) (p : Nat) (x : PortSt) : (h.setPort p x).notices = h.notices := (rfl)
@[simp] theorem Hw.setPort_unacked (h : Hw) (p : Nat) (x : PortSt) : (h.setPort p x).unacked = h.unacked := (rfl)
@[simp] theorem Hw.setPort_planeErr (h : Hw) (p : Nat) (x : PortSt) : (h.setPort p x).planeErr = h.planeErr := (rfl)
@[simp] theorem Hw.setPort_planePtr (h : Hw) (p : Nat) (x : PortSt) : (h.setPort p x).planePtr = h.planePtr := (rfl)
@[simp] theorem Hw.setPort_restoring (h : Hw) (p : Nat) (x : PortSt) : (h.setPort p x).restoring = h.restoring := (rfl)
@[simp] theorem Hw.setPort_landings (h : Hw) (p : Nat) (x : PortSt) : (h.setPort p x).landings = h.landings := (rfl)
@[simp] theorem Hw.setPort_queues (h : Hw) (p : Nat) (x : PortSt) : (h.setPort p x).queues = h.queues := (rfl)
@[simp] theorem Hw.setPort_scheds (h : Hw) (p : Nat) (x : PortSt) : (h.setPort p x).scheds = h.scheds := (rfl)
@[simp] theorem Hw.setPort_dbs (h : Hw) (p : Nat) (x : PortSt) : (h.setPort p x).dbs = h.dbs := (rfl)
@[simp] theorem Hw.setPort_notes (h : Hw) (p : Nat) (x : PortSt) : (h.setPort p x).notes = h.notes := (rfl)
@[simp] theorem Hw.setPort_sent (h : Hw) (p : Nat) (x : PortSt) : (h.setPort p x).sent = h.sent := (rfl)
@[simp] theorem Hw.setPort_pools (h : Hw) (p : Nat) (x : PortSt) : (h.setPort p x).pools = h.pools := (rfl)
@[simp] theorem Hw.setPort_frees (h : Hw) (p : Nat) (x : PortSt) : (h.setPort p x).frees = h.frees := (rfl)
@[simp] theorem Hw.setPort_lgq (h : Hw) (p : Nat) (x : PortSt) : (h.setPort p x).lgq = h.lgq := (rfl)
@[simp] theorem Hw.setPort_lg (h : Hw) (p : Nat) (x : PortSt) : (h.setPort p x).lg = h.lg := (rfl)
@[simp] theorem Hw.setPort_ch (h : Hw) (p : Nat) (x : PortSt) : (h.setPort p x).ch = h.ch := (rfl)
@[simp] theorem Hw.setPort_ed (h : Hw) (p : Nat) (x : PortSt) : (h.setPort p x).ed = h.ed := (rfl)
@[simp] theorem Hw.setPort_moves (h : Hw) (p : Nat) (x : PortSt) : (h.setPort p x).moves = h.moves := (rfl)
@[simp] theorem Hw.setPort_wraps (h : Hw) (p : Nat) (x : PortSt) : (h.setPort p x).wraps = h.wraps := (rfl)
@[simp] theorem Hw.setPort_armed (h : Hw) (p : Nat) (x : PortSt) : (h.setPort p x).armed = h.armed := (rfl)
@[simp] theorem Hw.setPort_gate (h : Hw) (p : Nat) (x : PortSt) : (h.setPort p x).gate = h.gate := (rfl)
@[simp] theorem Hw.setPort_hbm (h : Hw) (p : Nat) (x : PortSt) : (h.setPort p x).hbm = h.hbm := (rfl)
@[simp] theorem Hw.setPort_clerks (h : Hw) (p : Nat) (x : PortSt) : (h.setPort p x).clerks = h.clerks := (rfl)
@[simp] theorem Hw.setPort_tw (h : Hw) (p : Nat) (x : PortSt) : (h.setPort p x).tw = h.tw := (rfl)
@[simp] theorem Hw.setPort_ev (h : Hw) (p : Nat) (x : PortSt) : (h.setPort p x).ev = h.ev := (rfl)
@[simp] theorem Hw.setPort_io (h : Hw) (p : Nat) (x : PortSt) : (h.setPort p x).io = h.io := (rfl)
@[simp] theorem Hw.setPort_fences (h : Hw) (p : Nat) (x : PortSt) : (h.setPort p x).fences = h.fences := (rfl)
@[simp] theorem Hw.setPort_links (h : Hw) (p : Nat) (x : PortSt) : (h.setPort p x).links = h.links := (rfl)
@[simp] theorem Hw.setPort_twin (h : Hw) (p : Nat) (x : PortSt) : (h.setPort p x).twin = h.twin := (rfl)
@[simp] theorem Hw.setPort_astray (h : Hw) (p : Nat) (x : PortSt) : (h.setPort p x).astray = h.astray := (rfl)
@[simp] theorem Hw.setPort_cam (h : Hw) (p : Nat) (x : PortSt) : (h.setPort p x).cam = h.cam := (rfl)
@[simp] theorem Hw.setPort_cx (h : Hw) (p : Nat) (x : PortSt) : (h.setPort p x).cx = h.cx := (rfl)
@[simp] theorem Hw.setPort_txts (h : Hw) (p : Nat) (x : PortSt) : (h.setPort p x).txts = h.txts := (rfl)
@[simp] theorem Hw.setPort_wrote (h : Hw) (p : Nat) (x : PortSt) : (h.setPort p x).wrote = h.wrote := (rfl)
@[simp] theorem Hw.setPort_reg (h : Hw) (p : Nat) (x : PortSt) (y : Reg) : (h.setPort p x).reg y = h.reg y := (rfl)
@[simp] theorem Hw.setPort_val (h : Hw) (p : Nat) (x : PortSt) (m : RegName) (ix2 sl2 bank2 : Nat) :
    (h.setPort p x).val m ix2 sl2 bank2 = h.val m ix2 sl2 bank2 := (rfl)
@[simp] theorem Hw.setPort_rd (h : Hw) (p : Nat) (x : PortSt) (g : Fld) (ix2 sl2 bank2 : Nat) :
    (h.setPort p x).rd g ix2 sl2 bank2 = h.rd g ix2 sl2 bank2 := (rfl)
@[simp] theorem Hw.setPort_on (h : Hw) (p : Nat) (x : PortSt) (g : Fld) (ix2 sl2 bank2 : Nat) :
    (h.setPort p x).on g ix2 sl2 bank2 = h.on g ix2 sl2 bank2 := (rfl)
@[simp] theorem Hw.setPort_get_pool (h : Hw) (p : Nat) (x : PortSt) (q : Nat) : (h.setPort p x).pool q = h.pool q := (rfl)
@[simp] theorem Hw.setPort_get_stream (h : Hw) (p : Nat) (x : PortSt) (q : Nat × Nat × Nat) : (h.setPort p x).stream q = h.stream q := (rfl)
@[simp] theorem Hw.setPort_get_ctx (h : Hw) (p : Nat) (x : PortSt) (q : Nat) : (h.setPort p x).ctx? q = h.ctx? q := (rfl)

/-! ### setStream -/

@[simp] theorem Hw.setStream_words (h : Hw) (k : Nat × Nat × Nat) (x : Stream) : (h.setStream k x).words = h.words := (rfl)
@[simp] theorem Hw.setStream_bad (h : Hw) (k : Nat × Nat × Nat) (x : Stream) : (h.setStream k x).bad = h.bad := (rfl)
@[simp] theorem Hw.setStream_mem (h : Hw) (k : Nat × Nat × Nat) (x : Stream) : (h.setStream k x).mem = h.mem := (rfl)
@[simp] theorem Hw.setStream_poison (h : Hw) (k : Nat × Nat × Nat) (x : Stream) : (h.setStream k x).poison = h.poison := (rfl)
@[simp] theorem Hw.setStream_drawn (h : Hw) (k : Nat × Nat × Nat) (x : Stream) : (h.setStream k x).drawn = h.drawn := (rfl)
@[simp] theorem Hw.setStream_ids (h : Hw) (k : Nat × Nat × Nat) (x : Stream) : (h.setStream k x).ids = h.ids := (rfl)
@[simp] theorem Hw.setStream_lastDrop (h : Hw) (k : Nat × Nat × Nat) (x : Stream) : (h.setStream k x).lastDrop = h.lastDrop := (rfl)
@[simp] theorem Hw.setStream_time (h : Hw) (k : Nat × Nat × Nat) (x : Stream) : (h.setStream k x).time = h.time := (rfl)
@[simp] theorem Hw.setStream_up (h : Hw) (k : Nat × Nat × Nat) (x : Stream) : (h.setStream k x).up = h.up := (rfl)
@[simp] theorem Hw.setStream_fc (h : Hw) (k : Nat × Nat × Nat) (x : Stream) : (h.setStream k x).fc = h.fc := (rfl)
@[simp] theorem Hw.setStream_ports (h : Hw) (k : Nat × Nat × Nat) (x : Stream) : (h.setStream k x).ports = h.ports := (rfl)
@[simp] theorem Hw.setStream_recirc (h : Hw) (k : Nat × Nat × Nat) (x : Stream) : (h.setStream k x).recirc = h.recirc := (rfl)
@[simp] theorem Hw.setStream_punts (h : Hw) (k : Nat × Nat × Nat) (x : Stream) : (h.setStream k x).punts = h.punts := (rfl)
@[simp] theorem Hw.setStream_deferred (h : Hw) (k : Nat × Nat × Nat) (x : Stream) : (h.setStream k x).deferred = h.deferred := (rfl)
@[simp] theorem Hw.setStream_ctxs (h : Hw) (k : Nat × Nat × Nat) (x : Stream) : (h.setStream k x).ctxs = h.ctxs := (rfl)
@[simp] theorem Hw.setStream_formers (h : Hw) (k : Nat × Nat × Nat) (x : Stream) : (h.setStream k x).formers = h.formers := (rfl)
@[simp] theorem Hw.setStream_flight (h : Hw) (k : Nat × Nat × Nat) (x : Stream) : (h.setStream k x).flight = h.flight := (rfl)
@[simp] theorem Hw.setStream_notices (h : Hw) (k : Nat × Nat × Nat) (x : Stream) : (h.setStream k x).notices = h.notices := (rfl)
@[simp] theorem Hw.setStream_unacked (h : Hw) (k : Nat × Nat × Nat) (x : Stream) : (h.setStream k x).unacked = h.unacked := (rfl)
@[simp] theorem Hw.setStream_planeErr (h : Hw) (k : Nat × Nat × Nat) (x : Stream) : (h.setStream k x).planeErr = h.planeErr := (rfl)
@[simp] theorem Hw.setStream_planePtr (h : Hw) (k : Nat × Nat × Nat) (x : Stream) : (h.setStream k x).planePtr = h.planePtr := (rfl)
@[simp] theorem Hw.setStream_restoring (h : Hw) (k : Nat × Nat × Nat) (x : Stream) : (h.setStream k x).restoring = h.restoring := (rfl)
@[simp] theorem Hw.setStream_landings (h : Hw) (k : Nat × Nat × Nat) (x : Stream) : (h.setStream k x).landings = h.landings := (rfl)
@[simp] theorem Hw.setStream_queues (h : Hw) (k : Nat × Nat × Nat) (x : Stream) : (h.setStream k x).queues = h.queues := (rfl)
@[simp] theorem Hw.setStream_scheds (h : Hw) (k : Nat × Nat × Nat) (x : Stream) : (h.setStream k x).scheds = h.scheds := (rfl)
@[simp] theorem Hw.setStream_dbs (h : Hw) (k : Nat × Nat × Nat) (x : Stream) : (h.setStream k x).dbs = h.dbs := (rfl)
@[simp] theorem Hw.setStream_notes (h : Hw) (k : Nat × Nat × Nat) (x : Stream) : (h.setStream k x).notes = h.notes := (rfl)
@[simp] theorem Hw.setStream_sent (h : Hw) (k : Nat × Nat × Nat) (x : Stream) : (h.setStream k x).sent = h.sent := (rfl)
@[simp] theorem Hw.setStream_pools (h : Hw) (k : Nat × Nat × Nat) (x : Stream) : (h.setStream k x).pools = h.pools := (rfl)
@[simp] theorem Hw.setStream_frees (h : Hw) (k : Nat × Nat × Nat) (x : Stream) : (h.setStream k x).frees = h.frees := (rfl)
@[simp] theorem Hw.setStream_lgq (h : Hw) (k : Nat × Nat × Nat) (x : Stream) : (h.setStream k x).lgq = h.lgq := (rfl)
@[simp] theorem Hw.setStream_lg (h : Hw) (k : Nat × Nat × Nat) (x : Stream) : (h.setStream k x).lg = h.lg := (rfl)
@[simp] theorem Hw.setStream_ch (h : Hw) (k : Nat × Nat × Nat) (x : Stream) : (h.setStream k x).ch = h.ch := (rfl)
@[simp] theorem Hw.setStream_ed (h : Hw) (k : Nat × Nat × Nat) (x : Stream) : (h.setStream k x).ed = h.ed := (rfl)
@[simp] theorem Hw.setStream_moves (h : Hw) (k : Nat × Nat × Nat) (x : Stream) : (h.setStream k x).moves = h.moves := (rfl)
@[simp] theorem Hw.setStream_wraps (h : Hw) (k : Nat × Nat × Nat) (x : Stream) : (h.setStream k x).wraps = h.wraps := (rfl)
@[simp] theorem Hw.setStream_armed (h : Hw) (k : Nat × Nat × Nat) (x : Stream) : (h.setStream k x).armed = h.armed := (rfl)
@[simp] theorem Hw.setStream_gate (h : Hw) (k : Nat × Nat × Nat) (x : Stream) : (h.setStream k x).gate = h.gate := (rfl)
@[simp] theorem Hw.setStream_hbm (h : Hw) (k : Nat × Nat × Nat) (x : Stream) : (h.setStream k x).hbm = h.hbm := (rfl)
@[simp] theorem Hw.setStream_clerks (h : Hw) (k : Nat × Nat × Nat) (x : Stream) : (h.setStream k x).clerks = h.clerks := (rfl)
@[simp] theorem Hw.setStream_tw (h : Hw) (k : Nat × Nat × Nat) (x : Stream) : (h.setStream k x).tw = h.tw := (rfl)
@[simp] theorem Hw.setStream_ev (h : Hw) (k : Nat × Nat × Nat) (x : Stream) : (h.setStream k x).ev = h.ev := (rfl)
@[simp] theorem Hw.setStream_io (h : Hw) (k : Nat × Nat × Nat) (x : Stream) : (h.setStream k x).io = h.io := (rfl)
@[simp] theorem Hw.setStream_fences (h : Hw) (k : Nat × Nat × Nat) (x : Stream) : (h.setStream k x).fences = h.fences := (rfl)
@[simp] theorem Hw.setStream_links (h : Hw) (k : Nat × Nat × Nat) (x : Stream) : (h.setStream k x).links = h.links := (rfl)
@[simp] theorem Hw.setStream_twin (h : Hw) (k : Nat × Nat × Nat) (x : Stream) : (h.setStream k x).twin = h.twin := (rfl)
@[simp] theorem Hw.setStream_astray (h : Hw) (k : Nat × Nat × Nat) (x : Stream) : (h.setStream k x).astray = h.astray := (rfl)
@[simp] theorem Hw.setStream_cam (h : Hw) (k : Nat × Nat × Nat) (x : Stream) : (h.setStream k x).cam = h.cam := (rfl)
@[simp] theorem Hw.setStream_cx (h : Hw) (k : Nat × Nat × Nat) (x : Stream) : (h.setStream k x).cx = h.cx := (rfl)
@[simp] theorem Hw.setStream_txts (h : Hw) (k : Nat × Nat × Nat) (x : Stream) : (h.setStream k x).txts = h.txts := (rfl)
@[simp] theorem Hw.setStream_wrote (h : Hw) (k : Nat × Nat × Nat) (x : Stream) : (h.setStream k x).wrote = h.wrote := (rfl)
@[simp] theorem Hw.setStream_reg (h : Hw) (k : Nat × Nat × Nat) (x : Stream) (y : Reg) : (h.setStream k x).reg y = h.reg y := (rfl)
@[simp] theorem Hw.setStream_val (h : Hw) (k : Nat × Nat × Nat) (x : Stream) (m : RegName) (ix2 sl2 bank2 : Nat) :
    (h.setStream k x).val m ix2 sl2 bank2 = h.val m ix2 sl2 bank2 := (rfl)
@[simp] theorem Hw.setStream_rd (h : Hw) (k : Nat × Nat × Nat) (x : Stream) (g : Fld) (ix2 sl2 bank2 : Nat) :
    (h.setStream k x).rd g ix2 sl2 bank2 = h.rd g ix2 sl2 bank2 := (rfl)
@[simp] theorem Hw.setStream_on (h : Hw) (k : Nat × Nat × Nat) (x : Stream) (g : Fld) (ix2 sl2 bank2 : Nat) :
    (h.setStream k x).on g ix2 sl2 bank2 = h.on g ix2 sl2 bank2 := (rfl)
@[simp] theorem Hw.setStream_get_port (h : Hw) (k : Nat × Nat × Nat) (x : Stream) (q : Nat) : (h.setStream k x).port q = h.port q := (rfl)
@[simp] theorem Hw.setStream_get_pool (h : Hw) (k : Nat × Nat × Nat) (x : Stream) (q : Nat) : (h.setStream k x).pool q = h.pool q := (rfl)
@[simp] theorem Hw.setStream_get_ctx (h : Hw) (k : Nat × Nat × Nat) (x : Stream) (q : Nat) : (h.setStream k x).ctx? q = h.ctx? q := (rfl)

/-! ### setPool -/

@[simp] theorem Hw.setPool_words (h : Hw) (n : Nat) (x : PoolSt) : (h.setPool n x).words = h.words := (rfl)
@[simp] theorem Hw.setPool_bad (h : Hw) (n : Nat) (x : PoolSt) : (h.setPool n x).bad = h.bad := (rfl)
@[simp] theorem Hw.setPool_mem (h : Hw) (n : Nat) (x : PoolSt) : (h.setPool n x).mem = h.mem := (rfl)
@[simp] theorem Hw.setPool_poison (h : Hw) (n : Nat) (x : PoolSt) : (h.setPool n x).poison = h.poison := (rfl)
@[simp] theorem Hw.setPool_drawn (h : Hw) (n : Nat) (x : PoolSt) : (h.setPool n x).drawn = h.drawn := (rfl)
@[simp] theorem Hw.setPool_ids (h : Hw) (n : Nat) (x : PoolSt) : (h.setPool n x).ids = h.ids := (rfl)
@[simp] theorem Hw.setPool_lastDrop (h : Hw) (n : Nat) (x : PoolSt) : (h.setPool n x).lastDrop = h.lastDrop := (rfl)
@[simp] theorem Hw.setPool_time (h : Hw) (n : Nat) (x : PoolSt) : (h.setPool n x).time = h.time := (rfl)
@[simp] theorem Hw.setPool_up (h : Hw) (n : Nat) (x : PoolSt) : (h.setPool n x).up = h.up := (rfl)
@[simp] theorem Hw.setPool_fc (h : Hw) (n : Nat) (x : PoolSt) : (h.setPool n x).fc = h.fc := (rfl)
@[simp] theorem Hw.setPool_ports (h : Hw) (n : Nat) (x : PoolSt) : (h.setPool n x).ports = h.ports := (rfl)
@[simp] theorem Hw.setPool_recirc (h : Hw) (n : Nat) (x : PoolSt) : (h.setPool n x).recirc = h.recirc := (rfl)
@[simp] theorem Hw.setPool_punts (h : Hw) (n : Nat) (x : PoolSt) : (h.setPool n x).punts = h.punts := (rfl)
@[simp] theorem Hw.setPool_deferred (h : Hw) (n : Nat) (x : PoolSt) : (h.setPool n x).deferred = h.deferred := (rfl)
@[simp] theorem Hw.setPool_ctxs (h : Hw) (n : Nat) (x : PoolSt) : (h.setPool n x).ctxs = h.ctxs := (rfl)
@[simp] theorem Hw.setPool_formers (h : Hw) (n : Nat) (x : PoolSt) : (h.setPool n x).formers = h.formers := (rfl)
@[simp] theorem Hw.setPool_streams (h : Hw) (n : Nat) (x : PoolSt) : (h.setPool n x).streams = h.streams := (rfl)
@[simp] theorem Hw.setPool_flight (h : Hw) (n : Nat) (x : PoolSt) : (h.setPool n x).flight = h.flight := (rfl)
@[simp] theorem Hw.setPool_notices (h : Hw) (n : Nat) (x : PoolSt) : (h.setPool n x).notices = h.notices := (rfl)
@[simp] theorem Hw.setPool_unacked (h : Hw) (n : Nat) (x : PoolSt) : (h.setPool n x).unacked = h.unacked := (rfl)
@[simp] theorem Hw.setPool_planeErr (h : Hw) (n : Nat) (x : PoolSt) : (h.setPool n x).planeErr = h.planeErr := (rfl)
@[simp] theorem Hw.setPool_planePtr (h : Hw) (n : Nat) (x : PoolSt) : (h.setPool n x).planePtr = h.planePtr := (rfl)
@[simp] theorem Hw.setPool_restoring (h : Hw) (n : Nat) (x : PoolSt) : (h.setPool n x).restoring = h.restoring := (rfl)
@[simp] theorem Hw.setPool_landings (h : Hw) (n : Nat) (x : PoolSt) : (h.setPool n x).landings = h.landings := (rfl)
@[simp] theorem Hw.setPool_queues (h : Hw) (n : Nat) (x : PoolSt) : (h.setPool n x).queues = h.queues := (rfl)
@[simp] theorem Hw.setPool_scheds (h : Hw) (n : Nat) (x : PoolSt) : (h.setPool n x).scheds = h.scheds := (rfl)
@[simp] theorem Hw.setPool_dbs (h : Hw) (n : Nat) (x : PoolSt) : (h.setPool n x).dbs = h.dbs := (rfl)
@[simp] theorem Hw.setPool_notes (h : Hw) (n : Nat) (x : PoolSt) : (h.setPool n x).notes = h.notes := (rfl)
@[simp] theorem Hw.setPool_sent (h : Hw) (n : Nat) (x : PoolSt) : (h.setPool n x).sent = h.sent := (rfl)
@[simp] theorem Hw.setPool_frees (h : Hw) (n : Nat) (x : PoolSt) : (h.setPool n x).frees = h.frees := (rfl)
@[simp] theorem Hw.setPool_lgq (h : Hw) (n : Nat) (x : PoolSt) : (h.setPool n x).lgq = h.lgq := (rfl)
@[simp] theorem Hw.setPool_lg (h : Hw) (n : Nat) (x : PoolSt) : (h.setPool n x).lg = h.lg := (rfl)
@[simp] theorem Hw.setPool_ch (h : Hw) (n : Nat) (x : PoolSt) : (h.setPool n x).ch = h.ch := (rfl)
@[simp] theorem Hw.setPool_ed (h : Hw) (n : Nat) (x : PoolSt) : (h.setPool n x).ed = h.ed := (rfl)
@[simp] theorem Hw.setPool_moves (h : Hw) (n : Nat) (x : PoolSt) : (h.setPool n x).moves = h.moves := (rfl)
@[simp] theorem Hw.setPool_wraps (h : Hw) (n : Nat) (x : PoolSt) : (h.setPool n x).wraps = h.wraps := (rfl)
@[simp] theorem Hw.setPool_armed (h : Hw) (n : Nat) (x : PoolSt) : (h.setPool n x).armed = h.armed := (rfl)
@[simp] theorem Hw.setPool_gate (h : Hw) (n : Nat) (x : PoolSt) : (h.setPool n x).gate = h.gate := (rfl)
@[simp] theorem Hw.setPool_hbm (h : Hw) (n : Nat) (x : PoolSt) : (h.setPool n x).hbm = h.hbm := (rfl)
@[simp] theorem Hw.setPool_clerks (h : Hw) (n : Nat) (x : PoolSt) : (h.setPool n x).clerks = h.clerks := (rfl)
@[simp] theorem Hw.setPool_tw (h : Hw) (n : Nat) (x : PoolSt) : (h.setPool n x).tw = h.tw := (rfl)
@[simp] theorem Hw.setPool_ev (h : Hw) (n : Nat) (x : PoolSt) : (h.setPool n x).ev = h.ev := (rfl)
@[simp] theorem Hw.setPool_io (h : Hw) (n : Nat) (x : PoolSt) : (h.setPool n x).io = h.io := (rfl)
@[simp] theorem Hw.setPool_fences (h : Hw) (n : Nat) (x : PoolSt) : (h.setPool n x).fences = h.fences := (rfl)
@[simp] theorem Hw.setPool_links (h : Hw) (n : Nat) (x : PoolSt) : (h.setPool n x).links = h.links := (rfl)
@[simp] theorem Hw.setPool_twin (h : Hw) (n : Nat) (x : PoolSt) : (h.setPool n x).twin = h.twin := (rfl)
@[simp] theorem Hw.setPool_astray (h : Hw) (n : Nat) (x : PoolSt) : (h.setPool n x).astray = h.astray := (rfl)
@[simp] theorem Hw.setPool_cam (h : Hw) (n : Nat) (x : PoolSt) : (h.setPool n x).cam = h.cam := (rfl)
@[simp] theorem Hw.setPool_cx (h : Hw) (n : Nat) (x : PoolSt) : (h.setPool n x).cx = h.cx := (rfl)
@[simp] theorem Hw.setPool_txts (h : Hw) (n : Nat) (x : PoolSt) : (h.setPool n x).txts = h.txts := (rfl)
@[simp] theorem Hw.setPool_wrote (h : Hw) (n : Nat) (x : PoolSt) : (h.setPool n x).wrote = h.wrote := (rfl)
@[simp] theorem Hw.setPool_reg (h : Hw) (n : Nat) (x : PoolSt) (y : Reg) : (h.setPool n x).reg y = h.reg y := (rfl)
@[simp] theorem Hw.setPool_val (h : Hw) (n : Nat) (x : PoolSt) (m : RegName) (ix2 sl2 bank2 : Nat) :
    (h.setPool n x).val m ix2 sl2 bank2 = h.val m ix2 sl2 bank2 := (rfl)
@[simp] theorem Hw.setPool_rd (h : Hw) (n : Nat) (x : PoolSt) (g : Fld) (ix2 sl2 bank2 : Nat) :
    (h.setPool n x).rd g ix2 sl2 bank2 = h.rd g ix2 sl2 bank2 := (rfl)
@[simp] theorem Hw.setPool_on (h : Hw) (n : Nat) (x : PoolSt) (g : Fld) (ix2 sl2 bank2 : Nat) :
    (h.setPool n x).on g ix2 sl2 bank2 = h.on g ix2 sl2 bank2 := (rfl)
@[simp] theorem Hw.setPool_get_port (h : Hw) (n : Nat) (x : PoolSt) (q : Nat) : (h.setPool n x).port q = h.port q := (rfl)
@[simp] theorem Hw.setPool_get_stream (h : Hw) (n : Nat) (x : PoolSt) (q : Nat × Nat × Nat) : (h.setPool n x).stream q = h.stream q := (rfl)
@[simp] theorem Hw.setPool_get_ctx (h : Hw) (n : Nat) (x : PoolSt) (q : Nat) : (h.setPool n x).ctx? q = h.ctx? q := (rfl)

/-! ### ledger -/

@[simp] theorem Hw.ledger_words (h : Hw) (o : Nat) (cs : List Charge) (dh : Int) (a b : Nat) : (h.ledger o cs dh a b).words = h.words := (rfl)
@[simp] theorem Hw.ledger_bad (h : Hw) (o : Nat) (cs : List Charge) (dh : Int) (a b : Nat) : (h.ledger o cs dh a b).bad = h.bad := (rfl)
@[simp] theorem Hw.ledger_mem (h : Hw) (o : Nat) (cs : List Charge) (dh : Int) (a b : Nat) : (h.ledger o cs dh a b).mem = h.mem := (rfl)
@[simp] theorem Hw.ledger_poison (h : Hw) (o : Nat) (cs : List Charge) (dh : Int) (a b : Nat) : (h.ledger o cs dh a b).poison = h.poison := (rfl)
@[simp] theorem Hw.ledger_drawn (h : Hw) (o : Nat) (cs : List Charge) (dh : Int) (a b : Nat) : (h.ledger o cs dh a b).drawn = h.drawn := (rfl)
@[simp] theorem Hw.ledger_ids (h : Hw) (o : Nat) (cs : List Charge) (dh : Int) (a b : Nat) : (h.ledger o cs dh a b).ids = h.ids := (rfl)
@[simp] theorem Hw.ledger_lastDrop (h : Hw) (o : Nat) (cs : List Charge) (dh : Int) (a b : Nat) : (h.ledger o cs dh a b).lastDrop = h.lastDrop := (rfl)
@[simp] theorem Hw.ledger_time (h : Hw) (o : Nat) (cs : List Charge) (dh : Int) (a b : Nat) : (h.ledger o cs dh a b).time = h.time := (rfl)
@[simp] theorem Hw.ledger_up (h : Hw) (o : Nat) (cs : List Charge) (dh : Int) (a b : Nat) : (h.ledger o cs dh a b).up = h.up := (rfl)
@[simp] theorem Hw.ledger_fc (h : Hw) (o : Nat) (cs : List Charge) (dh : Int) (a b : Nat) : (h.ledger o cs dh a b).fc = h.fc := (rfl)
@[simp] theorem Hw.ledger_ports (h : Hw) (o : Nat) (cs : List Charge) (dh : Int) (a b : Nat) : (h.ledger o cs dh a b).ports = h.ports := (rfl)
@[simp] theorem Hw.ledger_recirc (h : Hw) (o : Nat) (cs : List Charge) (dh : Int) (a b : Nat) : (h.ledger o cs dh a b).recirc = h.recirc := (rfl)
@[simp] theorem Hw.ledger_punts (h : Hw) (o : Nat) (cs : List Charge) (dh : Int) (a b : Nat) : (h.ledger o cs dh a b).punts = h.punts := (rfl)
@[simp] theorem Hw.ledger_deferred (h : Hw) (o : Nat) (cs : List Charge) (dh : Int) (a b : Nat) : (h.ledger o cs dh a b).deferred = h.deferred := (rfl)
@[simp] theorem Hw.ledger_ctxs (h : Hw) (o : Nat) (cs : List Charge) (dh : Int) (a b : Nat) : (h.ledger o cs dh a b).ctxs = h.ctxs := (rfl)
@[simp] theorem Hw.ledger_formers (h : Hw) (o : Nat) (cs : List Charge) (dh : Int) (a b : Nat) : (h.ledger o cs dh a b).formers = h.formers := (rfl)
@[simp] theorem Hw.ledger_streams (h : Hw) (o : Nat) (cs : List Charge) (dh : Int) (a b : Nat) : (h.ledger o cs dh a b).streams = h.streams := (rfl)
@[simp] theorem Hw.ledger_flight (h : Hw) (o : Nat) (cs : List Charge) (dh : Int) (a b : Nat) : (h.ledger o cs dh a b).flight = h.flight := (rfl)
@[simp] theorem Hw.ledger_notices (h : Hw) (o : Nat) (cs : List Charge) (dh : Int) (a b : Nat) : (h.ledger o cs dh a b).notices = h.notices := (rfl)
@[simp] theorem Hw.ledger_unacked (h : Hw) (o : Nat) (cs : List Charge) (dh : Int) (a b : Nat) : (h.ledger o cs dh a b).unacked = h.unacked := (rfl)
@[simp] theorem Hw.ledger_planeErr (h : Hw) (o : Nat) (cs : List Charge) (dh : Int) (a b : Nat) : (h.ledger o cs dh a b).planeErr = h.planeErr := (rfl)
@[simp] theorem Hw.ledger_planePtr (h : Hw) (o : Nat) (cs : List Charge) (dh : Int) (a b : Nat) : (h.ledger o cs dh a b).planePtr = h.planePtr := (rfl)
@[simp] theorem Hw.ledger_restoring (h : Hw) (o : Nat) (cs : List Charge) (dh : Int) (a b : Nat) : (h.ledger o cs dh a b).restoring = h.restoring := (rfl)
@[simp] theorem Hw.ledger_landings (h : Hw) (o : Nat) (cs : List Charge) (dh : Int) (a b : Nat) : (h.ledger o cs dh a b).landings = h.landings := (rfl)
@[simp] theorem Hw.ledger_queues (h : Hw) (o : Nat) (cs : List Charge) (dh : Int) (a b : Nat) : (h.ledger o cs dh a b).queues = h.queues := (rfl)
@[simp] theorem Hw.ledger_scheds (h : Hw) (o : Nat) (cs : List Charge) (dh : Int) (a b : Nat) : (h.ledger o cs dh a b).scheds = h.scheds := (rfl)
@[simp] theorem Hw.ledger_dbs (h : Hw) (o : Nat) (cs : List Charge) (dh : Int) (a b : Nat) : (h.ledger o cs dh a b).dbs = h.dbs := (rfl)
@[simp] theorem Hw.ledger_notes (h : Hw) (o : Nat) (cs : List Charge) (dh : Int) (a b : Nat) : (h.ledger o cs dh a b).notes = h.notes := (rfl)
@[simp] theorem Hw.ledger_sent (h : Hw) (o : Nat) (cs : List Charge) (dh : Int) (a b : Nat) : (h.ledger o cs dh a b).sent = h.sent := (rfl)
@[simp] theorem Hw.ledger_pools (h : Hw) (o : Nat) (cs : List Charge) (dh : Int) (a b : Nat) : (h.ledger o cs dh a b).pools = h.pools := (rfl)
@[simp] theorem Hw.ledger_frees (h : Hw) (o : Nat) (cs : List Charge) (dh : Int) (a b : Nat) : (h.ledger o cs dh a b).frees = h.frees := (rfl)
@[simp] theorem Hw.ledger_lg (h : Hw) (o : Nat) (cs : List Charge) (dh : Int) (a b : Nat) : (h.ledger o cs dh a b).lg = h.lg := (rfl)
@[simp] theorem Hw.ledger_ch (h : Hw) (o : Nat) (cs : List Charge) (dh : Int) (a b : Nat) : (h.ledger o cs dh a b).ch = h.ch := (rfl)
@[simp] theorem Hw.ledger_ed (h : Hw) (o : Nat) (cs : List Charge) (dh : Int) (a b : Nat) : (h.ledger o cs dh a b).ed = h.ed := (rfl)
@[simp] theorem Hw.ledger_moves (h : Hw) (o : Nat) (cs : List Charge) (dh : Int) (a b : Nat) : (h.ledger o cs dh a b).moves = h.moves := (rfl)
@[simp] theorem Hw.ledger_wraps (h : Hw) (o : Nat) (cs : List Charge) (dh : Int) (a b : Nat) : (h.ledger o cs dh a b).wraps = h.wraps := (rfl)
@[simp] theorem Hw.ledger_armed (h : Hw) (o : Nat) (cs : List Charge) (dh : Int) (a b : Nat) : (h.ledger o cs dh a b).armed = h.armed := (rfl)
@[simp] theorem Hw.ledger_gate (h : Hw) (o : Nat) (cs : List Charge) (dh : Int) (a b : Nat) : (h.ledger o cs dh a b).gate = h.gate := (rfl)
@[simp] theorem Hw.ledger_hbm (h : Hw) (o : Nat) (cs : List Charge) (dh : Int) (a b : Nat) : (h.ledger o cs dh a b).hbm = h.hbm := (rfl)
@[simp] theorem Hw.ledger_clerks (h : Hw) (o : Nat) (cs : List Charge) (dh : Int) (a b : Nat) : (h.ledger o cs dh a b).clerks = h.clerks := (rfl)
@[simp] theorem Hw.ledger_tw (h : Hw) (o : Nat) (cs : List Charge) (dh : Int) (a b : Nat) : (h.ledger o cs dh a b).tw = h.tw := (rfl)
@[simp] theorem Hw.ledger_ev (h : Hw) (o : Nat) (cs : List Charge) (dh : Int) (a b : Nat) : (h.ledger o cs dh a b).ev = h.ev := (rfl)
@[simp] theorem Hw.ledger_io (h : Hw) (o : Nat) (cs : List Charge) (dh : Int) (a b : Nat) : (h.ledger o cs dh a b).io = h.io := (rfl)
@[simp] theorem Hw.ledger_fences (h : Hw) (o : Nat) (cs : List Charge) (dh : Int) (a b : Nat) : (h.ledger o cs dh a b).fences = h.fences := (rfl)
@[simp] theorem Hw.ledger_links (h : Hw) (o : Nat) (cs : List Charge) (dh : Int) (a b : Nat) : (h.ledger o cs dh a b).links = h.links := (rfl)
@[simp] theorem Hw.ledger_twin (h : Hw) (o : Nat) (cs : List Charge) (dh : Int) (a b : Nat) : (h.ledger o cs dh a b).twin = h.twin := (rfl)
@[simp] theorem Hw.ledger_astray (h : Hw) (o : Nat) (cs : List Charge) (dh : Int) (a b : Nat) : (h.ledger o cs dh a b).astray = h.astray := (rfl)
@[simp] theorem Hw.ledger_cam (h : Hw) (o : Nat) (cs : List Charge) (dh : Int) (a b : Nat) : (h.ledger o cs dh a b).cam = h.cam := (rfl)
@[simp] theorem Hw.ledger_cx (h : Hw) (o : Nat) (cs : List Charge) (dh : Int) (a b : Nat) : (h.ledger o cs dh a b).cx = h.cx := (rfl)
@[simp] theorem Hw.ledger_txts (h : Hw) (o : Nat) (cs : List Charge) (dh : Int) (a b : Nat) : (h.ledger o cs dh a b).txts = h.txts := (rfl)
@[simp] theorem Hw.ledger_wrote (h : Hw) (o : Nat) (cs : List Charge) (dh : Int) (a b : Nat) : (h.ledger o cs dh a b).wrote = h.wrote := (rfl)
@[simp] theorem Hw.ledger_reg (h : Hw) (o : Nat) (cs : List Charge) (dh : Int) (a b : Nat) (y : Reg) : (h.ledger o cs dh a b).reg y = h.reg y := (rfl)
@[simp] theorem Hw.ledger_val (h : Hw) (o : Nat) (cs : List Charge) (dh : Int) (a b : Nat) (m : RegName) (ix2 sl2 bank2 : Nat) :
    (h.ledger o cs dh a b).val m ix2 sl2 bank2 = h.val m ix2 sl2 bank2 := (rfl)
@[simp] theorem Hw.ledger_rd (h : Hw) (o : Nat) (cs : List Charge) (dh : Int) (a b : Nat) (g : Fld) (ix2 sl2 bank2 : Nat) :
    (h.ledger o cs dh a b).rd g ix2 sl2 bank2 = h.rd g ix2 sl2 bank2 := (rfl)
@[simp] theorem Hw.ledger_on (h : Hw) (o : Nat) (cs : List Charge) (dh : Int) (a b : Nat) (g : Fld) (ix2 sl2 bank2 : Nat) :
    (h.ledger o cs dh a b).on g ix2 sl2 bank2 = h.on g ix2 sl2 bank2 := (rfl)
@[simp] theorem Hw.ledger_get_port (h : Hw) (o : Nat) (cs : List Charge) (dh : Int) (a b : Nat) (q : Nat) : (h.ledger o cs dh a b).port q = h.port q := (rfl)
@[simp] theorem Hw.ledger_get_pool (h : Hw) (o : Nat) (cs : List Charge) (dh : Int) (a b : Nat) (q : Nat) : (h.ledger o cs dh a b).pool q = h.pool q := (rfl)
@[simp] theorem Hw.ledger_get_stream (h : Hw) (o : Nat) (cs : List Charge) (dh : Int) (a b : Nat) (q : Nat × Nat × Nat) : (h.ledger o cs dh a b).stream q = h.stream q := (rfl)
@[simp] theorem Hw.ledger_get_ctx (h : Hw) (o : Nat) (cs : List Charge) (dh : Int) (a b : Nat) (q : Nat) : (h.ledger o cs dh a b).ctx? q = h.ctx? q := (rfl)

/-! ### Reading after writing -/

@[simp] theorem Hw.setPort_same (h : Hw) (p : Nat) (x : PortSt) : (h.setPort p x).port p = x :=
  FMap.get_put_same natLt _ h.ports p x
@[simp] theorem Hw.setPort_setPort (h : Hw) (p : Nat) (x y : PortSt) : (h.setPort p x).setPort p y = h.setPort p y := by
  unfold Hw.setPort; rw [FMap.put_put]
@[simp] theorem Hw.setPool_setPool (h : Hw) (n : Nat) (x y : PoolSt) : (h.setPool n x).setPool n y = h.setPool n y := by
  unfold Hw.setPool; rw [FMap.put_put]
@[simp] theorem Hw.setStream_setStream (h : Hw) (k : Nat × Nat × Nat) (x y : Stream) :
    (h.setStream k x).setStream k y = h.setStream k y := by
  unfold Hw.setStream; rw [FMap.put_put]
theorem Hw.setPort_other (h : Hw) {p q : Nat} (x : PortSt) (hq : q ≠ p) : (h.setPort p x).port q = h.port q :=
  FMap.get_put_other natLt _ h.ports x hq
@[simp] theorem Hw.setPool_same (h : Hw) (n : Nat) (x : PoolSt) : (h.setPool n x).pool n = x :=
  FMap.get_put_same natLt _ h.pools n x
@[simp] theorem Hw.setStream_same (h : Hw) (k : Nat × Nat × Nat) (x : Stream) : (h.setStream k x).stream k = x :=
  FMap.get_put_same streamLt _ h.streams k x

/-- Another register reads the same after a write. -/
@[simp] theorem Hw.val_setVal_other (h : Hw) (n m : RegName) (v ix sl bank ix' sl' bank' : Nat) (hn : n ≠ m) :
    (h.setVal n v ix sl bank).val m ix' sl' bank' = h.val m ix' sl' bank' := by
  unfold Hw.val Hw.setVal
  rw [Hw.reg_setReg_other]
  intro e
  exact hn (congrArg Reg.name e).symm

/-- Another register reads the same after a write to a field. -/
@[simp] theorem Hw.val_wr_other (h : Hw) (f : Fld) (m : RegName) (v ix sl bank ix' sl' bank' : Nat) (hn : f.reg ≠ m) :
    (h.wr f v ix sl bank).val m ix' sl' bank' = h.val m ix' sl' bank' := Hw.val_setVal_other h f.reg m _ _ _ _ _ _ _ hn
@[simp] theorem Hw.rd_wr_other (h : Hw) (f g : Fld) (v ix sl bank ix' sl' bank' : Nat) (hn : f.reg ≠ g.reg) :
    (h.wr f v ix sl bank).rd g ix' sl' bank' = h.rd g ix' sl' bank' := by
  unfold Hw.rd; rw [Hw.val_wr_other h f g.reg _ _ _ _ _ _ _ hn]
@[simp] theorem Hw.on_wr_other (h : Hw) (f g : Fld) (v ix sl bank ix' sl' bank' : Nat) (hn : f.reg ≠ g.reg) :
    (h.wr f v ix sl bank).on g ix' sl' bank' = h.on g ix' sl' bank' := by
  unfold Hw.on; rw [Hw.rd_wr_other h f g _ _ _ _ _ _ _ hn]

@[simp] theorem Hw.rd_setBit_other (h : Hw) (f g : Fld) (k ix sl ix2 sl2 bank2 : Nat) (hn : f.reg ≠ g.reg) :
    (h.setBit f k ix sl).rd g ix2 sl2 bank2 = h.rd g ix2 sl2 bank2 := Hw.rd_wr_other h f g _ _ _ _ _ _ _ hn
@[simp] theorem Hw.on_setBit_other (h : Hw) (f g : Fld) (k ix sl ix2 sl2 bank2 : Nat) (hn : f.reg ≠ g.reg) :
    (h.setBit f k ix sl).on g ix2 sl2 bank2 = h.on g ix2 sl2 bank2 := Hw.on_wr_other h f g _ _ _ _ _ _ _ hn
@[simp] theorem Hw.val_setBit_other (h : Hw) (f : Fld) (m : RegName) (k ix sl ix2 sl2 bank2 : Nat) (hn : f.reg ≠ m) :
    (h.setBit f k ix sl).val m ix2 sl2 bank2 = h.val m ix2 sl2 bank2 := Hw.val_wr_other h f m _ _ _ _ _ _ _ hn
@[simp] theorem Hw.rd_count_other (h : Hw) (f g : Fld) (ix sl n ix2 sl2 bank2 : Nat) (hn : f.reg ≠ g.reg) :
    (h.count f ix sl n).rd g ix2 sl2 bank2 = h.rd g ix2 sl2 bank2 := Hw.rd_wr_other h f g _ _ _ _ _ _ _ hn
@[simp] theorem Hw.on_count_other (h : Hw) (f g : Fld) (ix sl n ix2 sl2 bank2 : Nat) (hn : f.reg ≠ g.reg) :
    (h.count f ix sl n).on g ix2 sl2 bank2 = h.on g ix2 sl2 bank2 := Hw.on_wr_other h f g _ _ _ _ _ _ _ hn
@[simp] theorem Hw.val_count_other (h : Hw) (f : Fld) (m : RegName) (ix sl n ix2 sl2 bank2 : Nat) (hn : f.reg ≠ m) :
    (h.count f ix sl n).val m ix2 sl2 bank2 = h.val m ix2 sl2 bank2 := Hw.val_wr_other h f m _ _ _ _ _ _ _ hn
@[simp] theorem Hw.rd_countSat_other (h : Hw) (f g : Fld) (ix sl n ix2 sl2 bank2 : Nat) (hn : f.reg ≠ g.reg) :
    (h.countSat f ix sl n).rd g ix2 sl2 bank2 = h.rd g ix2 sl2 bank2 := Hw.rd_wr_other h f g _ _ _ _ _ _ _ hn
@[simp] theorem Hw.on_countSat_other (h : Hw) (f g : Fld) (ix sl n ix2 sl2 bank2 : Nat) (hn : f.reg ≠ g.reg) :
    (h.countSat f ix sl n).on g ix2 sl2 bank2 = h.on g ix2 sl2 bank2 := Hw.on_wr_other h f g _ _ _ _ _ _ _ hn
@[simp] theorem Hw.val_countSat_other (h : Hw) (f : Fld) (m : RegName) (ix sl n ix2 sl2 bank2 : Nat) (hn : f.reg ≠ m) :
    (h.countSat f ix sl n).val m ix2 sl2 bank2 = h.val m ix2 sl2 bank2 := Hw.val_wr_other h f m _ _ _ _ _ _ _ hn
@[simp] theorem Hw.rd_setVal_other (h : Hw) (n : RegName) (g : Fld) (v ix sl bank ix2 sl2 bank2 : Nat) (hn : n ≠ g.reg) :
    (h.setVal n v ix sl bank).rd g ix2 sl2 bank2 = h.rd g ix2 sl2 bank2 := by
  unfold Hw.rd; rw [Hw.val_setVal_other h n g.reg _ _ _ _ _ _ _ hn]
@[simp] theorem Hw.on_setVal_other (h : Hw) (n : RegName) (g : Fld) (v ix sl bank ix2 sl2 bank2 : Nat) (hn : n ≠ g.reg) :
    (h.setVal n v ix sl bank).on g ix2 sl2 bank2 = h.on g ix2 sl2 bank2 := by
  unfold Hw.on; rw [Hw.rd_setVal_other h n g _ _ _ _ _ _ _ hn]

/-- What holds of the hardware and of every change in a run of changes holds after the run. -/
theorem Hw.over_keeps {α : Type} (P : Hw → Prop) (l : List α) (f : Hw → α → Hw) (hf : ∀ h a, P h → P (f h a)) (h : Hw)
    (h0 : P h) : P (h.over l f) := by
  unfold Hw.over
  induction l generalizing h with
  | nil => exact h0
  | cons a r ih => exact ih _ (hf h a h0)
theorem Hw.each_keeps (P : Hw → Prop) (n : Nat) (f : Hw → Nat → Hw) (hf : ∀ h k, P h → P (f h k)) (h : Hw) (h0 : P h) :
    P (h.each n f) := Hw.over_keeps P (List.range n) f hf h h0

/-- A register word written reads as the value, cut to 64 bits. -/
@[simp] theorem Hw.val_setVal_same (h : Hw) (n : RegName) (v ix sl bank : Nat) :
    (h.setVal n v ix sl bank).val n ix sl bank = v % 2 ^ 64 := by
  simp [Hw.val, Hw.setVal]

/-- A register at another place reads the same after a write. -/
theorem Hw.val_setVal_place (h : Hw) (n m : RegName) {v ix sl bank ix' sl' bank' : Nat}
    (hp : (⟨m, sl', bank', ix'⟩ : Reg) ≠ ⟨n, sl, bank, ix⟩) :
    (h.setVal n v ix sl bank).val m ix' sl' bank' = h.val m ix' sl' bank' := by
  unfold Hw.val Hw.setVal
  rw [Hw.reg_setReg_other _ _ hp]

/-- A field written reads as the value, cut to its width. -/
@[simp] theorem Hw.rd_wr_same (h : Hw) (f : Fld) (v ix sl bank : Nat) (hf : f.hi < 64) :
    (h.wr f v ix sl bank).rd f ix sl bank = v % 2 ^ (f.hi + 1 - f.lo) := by
  unfold Hw.rd Hw.wr
  rw [Hw.val_setVal_same, bits_mod_word _ _ _ hf, bits_setBits_same]

/-- A field beside the one written, in the same register, reads the same. -/
@[simp] theorem Hw.rd_wr_beside (h : Hw) (f g : Fld) (v ix sl bank ix' sl' bank' : Nat)
    (hd : f.hi < g.lo ∨ g.hi < f.lo) (hf : f.lo ≤ f.hi + 1) (hg : g.hi < 64) :
    (h.wr f v ix sl bank).rd g ix' sl' bank' = h.rd g ix' sl' bank' := by
  unfold Hw.rd Hw.wr
  by_cases hp : (⟨g.reg, sl', bank', ix'⟩ : Reg) = ⟨f.reg, sl, bank, ix⟩
  · simp only [Reg.mk.injEq] at hp
    obtain ⟨hr, rfl, rfl, rfl⟩ := hp
    rw [hr, Hw.val_setVal_same, bits_mod_word _ _ _ hg]
    rcases hd with hd | hd
    · exact bits_setBits_above _ _ _ _ _ _ hd hf
    · exact bits_setBits_below _ _ _ _ _ _ hd
  · rw [Hw.val_setVal_place h f.reg g.reg hp]
@[simp] theorem Hw.on_wr_beside (h : Hw) (f g : Fld) (v ix sl bank ix' sl' bank' : Nat)
    (hd : f.hi < g.lo ∨ g.hi < f.lo) (hf : f.lo ≤ f.hi + 1) (hg : g.hi < 64) :
    (h.wr f v ix sl bank).on g ix' sl' bank' = h.on g ix' sl' bank' := by
  unfold Hw.on; rw [Hw.rd_wr_beside h f g v ix sl bank ix' sl' bank' hd hf hg]

/-! ### The two ways in which a command ends -/

/-- A command that acts on the hardware alone. -/
theorem onHw_next (f : Hw → Hw) (s : State) : onHw f s = .next (s.setHw (f s.hw)) := rfl

/-- A command whose effects may reach the transmit path. -/
theorem onTx_settle (f : Hw → Hw) (s : State) : onTx f s = .next (s.setHw (f s.hw)).settle := rfl

/-- A command whose effect tells the transmit path nothing. -/
theorem onTx_next (f : Hw → Hw) (s : State) (h : (f s.hw).notes = []) : onTx f s = .next (s.setHw (f s.hw)) := by
  unfold onTx State.setHw Dev.settle
  have e : { f s.hw with notes := [] } = f s.hw := by rw [← h]
  simp only [h, List.foldl_nil, e]

/-- A command whose operands are an event of the device. -/
theorem guarded_true (o : Host.Outcome State Fault Refusal) : guarded true o = o := rfl

/-- A command on the hardware alone leaves everything outside it. -/
theorem onHw_outside (f : Hw → Hw) (s t : State) (h : onHw f s = .next t) : s.SameOutside t := by
  cases h; exact ⟨rfl, rfl, rfl⟩

end Sys2Proof.Machine
end

