-- ==== Sys2Proof/Tests/Slice0.lean ====
section
/-! SUPPORT. The model's own tests: for each check of WellFormed a term that it refuses; and for each statement a witness, concrete
states and operands that meet the hypotheses of its clauses, with what the spec says of the outcome. -/

namespace Sys2Proof.Machine

section
/- One theorem after another: the kernel's evaluations side by side would need a thread each. -/
set_option Elab.async false

/-- The state after reset with its hardware changed. -/
def on (f : Hw → Hw) : State := State.reset.setHw (f Hw.reset)
/-- The state after reset with its device changed. -/
def onD (f : Dev → Dev) : State := State.reset.setDev (f State.reset.dev)
/-- The device after a command that completes; the device after reset where it does not. -/
def devAfter (i : Instr) (s : State) : Dev := match exec i s with | .next t => t.dev | _ => State.reset.dev
/-- The hardware after a command that completes. -/
def after (i : Instr) (s : State) : Hw := (devAfter i s).hw
/-- Whether a command faults as ill-formed. -/
def refuses (i : Instr) : Bool := match exec i State.reset with | .fault .illFormed => true | _ => false
/-- Slice 0 ACTIVE. -/
def Hw.active (h : Hw) : Hw := h.wr .PW_SLICESTAT_state 3 0 0
/-- Slice 0 ACTIVE and port 5 in state UP. -/
def upHw : Hw := Hw.reset.active.ptWr .PT_STATUS_state 5 5
/-- A frame of `n` zero bytes with its FCS. -/
def goodFrame (n : Nat) : List Byte := List.replicate n 0#8 ++ fcsOf (List.replicate n 0#8)
/-- The codes of the fault records that have been raised, oldest first. -/
def Hw.codes (h : Hw) : List Nat := h.fc.queue.map (·.code)

/-! ### Ill-formed operands -/

theorem ill_formed_early_release : (Instr.earlyRelease 5 [0#8] false).wf = false ∧ refuses (.earlyRelease 5 [0#8] false) = true := by
  decide +kernel
theorem ill_formed_hbm_request : (Instr.hbmRequest ⟨0, 0, none, 64⟩).wf = false ∧ refuses (.hbmRequest ⟨0, 0, none, 64⟩) = true := by
  decide +kernel
theorem ill_formed_supply_alarm : (Instr.supplyAlarm 2 0 false).wf = false ∧ refuses (.supplyAlarm 2 0 false) = true := by
  decide +kernel
theorem ill_formed_clock_monitor : (Instr.clockMonitorFault 7).wf = false ∧ refuses (.clockMonitorFault 7) = true := by
  decide +kernel
theorem ill_formed_upset : (Instr.faultRecord ⟨8, [.word .PA_POLICY 0 0 0 ⟨[1#64], 0, 0⟩]⟩).wf = false ∧
    refuses (.faultRecord ⟨8, [.word .PA_POLICY 0 0 0 ⟨[1#64], 0, 0⟩]⟩) = true := by decide +kernel
theorem ill_formed_tod_message : (Instr.todInMessage []).wf = false ∧ refuses (.todInMessage []) = true := by decide +kernel

/-! ### Things in flight -/

/-- What travels beside a test frame. -/
def info0 : FrInfo := ⟨1, 0, false, false, false, false, false, none, 0x3FF, [], none, 0x3FF⟩
/-- A frame of tenant 7 in the transmit path of port 5, delivered because the owner of its destination is tenant 7. -/
def tx0 : TxFrame :=
  ⟨⟨7, 0, true, none, some (0, 7 * 2 ^ 32), false⟩, 5, 1, ⟨0, 0, 0, 0, false, false, false, [], true, none, 64⟩,
    ⟨List.replicate 60 0#8, true, some 64, false, ⟨0, 0, 0, 0⟩, none, none, none, false, none⟩⟩
/-- A context of slice 0, pipeline 2 in a stage and phase. -/
def ctx0 (engine : Nat) (ph : CtxPh) : Ctx :=
  ⟨3, 0, 2, engine, ph, List.replicate 256 0#8, List.replicate 64 0#8, List.replicate 64 0#8, List.replicate 16 0#32,
    List.replicate 4 false, List.replicate 16 false, List.replicate 8 0#128, [], 0, [], [], [], [], [], 0,
    ⟨false, false, false, none, [], [], false⟩, goodFrame 60, some 0, info0, none⟩
/-- The state with one context. -/
def onCtx (x : Ctx) : State := on (fun h => { h.active with ctxs := [x] })
/-- A copy in a queue of slice 0, whole and visible. -/
def copy0 : QCopy :=
  ⟨1, ⟨4, 64, 3, 7, 0, 0, 5, 0, 0, false, false, true⟩, List.replicate 64 0#8, 64, 0, true, true, true, false, 0, true, none⟩
/-- An empty queue. -/
def queue0 : QueueSt := ⟨[], [], [], false, 0, 0, 0, 0, [], none, 0, 0, 0, 0, 0, 0⟩

/-! ### Ports and frames -/

theorem witness_FrameReception :
    (let s := on (fun _ => upHw)
     let d := goodFrame 60
     s.hw.link 5 = 5 ∧ (s.hw.port 5).cur = none ∧ s.hw.on .CX_SECY_rx_en 5 = false ∧ s.hw.rxStop 5 = none ∧
       d.length ≤ s.hw.cfg .PT_CFG_max_len 5 ∧ macTail d = none ∧
       ((after (.rxFrame 5 true d .good false) s).port 5).fifo.map (·.bytes) = [d]) ∧
    (let s := on (fun _ => upHw.wr .PT_CFG_ct_enable 1 5 0)
     let d := List.replicate 512 0#8
     s.hw.link 5 = 5 ∧ s.hw.cfg .PT_CFG_ct_enable 5 = 1 ∧ 512 < s.hw.cfg .PT_CFG_max_len 5 ∧ s.hw.rxStop 5 = none ∧
       ((after (.earlyRelease 5 d false) s).port 5).fifo.map (·.early) = [true]) ∧
    (let d := goodFrame 60
     let s := on (fun _ => upHw.setPort 5 { upHw.port 5 with cur := some (9, d.take 40) })
     (s.hw.port 5).cur = some (9, d.take 40) ∧ macTail (d.take 40 ++ d.drop 40) = none ∧
       (after (.tailStatus 5 (d.drop 40) .good) s).val .PT_CNT (32 * 5) = 1) ∧
    (let s := on (fun _ => upHw)
     s.hw.link 5 = 5 ∧ (after (.rxWatchdog 5 [0#8]) s).val .PT_CNT (32 * 5 + 9) = 1) := by decide +kernel

theorem witness_StompedFrames :
    let body := List.replicate 60 0#8
    let d := body ++ leBytes 4 (crc crc32 0 body ^^^ 0xFFFFFFFF)
    (let s := on (fun _ => upHw)
     s.hw.link 5 = 5 ∧ (s.hw.port 5).cur = none ∧ body.length + 4 ≤ s.hw.cfg .PT_CFG_max_len 5 ∧
       (after (.rxFrame 5 true d .good false) s).val .PT_CNT (32 * 5 + 12) = 1 ∧
       ((after (.rxFrame 5 true d .good false) s).port 5).fifo = []) ∧
    (let s := on (fun _ => upHw.setPort 5 { upHw.port 5 with cur := some (9, d.take 40) })
     d.take 40 ++ d.drop 40 = d ∧ (after (.tailStatus 5 (d.drop 40) .good) s).val .PT_CNT (32 * 5 + 12) = 1) := by
  decide +kernel

theorem witness_LinkAcquisition :
    (let s := on (fun h => h.ptWr .PT_STATUS_state 5 1)
     s.hw.link 5 = 1 ∧ s.hw.cfg .PT_CFG_pmd 5 = 0 ∧ (after (.partnerPresent 5) s).link 5 = 4) ∧
    (let s := on (fun h => (h.ptWr .PT_STATUS_state 5 2).wr .PT_GMODE_lane_mode (3 * 2 ^ 20))
     s.hw.link 5 = 2 ∧ (3 : Fin 16).val = s.hw.laneMode 5 ∧ (after (.anComplete 5 3 0) s).link 5 = 3) ∧
    (let s := on (fun h => h.ptWr .PT_STATUS_state 5 3)
     s.hw.link 5 = 3 ∧ s.hw.negotiates 5 = false ∧ (after (.trainDone 5) s).link 5 = 4 ∧
       (after (.trainFail 5) s).link 5 = 3 ∧ (after (.trainFail 5) s).val .PT_CNT (32 * 5 + 24) = 1) ∧
    (let s := on (fun h => h.ptWr .PT_STATUS_state 5 4)
     s.hw.link 5 = 4 ∧ s.hw.faulted 5 = false ∧
       (after (.alignLock 5) s).rd .PT_STATUS_lanes_locked 5 = s.hw.allLocked 5) := by decide +kernel

theorem witness_LinkUpAndDown :
    (let h := Hw.reset.ptWr .PT_STATUS_state 5 4
     let s := on (fun _ => h.ptWr .PT_STATUS_lanes_locked 5 (h.allLocked 5))
     s.hw.link 5 = 4 ∧ s.hw.rd .PT_STATUS_lanes_locked 5 = s.hw.allLocked 5 ∧ s.hw.faulted 5 = false ∧
       s.hw.on .PT_STATUS_local_fault 5 = false ∧ s.hw.on .PT_STATUS_remote_fault 5 = false ∧
       (after (.linkUp 5) s).link 5 = 5 ∧ (after (.localFault ⟨5, none⟩) s).link 5 = 6 ∧ (after (.remoteFault ⟨5, none⟩) s).link 5 = 6) ∧
    (let s := on (fun h => (h.ptWr .PT_STATUS_state 5 4).ptWr .PT_STATUS_partner_present 5 1)
     s.hw.on .PT_STATUS_partner_present 5 = true ∧ s.hw.link 5 = 4 ∧ (after (.partnerLost 5) s).link 5 = 1) ∧
    (let s := on (fun _ => upHw)
     s.hw.link 5 = 5 ∧ (after (.signalLoss 5 true none) s).link 5 = 4 ∧ (after (.signalLoss 5 false none) s).link 5 = 6 ∧
       (after (.faultClear 5 true) s).link 5 = 5) ∧
    (let s := on (fun _ => upHw.setPort 5 { upHw.port 5 with leftUp := true })
     (s.hw.port 5).leftUp = true ∧ (after (.linkDown 5) s).link 5 = 1 ∧
       (after (.linkDown 5) s).val .PT_CNT (32 * 5 + 23) = 1) := by decide +kernel

theorem witness_PortConfiguration :
    (Hw.reset.gmodeCause 0 3 0 = 0 ∧ (after (.gmodeWrite 0 3 0 true) State.reset).rd .PT_GMODE_lane_mode 3 0 = 0) ∧
    (let v : Word := BitVec.ofNat 64 (2 ^ 63 + 10 * 2 ^ 14 + 10000)
     let s := on (fun h => ((h.active.wr .PT_GMODE_lane_mode (9 * 2 ^ 20)).wr .SD_LANESTAT_pwr_state 2 5 0).setPort 5 { h.port 5 with flush := 9 })
     0 < bits v.toNat 23 14 ∧ bits v.toNat 23 14 ≤ 1000 ∧ 64 ≤ bits v.toNat 13 0 ∧ bits v.toNat 13 0 ≤ 10000 ∧
       bit v.toNat 63 = true ∧ s.hw.cfg .PT_CFG_enable 5 = 0 ∧ (s.hw.cfgFields 5 v.toNat).enableCause 5 = 0 ∧
       (s.hw.port 5).flush ≠ 0 ∧ (after (.portEnable 5 v) s).link 5 = 1) ∧
    (let v : Word := BitVec.ofNat 64 (10 * 2 ^ 14 + 10000)
     let s := on (fun _ => upHw.wr .PT_CFG_enable 1 5 0)
     bit v.toNat 63 = false ∧ s.hw.cfg .PT_CFG_enable 5 = 1 ∧ (after (.portDisable 5 ⟨v, none⟩) s).cfg .PT_CFG_enable 5 = 0) ∧
    (let s := on (fun _ => upHw)
     s.hw.on .PT_STATUS_fec_degraded 5 = false ∧ s.hw.rd .PT_FECTHR_set_thr 5 ≤ 100000 ∧
       (after (.fecWindow 5 0 100000) s).codes = [0x110]) ∧
    (let v : Word := BitVec.ofNat 64 (2 ^ 63)
     bits v.toNat 59 57 ≤ 3 ∧ bits v.toNat 56 54 ≤ 3 ∧ Hw.reset.laneFree 9 = true ∧ bit v.toNat 63 = true ∧
       (after (.prbsGo 9 v) State.reset).rd .SD_PRBS_state 9 = 1) ∧
    (let v : Word := BitVec.ofNat 64 (2 ^ 62)
     let s := on (fun h => h.wr .SD_PRBS_state 1 9)
     s.hw.laneFree 9 = true ∧ bit v.toNat 63 = false ∧ bit v.toNat 62 = true ∧ s.hw.rd .SD_PRBS_state 9 = 1) := by decide +kernel

theorem witness_FrameTransmission :
    let c : TxCond := ⟨5, .agree, true, true, false⟩
    let d (x : TxFrame) : Dev := { State.reset.dev with hw := upHw, tx := [x] }
    (let s := onD (fun _ => d tx0)
     s.dev.head 5 = some tx0 ∧ tx0.st.started = none ∧ tx0.st.sa = none ∧ tx0.st.cut = false ∧ s.hw.transmits 5 = true ∧
       s.hw.protects 5 tx0.st.bytes = false ∧ c.mac.val = 5 ∧ c.lanesOk = true ∧
       (devAfter (.txFrameStart 5 c) s).tx.map (·.st.started) = [some 0]) ∧
    (let x := { tx0 with st := { tx0.st with started := some 0 } }
     let s := onD (fun _ => d x)
     s.dev.head 5 = some x ∧ x.st.started.isSome = true ∧ x.st.whole = true ∧ x.st.stomp = none ∧
       (s.hw.emit x).on .CX_SECY_tx_en 5 = false ∧ (devAfter (.txFrameEnd 5) s).tx = [] ∧
       (after (.txFrameEnd 5) s).sent = [Out.frame 5 (goodFrame 60) true]) ∧
    (let x := { tx0 with st := { tx0.st with ended := some true, sa := some ⟨1, 0, 1, 0, 0, false, [], none⟩ } }
     let s := onD (fun _ => d x)
     s.dev.tx.find? (fun x => x.port == 5 && x.st.ended.isSome) = some x ∧ (devAfter (.secyFrameEnd 5) s).tx = []) ∧
    (let h := (((upHw.wr .CX_SECY_tx_en 1 5).setVal .CX_TXMAP (2 ^ 15 + 1) 5).wr .CX_SA_state 1 1).setVal .CX_PN 1 1
     let s := onD (fun _ => { State.reset.dev with hw := h, tx := [tx0] })
     s.dev.toBind 5 = some tx0 ∧ (s.hw.bindSa 5 tx0.len).1.toOption.map (·.pn) = some 1 ∧
       (devAfter (.saBind 5) s).tx.map (fun x => x.st.sa.map (·.pn)) = [some 1]) := by decide +kernel

/-! ### The parser, the stages and their stores -/

theorem witness_FrameAdmission :
    (let s := on (fun _ => let h := upHw; h.setPort 5 { h.port 5 with fifo := [⟨1, 0, goodFrame 60, false, some 0, none⟩] })
     (s.hw.port 5).fifo.length = 1 ∧ s.hw.rxStop 5 = none ∧ s.hw.admits 0 2 = true ∧
       (s.hw.fabricPort 5) = false ∧ ((after (.parserAdmit 0 2 (.port 5) .none) s).port 5).fifo = [] ∧
       (after (.parserAdmit 0 2 (.port 5) .none) s).lastDrop = 0x23) ∧
    (let s := on id
     s.hw.writeBank 0 = (1, false) ∧ s.hw.on .PA_BANKCOPY_busy 0 0 = false ∧
       s.hw.paBadWord 0 1 0x18 (3 * 2 ^ 62) = true ∧ s.hw.paBadWord 0 1 0x18 (2 ^ 62) = false ∧
       (after (.paBankedWrite 0 0x18 (BitVec.ofNat 64 (3 * 2 ^ 62))) s).rd .PA_STATUS_refused_index 0 0 = 3 ∧
       (after (.paBankedWrite 0 0x18 (BitVec.ofNat 64 (2 ^ 62))) s).val .PA_POLICY 0 0 1 = 2 ^ 62 ∧
       (after (.paBankedWrite 0 0x1000 1) s).val .PA_PORTCFG 0 0 1 = 1 ∧ (after (.paBankedWrite 0 0x12F8 1) s).val .PA_PORTCFG 95 0 1 = 1 ∧
       (after (.paBankedWrite 0 0x1800 0) s).val .PA_TKMAP 0 0 1 = 0 ∧ s.hw.paBadWord 0 1 0x1878 (25 * 2 ^ 24) = true ∧
       (after (.paBankedWrite 0 0x7FF0 5) s).val .PA_TRANS0 1023 0 3 = 5 ∧ s.hw.paBadWord 0 1 0x4008 (2 ^ 63 + 254 * 2 ^ 8) = true) ∧
    (let s := on (fun h => h.wr .PA_BANKCOPY_busy 1 0 0)
     Hw.reset.bankBusy = false ∧ (after (.paBankcopy 0) State.reset).on .PA_BANKCOPY_busy 0 0 = true ∧
       (after (.paBankcopyDone 0) s).on .PA_BANKCOPY_busy 0 0 = false ∧ (after (.paBankcopyDone 0) s).on .PA_STATUS_copy_done 0 0 = true) ∧
    (Hw.reset.paSuspects 0 = [] ∧ Hw.reset.paDiffer 0 = []) ∧
    (let s := on (fun h => h.mark ⟨.PA_STATE0, 0, 2, 7⟩ true)
     s.hw.paSuspects 0 = [(.PA_STATE0, 0, 7)] ∧ s.hw.good ⟨.PA_STATE0, 0, 0, 7⟩ = true ∧
       s.hw.good ⟨.PA_STATE0, 0, 2, 7⟩ = false ∧ (s.hw.paScrubOne 0 (.PA_STATE0, 0, 7)).paDiffer 0 = [] ∧
       (after (.paScrub 0) s).good ⟨.PA_STATE0, 0, 2, 7⟩ = true ∧ (after (.paScrub 0) s).codes = [0x202]) := by decide +kernel

theorem witness_StageExecution :
    (let x := ctx0 2 .ready
     let s := onCtx x
     s.hw.ctx? 3 = some x ∧ s.hw.behind x = false ∧ s.hw.ways x < 2 ∧ s.hw.storeWord .SE_ENTRY 0 0 2 2 = (some 0, s.hw) ∧
       (after (.stageRoutineStart 0 3) s).ctxs.map (·.ph) = [.run 0]) ∧
    (let x := ctx0 2 (.run 5)
     let s := on (fun h => { (h.active.setVal .NS_UW (2 ^ 24) (2048 * 2 + 5) 0 0).wr .SE_CTRL_beat_limit 32 0 0 with ctxs := [x] })
     s.hw.ctx? 3 = some x ∧ uwEnd (2 ^ 24) = true ∧ s.hw.storeWord .NS_UW 0 0 (2048 * 2 + 5) 2 = (some (2 ^ 24), s.hw) ∧
       s.hw.storeWords? .NS_NW 0 0 ((1024 * 2 + uwNano (2 ^ 24)) * 8) 2 8 = (some (List.replicate 8 0), s.hw) ∧
       nwBeats 0 = 1 ∧ s.hw.rd .SE_CTRL_beat_limit 0 0 = 32 ∧
       (after (.stageNanoWord 0 3) s).ctxs.map (fun y => (y.ph, y.beats)) = [(.ended, 1)]) ∧
    (let x := { ctx0 2 (.run 5) with beats := 32 }
     let s := on (fun h => { h.active.wr .SE_CTRL_beat_limit 32 0 0 with ctxs := [x] })
     s.hw.ctx? 3 = some x ∧ s.hw.rd .SE_CTRL_beat_limit 0 0 ≤ x.beats ∧ (after (.beatLimit 0 3) s).ctxs = []) ∧
    (let x := ctx0 2 .ended
     let s := onCtx x
     s.hw.ctx? 3 = some x ∧ x.latent = [] ∧ (after (.stageFix 0 3 true) s).ctxs.map (fun y => (y.engine, y.ph)) = [(3, .ready)]) ∧
    (let e : EgCtx := ⟨3, 5, 0, 0, false, false, false, 0, 0, [], 0,
       List.replicate 12 0#8 ++ [0x88#8, 0xB5#8] ++ List.replicate 4 0#8 ++ [0#8, 7#8] ++ List.replicate 42 0#8, true, none⟩
     let md := beBytes 2 7 ++ beBytes 2 (tagCheck 7 0 0 0) ++ List.replicate 60 0#8
     let x := { ctx0 15 .countersign with pmd := md, eg := some e }
     let s := on (fun _ => { upHw.wr .CS_PORTCFG_key_kind 7 5 0 with ctxs := [x] })
     s.hw.ctx? 3 = some x ∧ s.hw.csBehind x e.port = false ∧ s.hw.link e.port = 5 ∧
       s.hw.csJudge 0 2 5 md e.out = (⟨7, 7, true, some 7, none, false⟩, none, s.hw) ∧ s.hw.csFrozen 0 5 7 = none ∧
       (⟨7, 7, true, some 7, none, false⟩ : Evidence).delivers = true ∧
       (devAfter (.countersign 0 3 true) s).tx.map (·.port) = [5] ∧ (after (.countersign 0 3 true) s).ctxs = []) := by decide +kernel

theorem witness_LookupLanding :
    let look (t : Nat) : Ctx := { ctx0 2 .ready with launches := [⟨t, 0, 4, 1, List.replicate 64 0#8, 0, none⟩] }
    (look 4).launch? 1 = none ∧ exec (.tcLookup 0 3) (onCtx (look 4)) = .next (onCtx (look 4)) := ⟨rfl, rfl⟩

theorem witness_LookupLanding_search :
    let look (t : Nat) : Ctx := { ctx0 2 .ready with launches := [⟨t, 0, 4, 1, List.replicate 64 0#8, 0, none⟩] }
    let done (i : Instr) (t : Nat) : List Bool :=
      (after i (onCtx (look t))).ctxs.flatMap (fun x => x.launches.map (fun l => l.done.isSome))
    (onCtx (look 1)).hw.ctx? 3 = some (look 1) ∧ (look 1).launch? 1 = some ⟨1, 0, 4, 1, List.replicate 64 0#8, 0, none⟩ ∧
      done (.tcLookup 0 3) 1 = [true] ∧ done (.gcLookup 0 3) 2 = [true] ∧ done (.clLookup 0 3) 3 = [true] ∧
      done (.lpLookup 0 3) 4 = [true] ∧ done (.exLookup 0 3) 5 = [true] ∧ done (.hxLookup 0 3) 6 = [true] := by decide +kernel

theorem witness_StoreLoading :
    (let h := (after (.nanoWordStage 0 15 1023 6 9) State.reset)
     (h.reg (stagedWord 0 15 6)).toNat = 9) ∧
    (let s := on (fun h => h.active.setReg (stagedWord 0 0 0) 1)
     s.hw.slicePower 0 ≠ 1 ∧ s.hw.bankBusy = false ∧ s.hw.next = 1 ∧ s.hw.on .SE_BANKCOPY_busy 0 0 = false ∧
       nanoCause false 0 (wordsNat ((List.range 7).map (fun w => (s.hw.reg (stagedWord 0 0 w)).toNat) ++ [0])) = 0 ∧
       (after (.nanoWordCommit 0 0 1023 0) s).val .NS_NW (1023 * 8) 0 1 = 1 ∧
       (after (.nanoWordCommit 0 0 1023 0) s).val .NS_NW (1023 * 8) 0 3 = 1 ∧
       (after (.nanoWordCommit 0 0 1023 0) s).reg (stagedWord 0 0 0) = 0) ∧
    (let s := on Hw.active
     s.hw.writeBank 0 = (1, false) ∧ microCause (2 ^ 24) = 0 ∧ microCause (6 * 2 ^ 40) = 3 ∧
       (after (.microwordWrite 0 15 2047 (BitVec.ofNat 64 (2 ^ 24))) s).val .NS_UW 32767 0 1 = 2 ^ 24 ∧
       (after (.microwordWrite 0 15 2047 (BitVec.ofNat 64 (6 * 2 ^ 40))) s).val .NS_UW 32767 0 1 = s.hw.val .NS_UW 32767 0 1 ∧
       (after (.microwordWrite 0 15 2047 (BitVec.ofNat 64 (6 * 2 ^ 40))) s).rd .SE_STATUS_refused_cause 0 0 = 3 ∧
       (after (.seBankedWrite 0 0x178 2047) s).val .SE_ENTRY 15 0 1 = 2047 ∧
       (after (.seBankedWrite 0 0x400 1024) s).val .SE_REFBASE 0 0 1 = 1024) ∧
    (let s := on (fun h => h.wr .SE_BANKCOPY_busy 1 0 0)
     (after (.seBankcopy 0) State.reset).on .SE_BANKCOPY_busy 0 0 = true ∧
       s.hw.on .SE_BANKCOPY_busy 0 0 = true ∧ (after (.seBankcopyDone 0) s).on .SE_STATUS_copy_done 0 0 = true) ∧
    (Hw.reset.seSuspects 0 = [] ∧ Hw.reset.on .SE_PCNT_CMD_busy 0 0 = false) ∧
    (let s := on (fun h => (h.setVal .A_PCP 5 7 0).wr .SE_PCNT_INDEX_index 7 0 0)
     (after (.pcntRead 0) s).val .SE_PCNT_PKTS 0 0 = 5 ∧ (after (.pcntReadClear 0) s).val .A_PCP 7 0 = 0 ∧
       (after (.pcntClear 0) s).val .A_PCP 7 0 = 0) ∧
    (let s := on (fun h => { h.active with queues := [(rcq, { queue0 with die := [copy0] })] })
     s.hw.takesEgress 0 2 = true ∧ ((s.hw.checkLink 0 rcq).queue 0 rcq).die = [copy0] ∧ copy0.visible = true ∧
       ((after (.recircPick 0 2) s).queue 0 rcq).die = []) := by decide +kernel

/-! ### The tables -/

/-- HBM stack 0 ACTIVE, and the shadow bases of slice 0 in it. -/
def Hw.shadowed (h : Hw) : Hw :=
  (((h.active.wr .HM_STACKSTAT_state 3 0).wr .CL_SHADOW_BASE_base 0x1000000000 0 0).wr .GC_SHADOW_BASE_base 0x1010000000 0 0).wr
    .FT_SHADOW_BASE_base 0x1020000000 0 0

theorem witness_RuleTcamCommands :
    (let s := on Hw.shadowed
     s.hw.on .CL_CMD_busy 0 0 = false ∧ s.hw.clCause 0 1 = 0 ∧ (after (.clRead 0) s).on .CL_CMD_busy 0 0 = true ∧
       s.hw.clCause 0 3 = 0 ∧ (after (.clInvalidate 0) s).on .CL_CMD_busy 0 0 = true ∧
       s.hw.clCause 0 2 = 10 ∧ (after (.clWrite 0) s).rd .CL_STATUS_cause 0 0 = 10) ∧
    (let s := on (fun h => h.shadowed.setVal .CL_A0 (2 ^ 63) 0 0)
     s.hw.clCause 0 2 = 0 ∧ bit ((after (.clWrite 0) s).val .A_CLA0 0 0) 63 = true) ∧
    (let s := on (fun h => (h.shadowed.setVal .A_CLA0 (2 ^ 63) 0 0).wr .CL_INDEX_dst 1 0 0)
     s.hw.clCause 0 4 = 0 ∧ s.hw.clCause 0 5 = 0 ∧ bits ((after (.clEdbits 0 3) s).val .A_CLA0 0 0) 62 61 = 3 ∧
       (after (.clMove 0) s).moves = [(0, 0)] ∧ bit ((after (.clMove 0) s).val .A_CLA0 1 0) 63 = true) ∧
    (let s := on (fun h => h.shadowed.wr .CL_CMD_busy 1 0 0)
     s.hw.moves = [] ∧ s.hw.camSkipped false 0 = [] ∧ Hw.reset.on .CL_CMD_busy 0 0 = false ∧
       (after (.clCmdDone 0) s).on .CL_CMD_busy 0 0 = false) ∧
    (let s := on (fun h => { h.shadowed.wr .CL_CMD_busy 1 0 0 with cam := [⟨false, 0, 9, true⟩] })
     s.hw.moves = [] ∧ s.hw.camSkipped false 0 = [9] ∧ s.hw.stackActive (s.hw.rd .CL_SHADOW_BASE_base 0 0) = true ∧
       (after (.clCmdDone 0) s).cam = []) ∧
    (let s := on (fun h => { (h.shadowed.setVal .A_CLA0 (2 ^ 63) 0 0).wr .CL_CMD_busy 1 0 0 with moves := [(0, 0)] })
     s.hw.moves.find? (fun m => m.1 == 0) = some (0, 0) ∧ s.hw.camSkipped false 0 = [] ∧ bit ((after (.clCmdDone 0) s).val .A_CLA0 0 0) 63 = false) ∧
    ((on Hw.shadowed).hw.stackActive 0x1000000000 = true ∧ Hw.reset.stackActive 0 = false ∧
       (after (.clScrub 0) State.reset).codes = [0x405]) := by decide +kernel

theorem witness_GuardCamCommands :
    (let s := on Hw.shadowed
     s.hw.on .GC_CMD_busy 0 0 = false ∧ s.hw.gcCause 0 1 0 = 0 ∧ s.hw.gcCause 0 3 0 = 0 ∧ s.hw.gcCause 0 2 0 = 10 ∧
       (after (.gcRead 0 0) s).on .GC_CMD_busy 0 0 = true ∧ (after (.gcInvalidate 0 false 0) s).on .GC_CMD_busy 0 0 = true ∧
       (after (.gcWrite 0 false 0) s).rd .GC_STATUS_cause 0 0 = 10) ∧
    (let s := on (fun h => h.shadowed.setVal .GC_A_ATTR (2 ^ 63) 0 0)
     s.hw.gcCause 0 2 0 = 0 ∧ bit ((after (.gcWrite 0 false 0) s).val .A_GCA 0 0) 63 = true) ∧
    (let s := on (fun h => h.shadowed.setVal .A_GCA (2 ^ 63) 0 0)
     s.hw.gcCause 0 4 0 = 0 ∧ bits ((after (.gcEdbits 0 false 0x300) s).val .A_GCA 0 0) 62 61 = 3) ∧
    (Hw.reset.camSkipped true 0 = [] ∧ (after (.gcCmdDone 0) State.reset).on .GC_CMD_busy 0 0 = false ∧
      (after (.gcScrub 0) State.reset).codes = [0x405]) ∧
    (let s := on (fun h => { h.shadowed.wr .GC_CMD_busy 1 0 0 with cam := [⟨true, 0, 9, true⟩] })
     s.hw.camSkipped true 0 = [9] ∧ s.hw.stackActive (s.hw.rd .GC_SHADOW_BASE_base 0 0) = true ∧
       (after (.gcCmdDone 0) s).cam = []) ∧
    (let s := on Hw.active
     s.hw.writeBank 0 = (1, false) ∧ (after (.clGcBankedWrite 0 false 0x11F8 0x4001) s).rd .CL_LIST_count 63 0 1 = 0 ∧
       (after (.clGcBankedWrite 0 false 0x1000 0x4000) s).rd .CL_LIST_count 0 0 1 = 64 ∧
       (after (.clGcBankedWrite 0 true 0x1078 5) s).val .GC_PROBE_MASK 15 0 1 = 5 ∧
       (after (.clGcBankedWrite 0 true 0x10F8 7) s).val .GC_PROBE_CFG 15 0 1 = 3) ∧
    (let s := on (fun h => h.active.wr .ED_STATUS_other_state 1)
     s.hw.writeBank 0 = (1, true) ∧ (after (.clGcBankedWrite 0 false 0x1000 0x4000) s).rd .CL_STATUS_cause 0 0 = 1) := by decide +kernel

theorem witness_ForwardingTableCommands :
    (let s := on Hw.shadowed
     s.hw.on .FT_CMD_busy 0 0 = false ∧ ftTab (s.hw.rd .FT_TARGET_table 0 0) = .tc ∧ FtTab.tc.size ≠ 0 ∧
       (after (.ftRead 0) s).on .FT_CMD_busy 0 0 = true ∧ ftReserved .tc 0 0 0 = false ∧
       s.hw.shadowCauses ((slicesOf 1).filter s.hw.receives) = 0 ∧ (after (.ftWrite 0 1) s).on .FT_CMD_busy 0 0 = true) ∧
    (let s := on (fun h => h.shadowed.wr .FT_TARGET_index 0xFFFFFFFF 0 0)
     (ftTab (s.hw.rd .FT_TARGET_table 0 0)).size ≤ s.hw.rd .FT_TARGET_index 0 0 ∧ (after (.ftRead 0) s).rd .FT_STATUS_cause 0 0 = 4) ∧
    (let s := on (fun h => (h.wr .FT_CMD_busy 1 0 0).wr .FT_SYNC_busy 1 0 0)
     (after (.ftCmdDone 0) s).on .FT_CMD_busy 0 0 = false ∧ (after (.ftSyncDone 0) s).on .FT_STATUS_sync_done 0 0 = true) ∧
    (let s := on Hw.shadowed
     s.hw.on .FT_SYNC_busy 0 0 = false ∧ (0x8000000000000007 : Word).toNat % 8 ≠ 0 ∧ s.hw.on .FT_STATUS_stale 0 7 = false ∧
       (s.hw.wr .FT_SYNC_src 7 0 0).shadowCause 0 = 0) ∧
    ((after (.lpFence 0 0xFF) State.reset).on .FT_LP_FENCE_busy 0 0 = true ∧ Hw.reset.fenced 0 = false ∧
      (after (.lpFenceDone 0) (on (fun h => h.wr .FT_LP_FENCE_busy 1 0 0))).on .FT_LP_FENCE_busy 0 0 = false) ∧
    (let x := { ctx0 2 .ready with launches := [⟨4, 0, 4, 1, [], 0, none⟩] }
     let s := on (fun h => { h.active with ctxs := [x], fences := [(0, 3, 1)] })
     s.hw.fenced 0 = true) ∧
    (Hw.reset.stackActive (Hw.reset.rd .FT_SHADOW_BASE_base 0 0) = false ∧ (after (.ftScrub 0) State.reset).codes = [0x405]) ∧
    (let s := on Hw.active
     s.hw.bankBusy = false ∧ profileCause 0 (8 + 8 * 2 ^ 4 + 8 * 2 ^ 8 + 8 * 2 ^ 12) = 0 ∧ profileCause 1 0 = 6 ∧
       (after (.ftBankedWrite 0 0x300 0x8888) s).val .FT_LP_PROFILE 0 0 1 = 0x8888 ∧
       (after (.ftBankedWrite 0 0x438 (BitVec.ofNat 64 (22 * 2 ^ 56))) s).rd .FT_HX_DESC_log2_buckets 7 0 1 = 22) ∧
    (let s := on (fun h => ((h.shadowed.wr .FT_HX_DESC_log2_buckets 10 0 0 1).wr .FT_HX_DESC_base 0x1000000000 0 0 1).setVal
       .FT_HX_ENTRY 9 0 0)
     s.hw.hxCause 0 = 0 ∧ (s.hw.hxTarget 0).1 = 0x1000000000 ∧ bits (s.hw.val .FT_HX_ENTRY 3 0) 60 16 = 0 ∧ (after (.hxWrite 0) s).loadWords 0x1000000000 1 = [9] ∧
       (after (.hxRead 0) s).val .FT_HX_ENTRY 0 0 = 0) ∧
    (let s := on (fun h => h.shadowed.setVal .FT_HX_ENTRY (2 ^ 16) 3 0)
     bits (s.hw.val .FT_HX_ENTRY 3 0) 60 16 ≠ 0 ∧ (after (.hxWrite 0) s).rd .FT_STATUS_cause 0 0 = 4) := by decide +kernel

theorem witness_ClearingHouse :
    (let r : ChReq := .twinAged 0 1 2
     let s := on (fun h => { h with ch := { h.ch with coming := [(none, r)] } })
     s.hw.ch.coming.find? (fun c => c.1.isNone) = some (none, r) ∧ (after .learnRequest s).ch.coming = []) ∧
    (let s := on (fun h => { h with ch := { h.ch with queue := [.twinAged 0 1 2] } })
     (after .chRequestProcess s).ch.queue = []) ∧
    (let s := State.reset
     s.hw.on .FT_CH_CMD_busy = false ∧ s.hw.ch.queue = [] ∧ s.hw.chFind 0 (s.hw.val .FT_CH_KEY) = none ∧
       (after (.chLookup 0) s).val .FT_CH_RESULT = 0 ∧ (after (.chLookup 0) s).rd .FT_CH_CNT_count 0 = 1) ∧
    (let s := on (fun h => { h with ch := { h.ch with queue := [.twinAged 0 1 2] } })
     s.hw.ch.queue ≠ [] ∧ (after (.chDelete 63) s).on .FT_CH_CMD_busy = true ∧ (after (.chDelete 63) s).ch.queue.length = 2) ∧
    (let w1 := 2 ^ 63
     let i := (Hw.reset.exCands 0 5).headD 0
     let s := on (fun h => (((h.setVal .A_EX 5 (2 * i) chView).setVal .A_EX w1 (2 * i + 1) chView).setVal .FT_CH_KEY 5))
     s.hw.chValid i = true ∧ s.hw.chFind 0 5 = some i ∧ s.hw.chCause = 0 ∧ (after (.chDelete 0) s).chValid i = false ∧
       bits ((after (.chInsert 0) s).chWord1 i) 62 61 = 3) ∧
    (6 ≤ 6 ∧ inShared 0x10000000 (2 ^ 11) = true ∧
       (after (.chRingWrite (BitVec.ofNat 64 (6 * 2 ^ 60 + 0x10000000))) State.reset).val .FT_CH_RING = 6 * 2 ^ 60 + 0x10000000 ∧
       (after (.chRingWrite (BitVec.ofNat 64 (5 * 2 ^ 60 + 0x10000000))) State.reset).val .FT_CH_RING = Hw.reset.val .FT_CH_RING) := by
  decide +kernel

/-! ### Editions, crossbar, buffers, queues, ledger -/

/-- A frame of one cell in the cell former of slice 0, bound for slice 1. -/
def former0 : Former := ⟨4, 0, 2, 1, List.replicate 64 0#8, goodFrame 60, some 0, info0, false, 0, none⟩
/-- A cell of the stream from slice 0, pipeline 2 to slice 1. -/
def cell0 (seq : Nat) : Cell :=
  let c : Cell := ⟨0, 2, 1, seq, true, true, false, 0, 0, false, List.replicate 64 0#8, goodFrame 60, info0, 0, 0⟩
  { c with check := c.crc 1 seq }
/-- A digest awaited, a chain open. -/
def chainHw : Hw := (((Hw.reset.wr .LG_STATUS_chain 1).wr .LG_CTRL_enable 1).wr .LG_BOOK_BASE_base 0x1000000000).wr .LG_RING_base 0x10000000

theorem witness_EditionLifecycle :
    (Hw.reset.flipCause = 0 ∧ (after .edFlip State.reset).rd .ED_STATUS_current = 1 ∧ (after .edFlip State.reset).otherState = 1) ∧
    (let s := on (fun h => h.wr .PA_BANKCOPY_busy 1 0 7)
     s.hw.flipCause = 2 ∧ (after .edFlip s).rd .ED_STATUS_current = 0 ∧ (after .edFlip s).rd .ED_STATUS_cause = 2) ∧
    (Hw.reset.on .ED_CMD_busy = false ∧ (after .edClose State.reset).ed.permit = true) ∧
    (let s := on (fun h => { h.wr .ED_STATUS_other_state 1 with ed := { h.ed with permit := true } })
     s.hw.otherState = 1 ∧ s.hw.drainCount s.hw.next = 0 ∧ s.hw.closePermitted = true ∧ (after .editionClose s).otherState = 0) ∧
    (let s := on (fun h => { h.wr .ED_STATUS_other_state 2 with ed := { h.ed with await := [767, 3] } })
     (1 : Fin 2).val = s.hw.next ∧ s.hw.otherState = 2 ∧ s.hw.ed.await.contains 767 = true ∧
       (after (.drainMarkerRx 767 1) s).ed.await = [3] ∧ (after .markerWaitTimeout s).otherState = 0) ∧
    (let s := on (fun h => h.wr .ED_STATUS_other_state 1)
     s.hw.ed.slow = false ∧ (after .drainSlow s).ed.slow = true ∧ s.hw.otherState ≠ 0 ∧ (after .edForceClose s).ed.permit = true) ∧
    (let s := on (fun h => { h with ed := { h.ed with forced := some [] } })
     s.hw.ed.forced = some [] ∧ (after .forceCloseZeroCounts s).ed.forced = none) := by decide +kernel

theorem witness_EditionLifecycle_copies :
    ((Hw.reset.wr .ED_STATUS_other_state 1).drainCopies 1).codes = [] ∧ ((Hw.reset.wr .ED_STATUS_other_state 1).drainCopies 0).codes = [] := by decide +kernel

theorem witness_CrossbarTraffic :
    (let s := on (fun h => { h.active.wr .XB_STATUS_plane_up 15 with formers := [former0] })
     s.hw.former? 4 = some former0 ∧ former0.granted = false ∧ s.hw.placesFit 0 1 (placesFor (extBound former0.ext)) = true ∧
       (after (.placesGrant 4) s).flight.map (·.seq) = [0] ∧ (after (.placesGrant 4) s).formers = [] ∧
       (after (.xbHold 4) s).lastDrop = 0x62) ∧
    (let f := { former0 with granted := true, cells := 1, tail := none }
     let s := on (fun h => { h.active.wr .XB_STATUS_plane_up 15 with formers := [f] })
     s.hw.formers.find? (fun f => f.src == 0 && f.pipe == 2 && f.dst == 1 && f.granted) = some f ∧ s.hw.planesUp.isEmpty = false ∧
       (after (.fillerCell 0 2 1) s).val .XB_CNT 11 = 1) ∧
    (let s := on (fun h => { h.active with flight := [cell0 0, cell0 2047] })
     s.hw.flight.find? (fun c => c.seq == 0) = some (cell0 0) ∧ (cell0 0).check = (cell0 0).crc 1 0 ∧
       (cell0 0).check ≠ (cell0 0).crc 1 1 ∧ (s.hw.stream (0, 2, 1)).exp = 0 ∧
       ((after (.cellArrival 0 2 1 0 true) s).stream (0, 2, 1)).exp = 1 ∧
       ((after (.cellArrival 0 2 1 2047 true) s).stream (0, 2, 1)).held = [cell0 2047] ∧
       (after (.cellArrival 0 2 1 0 false) s).codes = [0x601]) ∧
    ((Hw.reset.stream (0, 2, 1)).held = [] ∧ (Hw.reset.stream (0, 2, 1)).reasm = none) ∧
    (let s := on (fun h => { h with notices := [⟨(0, 2, 1), true, 0, 1⟩, ⟨(0, 2, 1), false, 0, 1⟩] })
     (after (.lossNotice 0) s).notices.map (·.loss) = [false] ∧ (after (.releaseAck 0) s).notices.map (·.loss) = [true]) ∧
    ((after (.planeRestore 0xF) (on (fun h => h.wr .XB_STATUS_plane_up 7))).restoring = [3]) ∧
    (let s := on (fun h => { h.wr .XB_STATUS_plane_up 7 with restoring := [3] })
     s.hw.restoring.contains 3 = true ∧ (after (.planeRestoreDone 3 true) s).rd .XB_STATUS_plane_up = 15 ∧
       (after (.planeRestoreDone 3 false) s).rd .XB_STATUS_restore_failed = 8) := by decide +kernel

theorem witness_BufferPools :
    (let s := on (fun h => { h.active.setPool 0 { h.pool 0 with bufs := [(9, ⟨4, 2, [], [], info0⟩)], taken := [9] } with frees := [⟨0, 9, 4⟩] })
     s.hw.frees.find? (fun f => f.sl == 0) = some ⟨0, 9, 4⟩ ∧ ((after (.bufferFree 0) s).pool 0).bufs.map (·.2.refs) = [1]) ∧
    (let s := on (fun h => { h.active.setPool 0 { h.pool 0 with bufs := [(9, ⟨4, 1, [], [], info0⟩)], taken := [9] } with frees := [⟨0, 9, 4⟩] })
     ((after (.bufferFree 0) s).pool 0).bufs = [] ∧ ((after (.bufferFree 0) s).pool 0).taken = []) ∧
    (let s := on (fun h => { h.active with frees := [⟨0, 9, 4⟩] })
     (s.hw.pool 0).bufs.find? (fun e => e.1 == 9) = none ∧ (after (.bufferFree 0) s).codes.length = 1) ∧
    (Hw.reset.slicePower 0 ≠ 3 ∧ (Hw.reset.pool 0).bufs = [] ∧ carveOk 8 = true ∧ carveOk 7 = false ∧
      (after (.bpCarveWrite 0 8) State.reset).val .BP_CARVE 0 0 = 8 ∧
      (after (.bpCarveWrite 0 7) State.reset).on .BP_STATUS_carve_refused 0 0 = true ∧
      (after (.bpCarveWrite 0 8) (on Hw.active)).on .BP_STATUS_carve_refused 0 0 = true) ∧
    ((Hw.reset.pool 0).taken = [] ∧ ((List.range 104).map (fun r => Hw.reset.rd .BP_ALLOW_used r 0)).foldl (· + ·) 0 = 0) ∧
    (let s := on (fun h => h.wr .BP_ALLOW_used 1 103 0)
     (s.hw.pool 0).taken = [] ∧ (after (.poolAccountCheck 0) s).codes = [0x615]) := by decide +kernel

theorem witness_QueuesAndPicks :
    (let s := on (fun h => { h.active with queues := [(80, { queue0 with die := [{ copy0 with visible := false }] })] })
     s.hw.copyQueue 0 1 = some 80 ∧ copy0.whole = true ∧ ((after (.copyVisible 0 1) s).queue 0 80).die.map (·.visible) = [true]) ∧
    (let s := on Hw.active
     s.hw.takesEgress (portSl 5) 2 = true ∧ (s.hw.pick 5).1 = none ∧ s.hw.busyQueues 0 = []) ∧
    (let s := on (fun _ =>
       { upHw.setPool 0 { upHw.pool 0 with bufs := [(4, ⟨3, 1, beBytes 2 7 ++ List.replicate 62 0#8, List.replicate 64 0#8, info0⟩)] } with
         queues := [(portQ 5 3, { queue0 with die := [copy0], occ := 64, cnt := 1 })] })
     (s.hw.pick 5).1 = some 3 ∧ ((after (.schedulerPick 5 2) s).queue 0 (portQ 5 3)).die = [] ∧
       (after (.schedulerPick 5 2) s).ctxs.map (·.engine) = [12]) ∧
    (let v : Word := BitVec.ofNat 64 (2 ^ 63 + 1024 * 2 ^ 32)
     let s := on (fun h => h.setVal .TM_GCLBASE (usUnits 10) 5 0)
     bit v.toNat 63 = true ∧ s.hw.on .TM_GCLCMD_pending 5 0 = false ∧ bits v.toNat 42 32 = 1024 ∧
       s.hw.now + usUnits 10 ≤ s.hw.val .TM_GCLBASE 5 0 ∧ (after (.gclGo 5 v) s).on .TM_GCLCMD_pending 5 0 = true) ∧
    (let s := on (fun h => (h.wr .TM_GCLCMD_pending 1 5 0).setSched 5 { h.sched 5 with newLen := 1, newStart := usUnits 10 })
     s.hw.on .TM_GCLCMD_pending 5 0 = true ∧ (after (.gclSwitch 5) s).on .TM_GCLCMD_pending 5 0 = false ∧
       ((after (.gclSwitch 5) s).sched 5).len = 1) := by decide +kernel

theorem witness_DeepBuffer :
    (let x := { queue0 with spill := [copy0] }
     let b : Buf := ⟨3, 1, [], List.replicate 64 0#8, info0⟩
     let s := on (fun h =>
       { ((h.active.wr .HM_STACKSTAT_state 3 0).setVal .HM_DB (2 ^ 63 + 16 * 2 ^ 40 + 0x1000000000) 0).setPool 0
           { h.pool 0 with bufs := [(4, { b with tag := copy0.desc.tag })] } with queues := [(80, x)] })
     s.hw.queues.find? (fun e => e.1 / 2048 == 0 && (e.2.spill.head?.map (·.id)) == some 1) = some (80, x) ∧
       (s.hw.buf? 0 copy0.desc.buffer copy0.desc.tag).isSome = true ∧ s.hw.on .HM_DB_enable 0 = true ∧
       s.hw.stackActive (s.hw.rd .HM_DB_base 0) = true ∧ ((after (.spillWrite 0 1) s).queue 0 80).blocks = [0] ∧
       (after (.spillWrite 0 1) s).val .HM_CNT 0 = 1) ∧
    (let x := { queue0 with blocks := [0, 1] }
     let s := on (fun h =>
       { (h.active.wr .HM_STACKSTAT_state 3 0).setVal .HM_DB (2 ^ 63 + 16 * 2 ^ 40 + 0x1000000000) 0 with queues := [(80, x)] })
     x.onDie ≤ 512 * s.hw.rd .TM_QCFG2_spill_kib 80 0 ∧ s.hw.stackActive (s.hw.rd .HM_DB_base 0) = true ∧
       ((after (.drainBlockRead 0 80) s).queue 0 80).stage.map (·.block) = [0]) ∧
    (let x := { queue0 with stage := [⟨0, 0, none⟩] }
     let s := on (fun h => { h.active with queues := [(80, x)] })
     (s.hw.queue 0 80).stage.find? (fun s => s.copies.isNone) = some ⟨0, 0, none⟩ ∧ (s.hw.queue 0 80).purge = none ∧
       (after (.drainBlockArrived 0 80) s).val .HM_CNT 1 = 1) ∧
    (Hw.reset.rd .HM_DB_STAT_in_use 0 = 0 ∧ (after (.dbAccountCheck 0) (on (fun h => h.wr .HM_DB_STAT_in_use 1 0))).codes = [0x716]) ∧
    (let v : Word := BitVec.ofNat 64 (2 ^ 63 + 16 * 2 ^ 40 + 0x1000000000)
     let w : Word := BitVec.ofNat 64 (2 ^ 63 + 15 * 2 ^ 40 + 0x1000000000)
     regionOk v.toNat = true ∧ regionOk w.toNat = false ∧ (after (.hmDbWrite 0 v) State.reset).on .HM_DB_enable 0 = true ∧
       (after (.hmDbWrite 0 w) State.reset).on .HM_DB_STAT_refused 0 = true) := by decide +kernel

theorem witness_PolicersAndLedger :
    (let s := on (fun h => (h.active.wr .HM_STACKSTAT_state 3 0))
     s.hw.on .TM_POL_CMD_busy = false ∧ (after (.polRead 0) s).val .TM_POL_CFG0 = 0 ∧
       (after (.polWrite 0) s).val .A_POL0 0 = 0) ∧
    (let u : LgUpdate := ⟨0, 0, [], 0, 0, 0, false⟩
     let s := on (fun h => { h with lgq := [u] })
     s.hw.lgq = [u] ∧ (after (.ledgerUpdate true) s).lgq = []) ∧
    (let c : Closing := ⟨0, true, true, 0, 0, 0⟩
     let s := on (fun h => h.setLg (fun l => { l with closing := some c }))
     s.hw.lg.closing = some c ∧ (after .settleEnd s).lg.closing.map (·.settling) = some false) ∧
    (let c : Closing := ⟨0, true, false, 0, 0, 0⟩
     let s := on (fun h => h.setLg (fun l => { l with closing := some c }))
     (after .bookClose s).on .LG_STATUS_walking = true) ∧
    (let v : Word := BitVec.ofNat 64 (2 ^ 63 + 1100 * 2 ^ 32 + 5 * 2 ^ 24 + 100)
     let low : Word := BitVec.ofNat 64 (2 ^ 63 + 1099 * 2 ^ 32 + 5 * 2 ^ 24 + 100)
     let s := on (fun h => ((h.wr .LG_BOOK_BASE_base 0x1000000000).wr .LG_RING_base 0x10000000).wr .CX_SEALSLOT_state 1 0)
     s.hw.chain = false ∧ s.hw.on .LG_CTRL_enable = false ∧ s.hw.rd .LG_BOOK_BASE_base ≠ 0 ∧ s.hw.rd .LG_RING_base ≠ 0 ∧
       s.hw.on .CX_SEALSLOT_spent 0 = false ∧ (after (.lgEnable v) s).on .LG_CTRL_enable = true ∧
       (after (.lgEnable low) s).on .LG_CTRL_enable = false) ∧
    (let v : Word := BitVec.ofNat 64 (10000 * 2 ^ 32 + 200 * 2 ^ 24 + 30000)
     let s := on (fun _ => chainHw)
     s.hw.chain = true ∧ bit v.toNat 63 = false ∧ (after (.lgDisable v) s).on .LG_CTRL_enable = false) ∧
    (let v : Word := BitVec.ofNat 64 (3 * 2 ^ 62 + 1100 * 2 ^ 32 + 5 * 2 ^ 24 + 100)
     let s := on (fun _ => ((((chainHw.wr .LG_LGPORT_valid 1 0).wr .LG_LGPORT_port 5 0).wr .LG_LGPORT_tmpl_len 14 0).wr
       .LG_LGPORT_tmpl_addr 0x10000000 0).wr .PT_GMODE_lane_mode (1 * 2 ^ 20))
     s.hw.chain = true ∧ s.hw.on .LG_CTRL_lg_arm = false ∧ s.hw.canArm = true ∧ (after (.lgArm v) s).on .LG_CTRL_lg_arm = true) ∧
    (let s := on (fun h => h.setLg (fun l => { l with awaiting := true }))
     s.hw.lg.awaiting = true ∧ (after .witnessWaitTimeout s).codes = [0xB09]) ∧
    (let s := on (fun h => (h.wr .LG_LGPORT_valid 1 0 |>.wr .LG_LGPORT_tmpl_len 14 0 |>.wr .LG_LGPORT_tmpl_addr 0x10000000 0 |>.wr
       .PT_GMODE_lane_mode 1 |>.setLg (fun l => { l with gasp := some [0#8] })))
     s.hw.lg.gasp = some [0#8] ∧ s.hw.held = false ∧ s.hw.lg.gaspDone.contains 0 = false ∧ s.hw.on .LG_LGPORT_valid 0 = true ∧
       s.hw.lgPortOk 0 = true ∧ s.hw.link (s.hw.rd .LG_LGPORT_port 0) ≠ 5 ∧ (after (.lastGaspSend 0) s).lg.gaspDone = [0]) := by
  decide +kernel

/-! ### MACsec, key store, check units, HBM -/

theorem witness_AssociationKeys :
    (let s := State.reset
     (List.range 4).any (fun a => bits 0x8001 (16 * a + 14) (16 * a + 13) != 0) = false ∧ mapSlots 0x9FFF = [8191] ∧
       hasRepeat (mapSlots 0x9FFF) = false ∧ s.hw.val .CX_TXMAP 767 = 0 ∧
       (after (.saMapWrite 767 false 0x9FFF) s).on .CX_SA_mapped 8191 = true ∧
       (after (.saMapWrite 767 false 0x2000) s).rd .CX_STATUS_cause = 3) ∧
    (let s := on (fun h => (h.setVal .CX_PN 5 8191).wr .CX_SA_dir 1 8191)
     s.hw.val .CX_PN 8191 < (6 : Word).toNat ∧ (6 : Word).toNat < s.hw.val .CX_PNWARN (s.hw.rd .CX_SA_suite 8191) ∧
       (after (.pnWrite 8191 6) s).val .CX_PN 8191 = 6 ∧ (after (.pnWrite 8191 5) s).rd .CX_STATUS_cause = 2) ∧
    (let v : Word := BitVec.ofNat 64 (2 ^ 63)
     Hw.reset.on .CX_IMPORT_CMD_busy = false ∧ bit v.toNat 63 = true ∧ (after (.keyImport v) State.reset).on .CX_IMPORT_CMD_busy = true) ∧
    (let s := on (fun h => h.wr .CX_IMPORT_CMD_busy 1)
     s.hw.importRefusal 0 0 0 0 = 7 ∧ (after .keyImportDone s).on .CX_IMPORT_CMD_busy = false) ∧
    (let s := on (fun h => h.wr .CX_SA_shadow 1 8191)
     s.dev.inFlight 8191 (fun b => b.gen != s.hw.rd .CX_SA_generation 8191) = 0 ∧
       (after (.shadowRelease 8191) s).on .CX_SA_shadow 8191 = false ∧ Hw.reset.on .CX_SA_shadow 0 = false) := by decide +kernel

theorem witness_AssociationKeys_import :
    let h := ((Hw.reset.wr .CX_IMPORT_CMD_busy 1).wr .CX_IMPORT_CMD_method 1).wr .CX_STATUS_rng_ok 1
    let s := on (fun _ => h.wr .CX_IMPORT_CMD_kind 1)
    s.hw.importRefusal 1 1 0 0 = 0 ∧ (after .keyImportDone s).rd .CX_IMPORT_STATUS_result = 4 := by decide +kernel

theorem witness_KeyErasure :
    (let v : Word := BitVec.ofNat 64 (2 ^ 62 + 2 * 2 ^ 60 + 15)
     Hw.reset.on .CX_ERASE_busy = false ∧ bit v.toNat 62 = true ∧ bits v.toNat 61 60 = 2 ∧ bits v.toNat 12 0 < keySlots 2 ∧
       (after (.keyErase v) State.reset).on .CX_ERASE_busy = true) ∧
    (let s := on (fun h => (h.wr .CX_ERASE_busy 1).wr .CX_SA_state 1 0)
     (after .eraseVerified s).on .CX_ERASE_busy = false ∧ (after .eraseVerified s).rd .CX_SA_state 0 = 0) ∧
    ((after (.zeroize 0) State.reset).codes = [0xA07] ∧ bit (Hw.reset.rd .CX_ALARM_EN_enables) 7 = false ∧
       (after (.zeroize 7) State.reset).codes = []) ∧
    (let s := on (fun h => h.wr .CX_STATUS_zeroizing 1)
     (after (.zeroizeVerify false) s).codes = [0xA06] ∧ (after (.zeroizeVerify true) s).io.zeroized = true) ∧
    (Hw.reset.heldSlots 0 = [] ∧ Hw.reset.heldSlots 1 = [] ∧ Hw.reset.heldSlots 2 = []) ∧
    (let s := on (fun h => (h.wr (keyState 2) 1 15).mark ⟨keyArray 2, 0, 0, 15⟩ true)
     s.hw.heldSlots 0 = [] ∧ s.hw.heldSlots 1 = [] ∧ s.hw.heldSlots 2 = [15] ∧ s.hw.rd (keyState 2) 15 = 1 ∧
       s.hw.good ⟨keyArray 2, 0, 0, 15⟩ = false ∧ (after .keyScrub s).rd (keyState 2) 15 ≠ 1) ∧
    ((after .rngHealthFail State.reset).codes.headD 0 = 0xA05 ∧ (after .rngHealthPass State.reset).on .CX_STATUS_rng_ok = true) := by
  decide +kernel

theorem witness_CheckUnits :
    (let v : Word := BitVec.ofNat 64 (2 ^ 63)
     Hw.reset.rd .CK_UCTRL_owner 15 = 15 ∧ bit v.toNat 63 = true ∧ bit v.toNat 62 = false ∧
       (after (.ckClaim 7 15 v) State.reset).rd .CK_UCTRL_owner 15 = 7) ∧
    (let s := on (fun h => (h.wr .CK_UCTRL_owner 7 15).setVal .CK_UEXPECT 1 15)
     s.hw.rd .CK_UCTRL_owner 15 = 7 ∧ (after (.ckClaim 0 15 0) s).on .CK_USTATUS_foreign 15 = true ∧
       (after (.ckStart 0 15) s).on .CK_USTATUS_foreign 15 = true ∧
       (after (.ckRelease 7 15 (BitVec.ofNat 64 (2 ^ 62))) s).rd .CK_UCTRL_owner 15 = 15 ∧
       (after (.ckTail 7 15 0) s).on .CK_USTATUS_bad_cmd 15 = false ∧ structureCodes.contains 1 = true ∧ structureCodes.contains 3 = false ∧
       (after (.ckFold 7 15 3) s).rd .CK_USTATUS_bytes 15 = 0 ∧ (after (.ckTail 7 15 7) s).rd .CK_USTATUS_bytes 15 = 7 ∧
       (after (.ckWindowWrite 7 15 9) s).rd .CK_USTATUS_bytes 15 = 8 ∧ (after (.ckFold 7 15 1) s).rd .CK_USTATUS_bytes 15 = 9 ∧
       (after (.ckCompare 7 15 true) s).on .CK_USTATUS_mismatch 15 = true ∧ (after (.ckCompare 7 15 false) s).codes = [0x902]) ∧
    (let s := on (fun h => h.wr .CK_UCTRL_owner 7 15)
     (after (.ckCompare 7 15 true) s).on .CK_USTATUS_match 15 = true ∧ (after (.ckStart 7 15) s).rd .CK_USTATUS_bytes 15 = 0) := by
  decide +kernel

theorem witness_StackStates :
    (let v : Word := BitVec.ofNat 64 (2 ^ 63 + 2 ^ 60 + 3 * 2 ^ 56)
     let w : Word := BitVec.ofNat 64 (2 ^ 63 + 2 * 2 ^ 60)
     let z : Word := BitVec.ofNat 64 (2 ^ 63 + 2 ^ 60)
     bit v.toNat 63 = true ∧ Hw.reset.on .HM_STACKCMD_busy 3 = false ∧ bits v.toNat 61 60 = 1 ∧ Hw.reset.rd .HM_STACKSTAT_state 3 = 0 ∧
       (after (.stackSetState 3 v) State.reset).on .HM_STACKCMD_busy 3 = true ∧
       (after (.stackSetState 3 v) State.reset).on .HM_STACKSTAT_training 3 = true ∧
       (after (.stackSetState 3 z) State.reset).rd .HM_STACKCMD_result 3 = 1 ∧
       bits w.toNat 61 60 = 2 ∧ (after (.stackRetrain 3 w) State.reset).rd .HM_STACKCMD_result 3 = 2 ∧
       (after (.stackRetrain 3 w) (on (fun h => h.wr .HM_STACKSTAT_state 2 3))).on .HM_STACKCMD_busy 3 = true) ∧
    (let s := on (fun h => ((((h.wr .HM_STACKCMD_busy 1 3).wr .HM_STACKCMD_op 1 3).wr .HM_STACKCMD_state 3 3).wr .HM_STACKSTAT_state 2 3))
     s.hw.on .HM_STACKCMD_busy 3 = true ∧ (after (.stackCmdDone 3 true) s).rd .HM_STACKSTAT_state 3 = 3 ∧
       (after (.stackCmdDone 3 true) s).rd .HM_STACKCMD_result 3 = 1) ∧
    (let s := on (fun h => (h.wr .HM_STACKCMD_busy 1 3).wr .HM_STACKCMD_op 1 3)
     s.hw.rd .HM_STACKSTAT_state 3 = 0 ∧ (after (.stackCmdDone 3 false) s).rd .HM_STACKCMD_result 3 = 5) ∧
    (let s := on (fun h => (h.wr .HM_STACKSTAT_state 3 3).wr .HM_SHARE_margin_thr 10 3)
     (9#8).toNat < s.hw.rd .HM_SHARE_margin_thr 3 ∧ nth s.hw.hbm.low 3 false = false ∧
       nth (after (.marginLow 3 9) s).hbm.low 3 false = true ∧ nth (after (.marginLow 3 10) s).hbm.low 3 true = false) ∧
    (let s := on (fun h => h.wr .HM_ERRLOG_valid 1)
     (after (.hmErrlogClear (BitVec.ofNat 64 (2 ^ 62))) s).on .HM_ERRLOG_valid = false) := by decide +kernel

theorem witness_HbmTraffic :
    (let r : HbmOp := ⟨0, 0x1000000000, none, 64⟩
     let s := on (fun h => h.wr .HM_STACKSTAT_state 3 0)
     hbmOpOk r = true ∧ s.hw.stackActive r.addr.toNat = true ∧ s.hw.hbm.trackerFree (stackOf r.addr.toNat) r.cls = true ∧
       (after (.hbmRequest r) s).hbm.reqs.map (·.addr) = [0x1000000000] ∧ Hw.reset.stackActive r.addr.toNat = false) ∧
    (let r : HbmOp := ⟨5, 0x1000000000, some [1#8], 0⟩
     let w : HbmReq := ⟨0x1000000200, 1, 5, true, false⟩
     let s := on (fun h => (h.wr .HM_STACKSTAT_state 3 0).setHbm (fun b => { b with waiting := [(w, some [2#8])] }))
     hbmOpOk r = true ∧ s.hw.hbm.waiting.any (fun w => w.1.stack == stackOf r.addr.toNat && w.1.cls == 5) = true ∧
       (after (.hbmRequest r) s).hbm.waiting.length = 2 ∧ (after (.hbmRequest r) s).load 0x1000000000 1 = [0#8]) ∧
    (let s := on (fun h => (h.wr .HM_STACKSTAT_state 2 3).setHbm (fun b => { b with debt := setNth b.debt 3 ([8] ++ List.replicate 2047 0) }))
     nth (nth s.hw.hbm.ptr 3 []) 0 0 < 64 ∧ 8 ≤ s.hw.hbm.owed 3 0 ∧ (after (.hbmBurstIssue 3 ⟨0, false⟩ [] []) s).hbm.owed 3 0 = 7 ∧
       (after (.refreshInterval 3) s).codes = [0x712] ∧ (after (.refreshInterval 3) s).hbm.owed 3 1 = 1) ∧
    (let a := 0x1000000000
     let r : HbmReq := ⟨a, 64, 0, false, false⟩
     let s := on (fun h => (h.wr .HM_STACKSTAT_state 3 0).setHbm (fun b => { b with
       reqs := [r], ptr := setNth b.ptr 0 (setNth (nth b.ptr 0 []) (bankOf a / 64) (bankOf a % 64)) }))
     s.hw.hbm.owed 0 (bankOf a) = 0 ∧ s.hw.hbm.near = [] ∧ s.hw.ready 0 (bankOf a) = [r] ∧
       (after (.hbmBurstIssue 0 ⟨Fin.ofNat 32 (bankOf a / 64), false⟩ [] []) s).hbm.reqs = []) ∧
    (let r : HbmReq := ⟨0x1000000000, 64, 0, false, false⟩
     let s := on (fun h => h.setHbm (fun b => { b with reqs := [r] }))
     bankOf r.addr / 64 < 32 ∧ (after (.starvePick 0 (Fin.ofNat 32 (bankOf r.addr / 64))) s).hbm.reqs.map (·.starved) = [true]) ∧
    (let s := on (fun h => h.wr .HM_STACKSTAT_state 3 3)
     s.hw.stackActive (stackBase 3) = true) := by decide +kernel

/-! ### Clerks -/

/-- Clerk 0 ACTIVE and RUNNING. -/
def clerkHw : Hw := (Hw.reset.wr .PW_STATUS_clerk_pwr 3).wr .MC_STATUS_state 1

theorem witness_ClerkControl :
    (let s := on (fun h => h.wr .PW_STATUS_clerk_pwr 0)
     s.hw.clerkPower 7 = 0 ∧ (after (.clerkReset 7) s).clerkState 7 = s.hw.clerkState 7) ∧
    (let s := on (fun _ => clerkHw)
     s.hw.clerkPower 0 ≠ 0 ∧ s.hw.clerkState 0 ≠ 2 ∧ (after (.clerkHalt 0) s).clerkState 0 = 0 ∧
       (after (.clerkReset 0) s).clerkState 0 = 1 ∧ s.hw.clerkState 0 ≠ 3) ∧
    (let s := on (fun _ => (clerkHw.wr .MC_STATUS_state 2).wr .MC_WAKE_enable 4 0)
     s.hw.clerkState 0 = 2 ∧ ((after (.clerkHalt 0) s).clerk 0).ua = waitPoint ∧ s.hw.clerkPower 0 = 3 ∧
       (after (.clerkKick 0) s).on .MC_WAKE_kick 0 = true) ∧
    (let s := on (fun _ => ((clerkHw.wr .MC_STATUS_state 2).wr .MC_WAKE_enable 4 0).wr .MC_WAKE_kick 1 0)
     s.hw.wakeBits 0 &&& s.hw.rd .MC_WAKE_enable 0 ≠ 0 ∧ (after (.clerkTaskWake 0) s).clerkState 0 = 1) ∧
    (let s := on (fun _ => clerkHw.wr .MC_STATUS_state 0)
     s.hw.clerkState 0 = 0 ∧ (s.hw.clerk 0).ua ≠ waitPoint ∧ (after (.clerkStart 0) s).clerkState 0 = 1) ∧
    (Hw.reset.rd .MC_WDOG_timeout_us 7 = 0 ∧ (after (.clerkWatchdog 7) (on (fun h => h.wr .MC_WDOG_timeout_us 1 7))).codes = [0x303]) ∧
    (let s := State.reset
     s.hw.clerkState 7 = 0 ∧ microCause (2 ^ 24) = 0 ∧ (after (.clerkStoreWrite 0x2FFF8 (BitVec.ofNat 64 (2 ^ 24))) s).val .MC_UW 16383 = 2 ^ 24 ∧
       (after (.clerkStoreWrite 0x10000 0) (on (fun _ => clerkHw))).on .MC_STATUS_store_refused = true) ∧
    (let v : Word := BitVec.ofNat 64 (2 * 2 ^ 60 + 0x10000000)
     ringOk 0x10000000 2 = true ∧ ringOk 0x10000000 1 = false ∧ (after (.rxRingConfig 7 true v) State.reset).rd .MC_TXRING_base 7 = 0x10000000 ∧
       (after (.rxRingConfig 7 false v) State.reset).rd .MC_RXRING_base 7 = 0x10000000 ∧
       (after (.rxRingConfig 7 false (BitVec.ofNat 64 (2 ^ 60 + 0x10000000))) State.reset).on .MC_STATUS_ring_refused = true) := by
  decide +kernel

theorem witness_ClerkExecution :
    (Hw.reset.executes 0 = false) ∧
    (let s := on (fun _ => clerkHw.setStore .MC_UW 0 0 0 (5 * 2 ^ 43))
     let w := 5 * 2 ^ 43
     s.hw.executes 0 = true ∧ ((s.hw.sampleMicroword 0).clerkFetch 0).1 = some (w, 0) ∧ loadWait 0 (s.hw.clerk 0).loads = false ∧
       (blockOf (s.hw.clerkEnv 0 0) 0).isSome = false ∧ s.hw.seqCause 0 w = 0 ∧
       (MemRun.slots ⟨s.hw, 0, 0, [], [], none, false⟩ 0 (s.hw.clerkEnv 0 0) 0).cause = 0 ∧ ((after (.clerkNanoWord 0) s).clerk 0).ua = 5) ∧
    (let nw := 2 ^ 187 + 2 ^ 178 + 3 * 2 ^ 166 + 2 ^ 173
     let s := on (fun _ => ((clerkHw.setStore .MC_UW 0 0 0 (5 * 2 ^ 43)).setVal .MC_NW (nw / 2 ^ 128) 2).setClerk 0
       (fun x => { x with x := setNth x.x 1 (0xFFFFFFFFF8#64) }))
     ((s.hw.sampleMicroword 0).clerkFetch 0).1 = some (5 * 2 ^ 43, nw) ∧
       (MemRun.slots ⟨s.hw, 0, 0, [], [], none, false⟩ 0 (s.hw.clerkEnv 0 0) nw).cause = 4 ∧ (after (.clerkNanoWord 0) s).clerkState 0 = 3) ∧
    (let s := on (fun _ => clerkHw.setClerk 0 (fun x => { x with loads := [(31, 9#64)] }))
     (s.hw.clerk 0).loads = [(31, 9#64)] ∧ nth ((after (.clerkLoadReturn 0) s).clerk 0).x 31 0 = 9#64) ∧
    (let nw := 7 * 2 ^ 187 + 1 * 2 ^ 178 + 2 * 2 ^ 173 + 3 * 2 ^ 168
     let s := on (fun _ => ((clerkHw.setStore .MC_UW 0 0 0 (5 * 2 ^ 43)).setVal .MC_NW (nw / 2 ^ 128) 2).setClerk 0
       (fun x => { x with x := setNth (setNth (setNth x.x 1 (0x10000000#64)) 2 (0xAB#64)) 3 (2#64) }))
     (s.hw.clerkFetch 0).1 = some (5 * 2 ^ 43, nw) ∧ blockOf (s.hw.clerkEnv 0 0) nw = some (memSlot (nwLk nw 0)) ∧
       (memSlot (nwLk nw 0)).op = 7 ∧ s.hw.judge (.clerk 0) true false 0x10000000 8 = 0 ∧
       (after (.blockWord 0) s).load 0x10000000 1 = [0xAB#8] ∧ nth ((after (.blockWord 0) s).clerk 0).x 3 0 = 1#64 ∧
       s.hw.judge (.clerk 0) true false 0x10000004 8 ≠ 0) := by decide +kernel

theorem witness_ClerkPaths :
    (let p : Punt := ⟨0, .frame, 0, 7, 0, List.replicate 64 0#8, goodFrame 60, none⟩
     let s := on (fun h => { h with punts := [p] })
     let full := on (fun h => { h with punts := [p] }.setBucket gatePackets (32000000 * unitsPerSecond, 0))
     nextPunt [] s.hw.punts = some (p, []) ∧ s.hw.on .MC_CLASS_enable 0 = false ∧ s.hw.gateAccepts p.bytes.length = true ∧
       (after .puntArrival s).punts = [] ∧ nextPunt [] full.hw.punts = some (p, []) ∧ full.hw.gateAccepts p.bytes.length = false ∧
       (after .puntArrival full).val .MC_CNT 1 = 1) ∧
    (let p : Punt := ⟨0, .copy, 0, 7, 0, List.replicate 64 0#8, goodFrame 60, none⟩
     let s := on (fun h => { ((h.wr .MC_CLASS_enable 1 0).wr .MC_CLASSB_burst 1 0).setVal .MC_RXRING (2 * 2 ^ 60 + 0x10000000) 0 with punts := [p] })
     s.hw.lacking 0 + unitsPerSecond ≤ s.hw.rd .MC_CLASSB_burst 0 * unitsPerSecond ∧ s.hw.rxFree 0 = 4 ∧
       (after .puntArrival s).rd .MC_RXPROD_prod 0 = 1) ∧
    (let slot (mode : Nat) : List Byte := leBytes 2 60 ++ [BitVec.ofNat 8 mode, 0#8] ++ leBytes 2 0 ++ leBytes 2 5
     let s (mode : Nat) : State := on (fun _ => ((upHw.setVal .MC_TXRING (2 * 2 ^ 60 + 0x10000000) 0).wr .MC_TXPROD_prod 1 0).store
       0x10000000 (slot mode))
     ((s 0).hw.txHead 0).map (fun t => (t.1, t.2.mode, (s 0).hw.txValid 0 t.2)) = some (0x10000000, 0, true) ∧
       (s 0).hw.admits 0 2 = true ∧ (after (.clerkInject 0 0 ⟨2, false⟩) (s 0)).ctxs.map (·.engine) = [0] ∧
       ((s 2).hw.txHead 0).map (fun t => (s 2).hw.txValid 0 t.2) = some false ∧ (after (.clerkInject 0 0 ⟨2, false⟩) (s 2)).rd .MC_TXCONS_cons 0 = 1 ∧
       ((s 1).hw.txHead 0).map (fun t => t.2.mode) = some 1 ∧ (s 1).hw.inactive 0 = false) ∧
    (let v : Word := BitVec.ofNat 64 (2 ^ 63 + 2 ^ 56 + 3)
     let w : Word := BitVec.ofNat 64 (2 ^ 63 + 2 * 2 ^ 56 + 1)
     Hw.reset.on .MC_CTRL_priv_lock = false ∧ (3 : Nat) ≠ Hw.reset.rd .MC_BOOT_key ∧ Hw.reset.rd .MC_FUSE_min_version < 1 ∧
       bit ((after (.fuseRevoke (.clerk 0) v) State.reset).rd .MC_FUSE_revoked) 3 = true ∧
       (after (.fuseRaise (.clerk 0) w) State.reset).rd .MC_FUSE_min_version = 1 ∧
       (after (.fuseRaise .host w) State.reset).on .MC_FUSECMD_refused = true) := by decide +kernel

/-! ### Boot, the teller window, events, counters, the fabric -/

theorem witness_BootSources :
    (Hw.reset.io.rom = false ∧ Hw.reset.romServes = true ∧ (after (.bootStart 0) State.reset).io.rom = true ∧
      (after (.bootStart 3) State.reset).io.rom = true ∧ Hw.reset.io.sources = []) ∧
    (let s := on (fun h => { h with io := { h.io with sources := [0, 1] } })
     (after (.bootSourceDone none) s).codes = [0xE01] ∧ (after (.bootSourceDone none) s).io.sources = [1] ∧
       s.hw.bootJudge [] = 2 ∧ (after (.bootSourceDone (some [])) s).codes = [0xE01]) := by decide +kernel

/-- A slip of ECHO without payload, under sequence number 0, with its check. -/
def echo0 : List Word :=
  let ws : List Word := [BitVec.ofNat 64 (2 ^ 56 + 3 * 2 ^ 32), 0#64]
  ws ++ [BitVec.ofNat 64 (slipCheck 0 0 ws)]

theorem witness_SlipTransport :
    (let s := on (fun h => h.wr .TW_HSTATUS_state 2)
     s.hw.rd .TW_HSTATUS_state = 2 ∧ (after (.txwinPush 0) s).tw.fifo = [] ∧ (after .resync s).rd .TW_HSTATUS_state = 0) ∧
    (let s := State.reset
     s.hw.rd .TW_HSTATUS_state ≠ 2 ∧ s.hw.txFree ≠ 0 ∧ s.hw.tw.phase = .none ∧ (after .hostBadAccess s).on .TW_HSTATUS_bad_access = true) ∧
    (let s := on (fun h => h.setTw (fun t => { t with slip := echo0, phase := .complete }))
     s.hw.tw.phase = .complete ∧ s.hw.rd .TW_HSTATUS_expect_seq = 0 ∧ slipReserved echo0 = false ∧ s.hw.slipOp = 1 ∧
       (after .slipComplete s).tw.phase = .execute ∧ (after .slipComplete s).rd .TW_HSTATUS_expect_seq = 1) ∧
    (let s := on (fun h => h.setTw (fun t => { t with slip := echo0.take 2 ++ [1#64], phase := .complete }))
     slipCheck 0 0 (echo0.take 2) ≠ 1 ∧ (after .slipComplete s).codes = [0xD01]) ∧
    (let s := on (fun h => (h.wr .TW_HSTATUS_expect_seq 1).setTw (fun t => { t with slip := echo0, phase := .complete }))
     s.hw.rd .TW_HSTATUS_expect_seq = 1 ∧ (after .slipComplete s).tw.out.length = 1) ∧
    (let s := on (fun h => (h.wr .TW_HSTATUS_state 1).setTw (fun t => { t with slip := [0#64] }))
     s.hw.tw.phase = .none ∧ s.hw.rd .TW_HSTATUS_state = 1 ∧ (after .slipIdleTimeout s).codes = [0xD02]) := by decide +kernel

theorem witness_SlipTransport_full :
    let s := on (fun h => h.setTw (fun t => { t with fifo := List.replicate 8192 0#64 }))
    s.hw.txFree = 0 ∧ (after (.txwinPush 0) s).codes = [0xD03] ∧ (after (.txwinPush 0) s).on .TW_HSTATUS_tx_overflow = true := by
  decide +kernel

/-- The window with a slip in execution: opcode, param, payload; the application phase. -/
def slipHw (op param : Nat) (ws : List Word) : Hw :=
  (Hw.reset.wr .TW_HSTATUS_phase 2).setTw (fun t => { t with
    slip := [BitVec.ofNat 64 (op * 2 ^ 56), BitVec.ofNat 64 param] ++ ws ++ [0#64], phase := .execute })

theorem witness_SlipOpcodes :
    (let s := on (fun _ => slipHw 1 0 [7#64])
     s.hw.executing 1 = true ∧ (after .echo s).tw.out.map (fun o => o.2.2.length) = [4]) ∧
    (let s := on (fun _ => slipHw 2 0x10000000 [7#64])
     s.hw.executing 2 = true ∧ (s.hw.hostWrite 0x10000000 0 [7#64]).1 = none ∧ (after .writeWords s).load 0x10000000 1 = [7#8] ∧
       (on (fun _ => slipHw 2 0x10000004 [])).hw.executing 2 = true ∧
       ((slipHw 2 0xFFFFFFFFF8 []).hostWrite 0xFFFFFFFFF8 0 [7#64]).1.isSome = true) ∧
    (let s := on (fun _ => slipHw 3 (0x10000000 + 2 ^ 40) [])
     s.hw.executing 3 = true ∧ (s.hw.hostRead 0x10000000 0 1).1.toOption = some [0#64] ∧
       (after .readWords s).tw.out.map (fun o => o.2.2.length) = [4] ∧ (slipHw 3 (4094 * 2 ^ 40) []).executing 3 = true ∧
       (slipHw 3 (2 ^ 40 + 4) []).executing 3 = true) ∧
    (let s := on (fun _ => slipHw 4 (7 * 2 ^ 40) [])
     s.hw.executing 4 = true ∧ s.hw.clerkState 7 = 0 ∧ (after .runProgram s).tw.out.length = 1) ∧
    (let s := on (fun _ => (((slipHw 4 0 []).wr .MC_STATUS_state 1).setVal .TW_REQRING (2 * 2 ^ 60 + 0x10000000) 0).wr .TW_REQCONS_cons 0 0)
     s.hw.executing 4 = true ∧ s.hw.clerkState 0 = 1 ∧ s.hw.rd .TW_REQRING_base 0 ≠ 0 ∧
       between (s.hw.rd .TW_REQPROD_prod 0) (s.hw.rd .TW_REQCONS_cons 0) < 2 ^ s.hw.rd .TW_REQRING_log2_slots 0 ∧
       (after .runProgram s).rd .TW_REQPROD_prod 0 = 1 ∧ (after .runProgram s).on .MC_WAKE_kick 0 = true) ∧
    (let s (prod : Nat) := on (fun _ =>
       (((((slipHw 4 0 []).wr .MC_STATUS_state 1).setVal .TW_REQRING (2 * 2 ^ 60 + 0x10000000) 0).wr .TW_REQPROD_prod prod 0).setTw
         (fun t => { t with phase := .waiting })))
     (s 4).hw.slotWait 4 = true ∧ (s 4).hw.ringFull 0 = true ∧ (s 3).hw.ringFull 0 = false ∧
       (after .clerkBusy (s 4)).tw.out.length = 1 ∧ (after .clerkBusy (s 3)).tw.out = [] ∧
       (after .runProgram (s 3)).rd .TW_REQPROD_prod 0 = 4 ∧ (after .runProgram (s 4)).rd .TW_REQPROD_prod 0 = 4) ∧
    (let s := on (fun _ => (slipHw 5 0 [7#64]).wr .TW_HSTATUS_phase 1)
     s.hw.executing 5 = true ∧ bootArea ≠ 0 ∧ (s.hw.stage bootArea 0 [7#64]).1 = none ∧ bit s.hw.slipParam 47 = false ∧
       (after .loadImage s).load bootArea 1 = [7#8] ∧ bootAreaSize / 8 < 0x100000 + 1 ∧
       ((slipHw 5 0x100000 [7#64]).wr .TW_HSTATUS_phase 1).executing 5 = true) ∧
    (let s := on (fun _ => slipHw 6 0 (List.replicate 18 1#64))
     s.hw.on .CX_IMPORT_CMD_busy = false ∧ s.hw.executing 6 = true ∧ (after .importKey s).tw.phase = .importing ∧
       (after .importKey s).val .CX_IMPORT_PN = 1) ∧
    (let s := on (fun _ => (slipHw 6 0 []).setTw (fun t => { t with phase := .importing }))
     s.hw.tw.phase = .importing ∧ (after .importKey s).tw.out.length = 1) := by decide +kernel

theorem witness_Receipts :
    (let s := on (fun h => h.setTw (fun t => { t with rx := [[1#64, 2#64, 3#64]] }))
     s.hw.tw.level = 3 ∧ (after (.rxpop 4) s).on .TW_HSTATUS_bad_pop = true ∧ (after (.rxpop 2) s).tw.rx = [[3#64]] ∧
       (after (.rxpop 0) s).tw.level = 3) ∧
    (let s := on (fun h => h.setTw (fun t => { t with out := [(none, false, [1#64])] }))
     s.hw.tw.out = [(none, false, [1#64])] ∧ s.hw.tw.level + 1 ≤ 8192 ∧ (after .receiptPlace s).tw.rx = [[1#64]] ∧
       Hw.reset.tw.out = []) ∧
    (let v : Word := BitVec.ofNat 64 (2 ^ 63 + 4094)
     Hw.reset.on .TW_CRCMD_busy 7 = false ∧ bit v.toNat 63 = true ∧ bits v.toNat 11 0 = 4094 ∧
       (after (.clerkReceipt 7 (BitVec.ofNat 64 (2 ^ 63 + 1))) State.reset).on .TW_CRCMD_busy 7 = true ∧
       (after (.clerkReceipt 7 (BitVec.ofNat 64 (2 ^ 63 + 4095))) State.reset).on .TW_CRCMD_busy 7 = false) := by decide +kernel

theorem witness_Receipts_full :
    let s := on (fun h => h.setTw (fun t => { t with out := [(none, false, [1#64])], rx := [List.replicate 8192 0#64] }))
    8192 < s.hw.tw.level + 1 ∧ (after .receiptPlace s).tw.out = [(none, false, [1#64])] := by decide +kernel

/-- Clerk 0 running, source 1024 pending at it with level 5. -/
def eventHw : Hw := ((clerkHw.setVal .EV_SOFT 1 0).setVal .EV_SRC 5 1024).wr .EV_CFG_deliver_en 1 0

theorem witness_ClerkEvents :
    (let s := on (fun _ => eventHw)
     s.hw.checkCopies = s.hw ∧ s.hw.clerkPower 0 = 3 ∧ s.hw.clerkState 0 = 1 ∧ s.hw.deliverable 0 false = some (1024, 5) ∧
       s.hw.deliverable 0 true = some (1024, 5) ∧ ((after (.interruptEntry ⟨0, false⟩) s).clerk 0).level = 5 ∧
       (after (.polledClaim 0) s).val .EV_CLAIM = 2 ^ 63 + 5 * 65536 + 1024 ∧ Hw.reset.clerkState 7 = 0) ∧
    (let s := on (fun _ => clerkHw)
     s.hw.deliverable 0 true = none ∧ (after (.interruptEntry ⟨0, true⟩) s).val .EV_CNT 1 = 1 ∧ (after (.polledClaim 0) s).val .EV_CLAIM = 0) ∧
    (let p : Resume := ⟨9, false, List.replicate 16 false, 0⟩
     let s (r : Option Resume) := on (fun _ => clerkHw.setClerk 0 (fun x => { x with stack := [⟨5, 1024, r⟩] }))
     ((s none).hw.clerk 0).stack.map (·.id) = [1024] ∧ ((after (.evDone 0 1024) (s none)).clerk 0).stack = [] ∧
       ((after (.evDone 0 1024) (s (some p))).clerk 0).ua = 9 ∧ (after (.evDone 0 1025) (s none)).codes = [0x3A1]) ∧
    (let s := on (fun h => h.wr .EV_TIMER_count 1 7)
     s.hw.rd .EV_TIMER_count 7 ≠ 0 ∧ (after (.evTimerExpiry 7) s).on .EV_CSTAT_timer 7 = true ∧ Hw.reset.rd .EV_TIMER_count 7 = 0) ∧
    ((after (.softSet (.shared 15) 9) State.reset).val .EV_SOFT 15 = 9 ∧ (after (.softSet (.priv 7) 0x1FFFF) State.reset).val .EV_PSOFT 7 = 0x10000) := by
  decide +kernel

theorem witness_HostEvents :
    (let s := on (fun h => (h.setVal .EV_SOFT 1 0).wr .EV_SRC_level 5 1024)
     s.hw.bad = [] ∧ s.hw.srcPending 1024 = true ∧ s.hw.unavailable 1024 = true ∧ bit (s.hw.val .EV_STRANDED 16) 0 = false ∧
       bit ((after (.strandTimeout 1024) s).val .EV_STRANDED 16) 0 = true ∧ s.hw.srcPending 1025 = false) ∧
    (let v : Word := 0x80F
     8 < bits (0x900 : Word).toNat 11 8 ∧ bits v.toNat 11 8 = 8 ∧ (after (.evSrcWrite 2047 v) State.reset).rd .EV_SRC_level 2047 = 14 ∧
       (after (.evSrcWrite 2047 v) State.reset).rd .EV_SRC_target 2047 = 8 ∧ Hw.reset.unavailable 2047 = true ∧
       (after (.evSrcWrite 110 1) State.reset).rd .EV_SRC_target 110 = 8 ∧
       (clerkHw.setVal .EV_SRC 5 0).unavailable 0 = false) ∧
    (let s := on (fun h => { ((h.setVal .EV_SOFT 1 0).setVal .EV_SRC (63 * 2 ^ 16 + 0x805) 1024).setVal .A_MSIX_CTL 0 63 with
       ev := { h.ev with msixOn := true, masked := false, master := true } })
     s.hw.bad = [] ∧ s.hw.vecPending 63 = true ∧ s.hw.ev.announced = [] ∧ s.hw.vecOpen 63 = true ∧
       (after (.msixSend 63) s).sent.length = 1 ∧ (after (.msixSend 63) s).ev.announced = [63]) ∧
    (let s := on (fun h => { ((h.setVal .EV_SOFT 1 0).setVal .EV_SRC (63 * 2 ^ 16 + 0x805) 1024).setVal .A_MSIX_CTL 1 63 with
       ev := { h.ev with msixOn := true, masked := false, master := true } })
     bit (s.hw.val .A_MSIX_CTL 63) 0 = true ∧ (after (.vectorUnmask 63) s).sent.length = 1) ∧
    ((after (.msixFunctionControl true true true) State.reset).ev.msixOn = true) := by decide +kernel

theorem witness_CounterSets :
    (let v : Word := BitVec.ofNat 64 (3 * 2 ^ 62 + 1)
     let s := on (fun h => (h.setVal .PM_CYCLES 5 0 7).setVal .MC_PMCYCLES 5 7)
     (after (.pmRun (.slice 7) v) s).on .PM_CTRL_run 0 7 = true ∧ (after (.pmRun (.slice 7) v) s).val .PM_CYCLES 0 7 = 0 ∧
       (after (.cycClear (.slice 7)) s).val .PM_CYCLES 0 7 = 0 ∧ (after (.pmRun (.clerk 7) v) s).on .MC_PMCTRL_run 7 = true ∧
       (after (.cycClear (.clerk 7)) s).val .MC_PMCYCLES 7 = 0) ∧
    (let s := on (fun h => { h with wraps := [(false, 7, 7)] })
     s.hw.wraps.contains (false, 7, 7) = true ∧ s.hw.on .PM_SEL_sample_en 7 7 = false ∧
       (after (.counterOverflow (.slice 7) 7) s).rd .PM_STATUS_ovf 0 7 = 128) ∧
    (let s := on (fun h => { h.wr .PM_SEL_sample_en 1 7 7 with wraps := [(false, 7, 7)] })
     s.hw.on .PM_SAMPLE_valid 0 7 = false ∧ s.hw.armedSet (false, 7) = none ∧ s.hw.on .PM_CTRL_freeze_on_sample 0 7 = false ∧
       (after (.counterOverflow (.slice 7) 7) s).armed = [⟨false, 7, 7, none⟩]) ∧
    (let s := on (fun h => { (h.wr .PM_SEL_sample_en 1 7 7).wr .PM_SAMPLE_valid 1 0 7 with wraps := [(false, 7, 7)] })
     (after (.counterOverflow (.slice 7) 7) s).rd .PM_STATUS_missed 0 7 = 1 ∧ Hw.reset.wraps.contains (true, 0, 0) = false) ∧
    (let s := on (fun h => { h with armed := [⟨true, 7, 3, some [9, 2]⟩] })
     s.hw.armedSet (true, 7) = some ⟨true, 7, 3, some [9, 2]⟩ ∧ (after (.sampleCapture (.clerk 7)) s).armed = [] ∧
       (after (.sampleCapture (.clerk 7)) s).val .MC_PMSAMPLE 7 = 2 ^ 63 + 3 * 2 ^ 60 + 2 * 2 ^ 56 + 9) := by decide +kernel

/-- A hello of member 9 with a counter, hearing this port. -/
def hello0 (v : Nat) : List Byte :=
  let head : List Byte := [0x10#8, 0#8, 0#8, 9#8] ++ List.replicate 10 0#8
  List.replicate 14 0#8 ++ head ++ beBytes 2 (sfCheck 9 v head) ++ leBytes 8 5 ++ leBytes 2 3 ++ [2#8, 0#8] ++ leBytes 4 v ++
    List.replicate 16 0#8
/-- Fabric port 5, its neighbour member 9 with identifier 5, in a link state. -/
def fabricHw (st : Nat) : Hw :=
  let h := (((upHw.wr .PT_CFG_fabric 1 5 0).wr .SF_LINK_state st 5).wr .SF_LINK_nbr_member 9 5).setVal .SF_NBRID 5 5
  (h.wr .SF_MEMBER_valid 1).setSf 5 { h.sf 5 with heard := 1 }

theorem witness_FabricLinks :
    (let s := on (fun _ => fabricHw 1)
     let d := hello0 1
     s.hw.fabricPort 5 = true ∧ d.length = 62 ∧ sfCheck 9 1 (d.drop 14) = fieldAt d 28 2 ∧ (sfHeader (d.drop 14)).src = 9 ∧
       s.hw.member ≠ 9 ∧ 0 < (s.hw.sf 5).heard ∧ (1 + 2 ^ 32 - s.hw.rd .SF_LINK_adopted 5) % 2 ^ 32 = 1 ∧
       bit (byteAt (d.drop 30) 10) 1 = true ∧ (after (.helloRx 5 d) s).rd .SF_LINK_state 5 = 2 ∧
       (after (.helloRx 5 (d.take 61)) s).codes = [0xC01] ∧ (after (.helloRx 5 (d.set 29 0#8)) s).codes = [0xC01]) ∧
    (let s := on (fun _ => fabricHw 2)
     (after (.helloRx 5 (hello0 4)) s).val .SF_CNT 3 = 1 ∧ s.hw.link 5 = 5 ∧ s.hw.silent 5 = false ∧
       (after (.helloSend 5) s).val .SF_CNT 0 = 1 ∧ s.hw.linkLive 5 = true ∧ ((after (.linkDead 5) s).codes.contains 0xC02) = true) ∧
    (let head : List Byte := [0x20#8, 0#8, 0#8, 9#8] ++ List.replicate 10 0#8
     let d := List.replicate 14 0#8 ++ head ++ beBytes 2 (sfCheck 9 1 head) ++ (hello0 1).drop 30
     byteAt d 14 / 16 ≠ 1 ∧ (after (.helloRx 5 d) (on (fun _ => fabricHw 1))).lastDrop = 0xC1) ∧
    (let s := on (fun h => (h.setVal .SF_REACH_W 0x0041 0).wr .SF_REACH_INDEX_member 4095)
     s.hw.on .SF_REACH_CMD_busy = false ∧ s.hw.fabricPort 1 = false ∧ (after .reachWrite s).on .SF_STATUS_reach_refused = true) ∧
    (let s := on (fun h => (h.setVal .SF_REACH_W 0x0040 0).wr .SF_REACH_INDEX_member 4095)
     (after .reachWrite s).val .A_REACH (4 * 4095) = 0x40 ∧ (after .reachRead s).val .SF_REACH_W 0 = 0) := by decide +kernel

theorem witness_FabricLinks_member :
    ((List.range 768).all (fun p => !Hw.reset.fabricPort p) = true ∧
      (after (.sfMemberWrite (BitVec.ofNat 64 (2 ^ 63 + 4095))) State.reset).member = 4095) ∧
    (let s := on (fun h => (h.wr .PT_CFG_fabric 1 95 7).wr .PT_CFG_enable 1 95 7)
     s.hw.fabricPort 767 = true ∧ s.hw.cfg .PT_CFG_enable 767 = 1 ∧
       (after (.sfMemberWrite 1) s).on .SF_STATUS_member_refused = true) := by decide +kernel

theorem witness_TwinPair :
    let pair := (((((fabricHw 2).wr .TP_CTRL_enable 1).wr .TP_CTRL_partner 9).wr .TP_PAIR_valid 1 7).wr .TP_PAIR_port 5 7).wr .SF_LINK_pair 1 5
    (let s := on (fun _ => { pair with twin := { pair.twin with queue := List.replicate 16 (List.replicate 64 0#8) } })
     s.hw.syncLink = some 5 ∧ s.hw.link 5 = 5 ∧ s.hw.silent 5 = false ∧ s.hw.on .LG_STATUS_lastgasp = false ∧
       (after .twinRecordSend s).twin.queue.length = 1 ∧ (after .twinRecordSend s).val .TP_CNT 0 = 15) ∧
    (Hw.reset.twin.queue = [] ∧ (after .twinHeartbeat (on (fun _ => pair))).twin.queue.length = 1 ∧ Hw.reset.on .TP_CTRL_enable = false) ∧
    (let r (seq : Nat) : List Byte := [0#8, 0#8, 0#8, 0#8] ++ leBytes 4 seq ++ List.replicate 56 0#8
     let s := on (fun _ => (pair.wr .TP_STATUS_partner_up 1).wr .TP_PEERSTAT_rx_seq 7)
     s.hw.pairLink 5 = true ∧ Hw.reset.pairLink 5 = false ∧ (r 7).length = 64 ∧ (s.hw.tpCount 1).on .TP_STATUS_partner_up = true ∧
       (after (.twinRecordRx 5 (r 7)) s).rd .TP_PEERSTAT_rx_seq = 8 ∧ (after (.twinRecordRx 5 (r 8)) s).codes = [0xC11] ∧
       (after (.twinRecordRx 5 (r 6)) s).val .TP_CNT 3 = 1) ∧
    (let s := on (fun _ => pair.wr .TP_STATUS_partner_up 1)
     (after .twinPartnerLost s).codes = [0xC10] ∧ Hw.reset.on .TP_STATUS_partner_up = false) := by decide +kernel

/-! ### Power, resets, time, pins, faults -/

/-- The state after reset with the device held. -/
def heldS : State := on (fun h => h.wr .FC_STATUS_device_hold 1)

theorem witness_PowerStates :
    (let v : Word := BitVec.ofNat 64 (2 ^ 63)
     let up : Word := BitVec.ofNat 64 (2 ^ 63 + 3 * 2 ^ 56)
     Hw.reset.on .PW_SLICECMD_busy 7 = false ∧ Hw.reset.slicePower 7 = bits v.toNat 57 56 ∧
       (after (.slicePowerCmd 7 v) State.reset).rd .PW_SLICECMD_result 7 = 1 ∧
       (after (.slicePowerCmd 7 up) (on (fun h => (h.wr .PW_SLICESTAT_state 1 7).wr .FC_STATUS_device_hold 1))).rd .PW_SLICECMD_result 7 = 6 ∧
       (on (fun h => h.wr .PW_SLICECMD_busy 1 7)).hw.on .PW_SLICECMD_busy 7 = true) ∧
    (let s := on (fun h => ((h.wr .PW_SLICECMD_busy 1 7).wr .PW_SLICESTAT_state 2 7).wr .PW_SLICECMD_state 3 7)
     s.hw.slicePower 7 = 2 ∧ s.hw.io.forced = [] ∧ (after (.sliceTransitionDone 7 0) s).slicePower 7 = 3 ∧
       (after (.sliceTransitionDone 7 0) s).on .PW_SLICECMD_busy 7 = false) ∧
    (let s := on (fun h => { ((h.wr .PW_SLICECMD_busy 1 0).active).wr .PW_SLICECMD_state 2 0 with ctxs := [ctx0 2 .ready] })
     s.hw.slicePower 0 = 3 ∧ s.hw.sliceDrained 0 = false ∧ s.hw.rd .PW_SLICECMD_state 0 < 3 ∧ (after (.quiesceTimeout 0) s).ctxs = [] ∧
       (after (.sliceTransitionDone 0 0) s).ctxs.length = 1) ∧
    (let v : Word := BitVec.ofNat 64 (2 * 2 ^ 62)
     bits (BitVec.ofNat 64 (3 * 2 ^ 62) : Word).toNat 63 62 = 3 ∧ bits v.toNat 63 62 ≠ 3 ∧
       (after (.lanePower 767 v) State.reset).rd .SD_LANECFG_pwr 95 7 = 2 ∧
       Hw.reset.rd .SD_LANESTAT_pwr_state 95 7 = Hw.reset.rd .SD_LANECFG_pwr 95 7 ∧
       (after (.laneTransitionDone 767) (on (fun h => h.wr .SD_LANECFG_pwr 2 95 7))).rd .SD_LANESTAT_pwr_state 95 7 = 1) ∧
    (let v : Word := BitVec.ofNat 64 (2 ^ 63 + 2 ^ 56)
     Hw.reset.on .PW_CLERKCMD_busy 7 = false ∧ (after (.clerkPowerCmd 7 v) State.reset).on .PW_CLERKCMD_busy 7 = true ∧
       bit (0 : Word).toNat 63 = false) ∧
    (let s (st : Nat) := on (fun h => (h.wr .PW_CLERKCMD_busy 1 7).wr .PW_CLERKCMD_state st 7)
     (after (.clerkPowerDone 7) (s 0)).clerkPower 7 = 0 ∧ (after (.clerkPowerDone 7) (s 3)).clerkPower 7 = 3 ∧
       (((s 1).hw.setClerk 7 (fun x => { x with loads := [(1, 0#64)] })).clerk 7).loads ≠ [] ∧ (s 1).hw.rd .PW_CLERKCMD_state 7 = 1) := by
  decide +kernel

theorem witness_SupplyAndHeat :
    (railUsed 6 10 = true ∧ railUsed 6 11 = false ∧ railUsed 4 14 = true ∧ refuses (.supplyAlarm 6 11 false) = true ∧
      (after (.supplyAlarm 4 14 false) State.reset).codes = [4] ∧ (after (.supplyAlarm 6 10 true) State.reset).codes.headD 0 = 2) ∧
    (Hw.reset.on .PW_STATUS_pwr_fail = false ∧ (after .pwrFailN State.reset).codes = [5] ∧
      (on (fun h => h.wr .PW_STATUS_pwr_fail 1)).hw.on .PW_STATUS_pwr_fail = true) ∧
    (let s := on (fun h => h.wr .PW_CTRL_warn_c 95)
     s.hw.dieTemp 14 < 1520 ∧ signed 16 (1520#16).toNat = 1520 ∧ (after (.thermalWarn 14 1520) s).codes = [8] ∧
       (after (.thermalWarn 14 1519) s).codes = [] ∧ s.hw.dieTemp 0 < 1840 ∧ signed 16 (1840#16).toNat = 1840 ∧
       (after (.thermalCritical 0 1839) s).codes = []) ∧
    (refuses (.clockMonitorFault 6) = true ∧ (after (.clockMonitorFault 8) heldS).codes.headD 0 = 0x010 ∧
      (after (.clockMonitorFault 5) heldS).rd .PW_CLKMON_derived = 32 ∧ ((after .pcieRefclkLoss State.reset).codes.contains 0x013) = true) := by
  decide +kernel

theorem witness_DeviceResets :
    State.reset.Settled ∧ (devAfter .powerOn State.reset).tx = [] ∧ (devAfter .resetN State.reset).perm.count = 1 ∧
    (let v : Word := BitVec.ofNat 64 (2 ^ 63)
     bit v.toNat 63 = true ∧ (after (.glResetArm .host v) State.reset).io.arm = some (.host, 0)) ∧
    (let v : Word := BitVec.ofNat 64 (2 ^ 62)
     let s (t : Nat) := on (fun h => { h with up := 800001, io := { h.io with arm := some (.host, t) } })
     bit v.toNat 63 = false ∧ bit v.toNat 62 = true ∧ (s 1).hw.up - 1 ≤ 800000 ∧ 800000 < (s 0).hw.up - 0 ∧
       (devAfter (.glResetGo .host v) (s 1)).perm.cause = 2 ∧ (devAfter (.glResetGo .host v) (s 0)).hw.io.arm = some (.host, 0) ∧
       (devAfter (.glResetGo .rom v) (s 1)).hw.io.arm = some (.host, 1) ∧ Hw.reset.io.arm = none) := by decide +kernel

theorem witness_Timebase :
    (let s := on (fun h => { h with time := 5 * 2 ^ 32 * unitsPerSecond })
     let h : Hw := { s.hw with time := ((4 * unitsPerSecond) <<< 32) % 2 ^ 96 }
     h.minute ≤ s.hw.now / (60 * unitsPerSecond) ∧ h.now / unitsPerSecond ≤ s.hw.now / unitsPerSecond ∧
       (after (.tbSet (BitVec.ofNat 64 (4 * unitsPerSecond))) s).now = 4 * unitsPerSecond ∧
       (after (.tbSet (BitVec.ofNat 64 (4 * unitsPerSecond))) s).codes = [0x021] ∧
       (after (.tbStep (BitVec.ofInt 64 (-1))) s).now = 5 * unitsPerSecond - 1) ∧
    (Hw.reset.on .TB_TODRX_valid = false ∧ (after .ppsIn State.reset).rd .TB_EVENT_events = 1) ∧
    (let s := on (fun h => h.wr .TB_TODRX_valid 1)
     s.hw.on .TB_TODRX_valid = true ∧ s.hw.on .TB_CTRL_tod_arm = false ∧ (after .ppsIn s).on .TB_TODRX_valid = false ∧
       (after .ppsIn (s.setHw ((s.hw.wr .TB_TODRX_seconds 9).wr .TB_CTRL_tod_arm 1))).now = 9 * unitsPerSecond) ∧
    (let d : List Byte := [0xA5#8, 0#8, 0#8, 0#8, 0#8, 0#8, 9#8, 1#8, 0#8]
     let m := d ++ beBytes 2 (todCheck d)
     m.length = 11 ∧ fieldAt m 9 2 = todCheck (m.take 9) ∧ (after (.todInMessage m) State.reset).rd .TB_TODRX_seconds = 9 ∧
       (after (.todInMessage (m.set 0 0#8)) State.reset).codes = [0x020] ∧ refuses (.todInMessage (m.take 10)) = true) ∧
    (let s := on (fun h => { h.wr .TB_CTRL_tod_out_en 1 with io := { h.io with pps := some 9 } })
     s.hw.io.pps = some 9 ∧ (after .todOut s).sent.length = 1 ∧ Hw.reset.io.pps = none) ∧
    (let s := on (fun h => { h with txts := [(5, 1, 77)] })
     s.hw.txts = [(5, 1, 77)] ∧ (after .txtsPop s).val .TB_TXTS_TIME = 77 ∧ Hw.reset.txts = []) ∧
    (let s := on (fun h => h.wr .TB_CTRL_src 1)
     s.hw.on .TB_CTRL_src = true ∧ s.hw.io.holdover = false ∧ (after .tsClkLoss s).codes = [0x012] ∧ (after .tsClkLoss s).io.holdover = true ∧
       Hw.reset.on .TB_CTRL_src = false ∧ (after .tsClkRelock (s.setHw (after .tsClkLoss s))).io.holdover = false) := by decide +kernel

theorem witness_BoardPins :
    (let s := on (fun h => { h with io := { h.io with rom := true } })
     s.hw.io.rom = true ∧ (after (.i2cBlockRead 0x7F) s).sent.length = 1 ∧ (after (.i2cBlockRead 0x80) s).sent = [] ∧
       Hw.reset.io.rom = false ∧ (after (.i2cZeroize 0xA4) s).rd .GL_I2CT_refused = 1 ∧ (after (.i2cZeroize 0xA5) s).codes = [0xA07] ∧
       (after (.i2cHold 0xA4) s).rd .GL_I2CT_refused = 1 ∧ (devAfter (.i2cReset 0xA5) s).perm.cause = 3) ∧
    (let s := on (fun h => ((h.wr .PW_VRCTRL_enable 1).wr .PW_VR_valid 1 15).wr .PW_VRDATA_failures 2 15)
     s.hw.on .PW_VRCTRL_enable = true ∧ s.hw.on .PW_VR_valid 15 = true ∧ (after (.vrPoll 15 none) s).codes = [0x030] ∧
       s.hw.on .PW_VR_valid 0 = false) ∧
    ((after (.jtagInstruction .extest) heldS).codes = [0x031] ∧ (after (.jtagInstruction .scanAccess) heldS).codes = [0xA07, 0x031] ∧ (after (.jtagInstruction .idcode) State.reset).codes = []) := by
  decide +kernel

/-- A record of the collector: code 0x801 of slice 7, tenant 9. -/
def rec0 : FaultRec := ⟨0x801, 7, 2, 0x3FF, some 9, 0, false, none, true⟩

theorem witness_FaultCollector :
    (let s := on (fun h => { h with fc := { h.fc with queue := [rec0] } })
     s.hw.fc.queue.find? (fun f => f.origin == 7) = some rec0 ∧ (after (.faultRecord ⟨7, []⟩) s).fc.queue = [] ∧
       (after (.faultRecord ⟨7, []⟩) s).fc.log.length = 1 ∧ Hw.reset.fc.queue = []) ∧
    ((after (.tenantFreeze 0xFFFF) State.reset).val .FC_TFROZEN 1023 = 2 ^ 63 ∧ (after (.portFreeze 767) State.reset).portFrozen 767 = true ∧
      (after (.sliceFreeze 7) State.reset).sliceFrozen 7 = true ∧ (after .collectorWatchdog heldS).codes = [0x82F]) ∧
    (let s := on (fun h => (h.wr .FC_STATUS_slice_frozen 128).wr .PW_SLICESTAT_state 1 7)
     s.hw.slicePower 7 = 1 ∧ (after (.sliceRelease 7) s).sliceFrozen 7 = false ∧ Hw.reset.slicePower 0 ≠ 1 ∧
       (after (.sliceRelease 0) s).on .FC_STATUS_cmd_refused = true) ∧
    (let v : Word := BitVec.ofNat 64 (2 ^ 63 + 8 * 2 ^ 54 + 15 * 2 ^ 50 + 0xE02 * 2 ^ 38)
     let s := on (fun h => h.wr .FC_CTRL_inject_en 1)
     s.hw.on .FC_CTRL_inject_en = true ∧ listedFaults.contains (bits v.toNat 49 38) = true ∧ (after (.fcInject v) s).codes = [0xE02] ∧
       (after (.fcInject (BitVec.ofNat 64 (2 ^ 63 + 9 * 2 ^ 54 + 15 * 2 ^ 50 + 0xE02 * 2 ^ 38))) s).codes = [] ∧
       (after (.fcInject v) State.reset).codes = []) ∧
    (let s := on (fun h => { h with fc := { h.fc with log := [⟨rec0, 1⟩] } })
     s.hw.fc.log = [⟨rec0, 1⟩] ∧ (after .logPop s).fc.log = [] ∧ Hw.reset.fc.log = []) := by decide +kernel

theorem witness_FaultCollector_upsets :
    let struck (u : Upset) : State := State.reset.setHw (after (.faultRecord ⟨3, [u]⟩) State.reset)
    let one : Flip := ⟨[1#64], 0, 0⟩
    [Upset.word .PA_STATE0 0 0 7 one].all upsetOk = true ∧ (after (.paScrub 0) (struck (.word .PA_STATE0 0 0 7 one))).codes = [0x202] ∧
    (after (.seScrub 0) (struck (.word .NS_UW 0 2 32767 one))).codes = [0x211] ∧
    (struck (.word .EV_SRC 0 0 2047 one)).hw.codes = [0x3A2] ∧ (struck (.drain 7 1 0 5)).hw.codes = [0x502] := by decide +kernel

theorem witness_TestStrip :
    let s (ph : StripPhase) := on (fun h => (h.active.setStrip 0 (fun x => { x with phase := ph })))
    ((s .rest).hw.inactive 0 = false ∧ (s .rest).hw.stripPhase 0 = .rest ∧ Hw.reset.inactive 0 = true ∧
      (after (.stripRotate 0) (s .rest)).stripPhase 0 ≠ .rest) ∧
    ((s (.draining 2)).hw.pipeEmpty 0 2 = true ∧ (after (.stripRotate 0) (s (.draining 2))).rd .FC_STRIP_strip 0 = 2 ∧
      (after (.stripRotate 0) (s (.draining 2))).stripPhase 0 = .testing) ∧
    (let t := on (fun h => { (h.active.setStrip 0 (fun x => { x with phase := .draining 2 })) with ctxs := [ctx0 2 .ready] })
     t.hw.pipeEmpty 0 2 = false ∧ (after (.stripStall 0) t).codes = [0x813]) ∧
    ((s .testing).hw.rd .SE_REFBASE_ref_count 0 0 0 = 0 ∧ (nth (s .testing).hw.fc.strip 0 StripSt.reset).ed = 0 ∧
      (after (.stripTestDone 0 none) (s .testing)).stripPhase 0 = .rest ∧
      (after (.stripTestDone 0 (some 7)) (s .testing)).codes = [0x810, 0x811]) ∧
    (let v : Word := BitVec.ofNat 64 (2 ^ 63 + 5 * 2 ^ 56)
     Hw.reset.rd .FC_SELFTEST_STATUS_state ≠ 1 ∧ Hw.reset.canTest 0 5 = false ∧ (after (.selftest v) State.reset).rd .FC_SELFTEST_STATUS_state = 3 ∧
       (after (.selftest v) (on (fun h => h.wr .PW_SLICESTAT_state 1 0))).rd .FC_SELFTEST_STATUS_state = 1 ∧
       (nth Hw.reset.fc.strip 0 StripSt.reset).selftest = none) ∧
    (let t := on (fun h => h.setStrip 7 (fun x => { x with selftest := some 5 }))
     (nth t.hw.fc.strip 7 StripSt.reset).selftest = some 5 ∧ (after (.selftestDone 7 none) t).on .FC_SELFTEST_STATUS_pass = true ∧
       (after (.selftestDone 7 (some 65535)) t).rd .FC_SELFTEST_STATUS_first_fail = 65535) ∧
    (let t := on (fun h => h.active.setStrip 0 (fun x => { x with phase := .testing, selftest := some 0 }))
     2 ≤ t.hw.slicePower 0 ∧ (nth t.hw.fc.strip 0 StripSt.reset).failed = none ∧
       (after (.selftestDone 0 none) t).on .FC_SELFTEST_STATUS_pass = true ∧
       (after (.selftestDone 0 (some 9)) t).rd .FC_SELFTEST_STATUS_first_fail = 9) := by decide +kernel

theorem witness_CountersignTables :
    (let s := on (fun h => (h.active.wr .HM_STACKSTAT_state 3 0).setVal .CS_CO_W1 (2 ^ 63) 0 0)
     s.hw.coReach 1 = false ∧ (after (.coWrite 1) s).codes = [0x804] ∧ (after (.coScrub 1) s).codes = [0x80A] ∧
       (after (.coRead 0) s).val .CS_CO_W1 0 0 = (s.hw.coEntry 0 0).2) ∧
    ((Hw.reset.permitWord 7 63 1023).1 = (Hw.reset.permitWord 7 63 1023).2) ∧
    (let s := on (fun h => h.setVal .CS_PERMIT 1 (1024 * 63 + 1023) 7)
     (s.hw.permitWord 7 63 1023).1 ≠ (s.hw.permitWord 7 63 1023).2 ∧ (after (.csPermitRead 7 63 1023) s).codes = [0x809]) := by
  decide +kernel

theorem witness_RegisterWrites :
    (let s := on (fun _ => clerkHw)
     s.hw.judge (.clerk 0) true false 0x10000004 8 = 3 ∧ s.hw.judge (.clerk 0) true false 0xFFFFFFFFF8 8 = 4 ∧
       s.hw.judge (.clerk 0) true false 0x10000000 8 = 0 ∧ place 0x10000000 ≠ .nothing ∧
       (after (.registerWrite (.clerk 0) 0x10000000 ⟨0x0102, false⟩) s).load 0x10000000 2 = [2#8, 1#8]) ∧
    ((after (.registerWrite .bar0 0x100000 ⟨1, false⟩) State.reset).on .TW_HSTATUS_bad_access = false ∧
      (after (.registerWrite .bar0 0xFFFFC ⟨1, false⟩) State.reset).on .TW_HSTATUS_bad_access = true ∧
      (after (.registerWrite .bar0 0xF0400 ⟨1, true⟩) State.reset).on .TW_HSTATUS_bad_access = true ∧
      (after (.registerWrite .bar0 0xF03F8 ⟨5, true⟩) State.reset).val .A_MSIX_DATA 63 = 5 ∧
      (after (.registerWrite .bar0 0x10000 ⟨0x300000000, false⟩) State.reset).tw.slip.length = 1) := by
  decide +kernel

/-! ### Single rules and invariants -/

theorem witness_InterruptPin :
    (on (fun h => h.setVal .EV_STRANDED 1 31)).hw.intN = true ∧ Hw.reset.intN = false := by decide +kernel

theorem witness_StarvedRequests :
    let a := 0x1000000000
    let h (n : Nat) := Hw.reset.setHbm (fun b => { b with
      reqs := [⟨a, 64, 5, false, false⟩, ⟨a + 64, 64, 4, false, true⟩], debt := setNth b.debt 0 (setNth (nth b.debt 0 []) (bankOf a) n) })
    bankOf (a + 64) = bankOf a ∧ ((h 0).ready 0 (bankOf a)).find? (·.starved) = some ⟨a + 64, 64, 4, false, true⟩ ∧
    (h 8).hbm.owed 0 (bankOf a) = 8 ∧ (h 7).hbm.owed 0 (bankOf a) < 8 ∧ (h 7).hbm.nearDue 0 (bankOf a) 8 = false ∧
    (h 8).bankPick 0 (bankOf a) = some (.refresh true, none) ∧
    (h 7).bankPick 0 (bankOf a) = some (.burst ⟨a + 64, 64, 4, false, true⟩, none) ∧
    (({ (h 0).hbm with near := [(0, bankOf a, 8)] } : HbmSt).nearDue 0 (bankOf a) 8 = true) ∧
    (h 0).hbm.waiting = [] ∧
    ((h 0).hbmBurst 0 ⟨a + 64, 64, 4, false, true⟩ false [] []).rd .HM_SCNT_count 9 = 1 := by decide +kernel

theorem witness_LogSpace :
    let lost : FaultRec := { rec0 with queued := false }
    let s (f : FaultRec) := on (fun h => { h with fc := { h.fc with queue := [f] } })
    (s lost).hw.fc.queue.find? (fun f => f.origin == 7) = some lost ∧ (after (.faultRecord ⟨7, []⟩) (s lost)).rd .FC_STATUS_overflow_count = 1 ∧
    (after (.faultRecord ⟨7, []⟩) (s lost)).fc.log = [] ∧ (after (.faultRecord ⟨7, []⟩) (s rec0)).fc.log.length = 1 ∧
    (let t := on (fun h => { h with fc := { h.fc with queue := [rec0], log := List.replicate 256 ⟨rec0, 0⟩ } })
     (t.hw.reaction rec0).2.fc.log.length = 256 ∧ (after (.faultRecord ⟨7, []⟩) t).on .FC_STATUS_log_overflow = true ∧
       (after (.faultRecord ⟨7, []⟩) t).fc.log.length = 256) := by decide +kernel

theorem witness_MemberConflict :
    let d := hello0 1
    (let s := on (fun _ => (fabricHw 1).wr .SF_MEMBER_member 9)
     s.hw.fabricPort 5 = true ∧ d.length = 62 ∧ byteAt d 14 / 16 = 1 ∧ (sfHeader (d.drop 14)).src = s.hw.member ∧
       sfCheck 9 1 (d.drop 14) = fieldAt d 28 2 ∧ (after (.helloRx 5 d) s).codes = [0xC05] ∧ (after (.helloRx 5 d) s).rd .SF_LINK_state 5 = 1) ∧
    (let s := on (fun _ => (fabricHw 2).wr .SF_LINK_nbr_member 8 5)
     s.hw.rd .SF_LINK_state 5 = 2 ∧ s.hw.member ≠ 9 ∧ (sfHeader (d.drop 14)).src ≠ s.hw.rd .SF_LINK_nbr_member 5) := by decide +kernel

theorem witness_ReactionFloor :
    rec0.commanded = none ∧ Hw.reset.good ⟨.FC_POLICY, 0, 0, rec0.code⟩ = true ∧
    (let h := Hw.reset.setVal .FC_POLICY 0 0x001
     let f := { rec0 with code := 0x001 }
     bit (h.val .FC_POLICY 0x001) 15 = false ∧ (h.reaction f).1 = 4) ∧
    ({ rec0 with tenant := none }.able 1 = 3 ∧ { rec0 with port := 767 }.able 2 = 2 ∧ { rec0 with port := 768, origin := 8 }.able 2 = 4) := by
  decide +kernel

theorem witness_CommandsComplete :
    Instr.wf (.rxFrame 767 true [] .good false) = true ∧ (Instr.clockMonitorFault 8).wf = true ∧ (Instr.clockMonitorFault 7).wf = false := by
  decide +kernel

theorem witness_StepTakesFront : State.reset.pending = [] ∧ (State.reset.withPending [.edFlip]).pending = [.edFlip] := by decide +kernel

theorem witness_FramesDelivered :
    (onD (fun d => { d with tx := [tx0] })).Lawful ∧
    (match step ((onD (fun d => { d with tx := [tx0] })).withPending [.drainSlow]) with
      | .next t => t.dev.tx.map (·.port) | _ => []) = [5] := by
  refine ⟨?_, by decide +kernel⟩
  intro x h
  rw [show (onD (fun d => { d with tx := [tx0] })).dev.tx = [tx0] from rfl, List.mem_singleton] at h
  subst h
  decide

theorem witness_FusesOnlyRise :
    (match step (State.reset.withPending [.fuseRaise (.clerk 0) (BitVec.ofNat 64 (2 ^ 63 + 2 * 2 ^ 56 + 63))]) with
      | .next t => t.dev.perm.minVersion.toNat | _ => 0) = 63 := by decide +kernel

theorem witness_CheckChaining :
    Hw.reset.val .CK_URESULT 15 < 2 ^ (Hw.reset.ckPoly 15).width := by decide +kernel

theorem witness_WritesReadBack :
    let r : HbmOp := ⟨5, 0x10000001FF, some [0xAB#8], 0⟩
    let s := on (fun h => h.wr .HM_STACKSTAT_state 3 0)
    hbmOpOk r = true ∧ s.hw.stackActive r.addr.toNat = true ∧ s.hw.hbm.trackerFree (stackOf r.addr.toNat) r.cls = true ∧
    (after (.hbmRequest r) s).load 0x10000001FF 1 = [0xAB#8] := by decide +kernel

theorem witness_NestedPriorities :
    (let x : List EvEntry := ((List.range 15).map (fun k => (⟨15 - k, k, none⟩ : EvEntry)))
     x.Pairwise (fun a b => b.level < a.level) ∧ (∀ e ∈ x, 1 ≤ e.level ∧ e.level ≤ 15) ∧ x.length = 15) := by decide +kernel

theorem witness_RefreshDebt :
    (∀ l ∈ Hw.reset.hbm.debt, ∀ d ∈ l, d ≤ 8) ∧ Hw.reset.hbm.debt.length = 4 ∧
    2 ≤ (on (fun h => h.wr .HM_STACKSTAT_state 2 3)).hw.rd .HM_STACKSTAT_state 3 := by decide +kernel

/-! ### Values that the spec works out -/

/-- The check column of R332. -/
theorem test_check_column :
    let d : List Byte := [0x31, 0x32, 0x33, 0x34, 0x35, 0x36, 0x37, 0x38, 0x39].map (BitVec.ofNat 8)
    crc crc32 0 d = 0xCBF43926 ∧ crc crc32c 0 d = 0xE3069283 ∧ crc crc16 0 d = 0xD64E ∧ crc crc64 0 d = 0x995DC9BBDF1939FA := by
  decide +kernel

/-- The four-way branch of the worked example of 05_odkacel_instruction_set.md. -/
theorem test_branch_on_four :
    let w := 0x28CA020020004E21
    let cond (hit inner : Bool) : List Bool := [inner] ++ List.replicate 15 false ++ [hit] ++ List.replicate 15 false
    uwNano w = 163 ∧ uwImm w = 0x4E21 ∧ uwEnd w = false ∧ nextAddress w (cond false false) [] 4 = some (320, []) ∧
    nextAddress w (cond true false) [] 4 = some (321, []) ∧ nextAddress w (cond false true) [] 4 = some (322, []) ∧
    nextAddress w (cond true true) [] 4 = some (323, []) := by decide +kernel

/-- The blocks of the worked example of 01_device_overview.md lie in slices 1 and 5. -/
theorem test_slice_addresses :
    (match place 0x104200000, place 0x105200000, place 0x117300000, place 0x117400000, place 0x117800000 with
      | .reg _ a _, .reg _ b _, .reg _ c _, .reg _ d _, .reg _ e _ => [a, b, c, d, e] | _, _, _, _, _ => []) = [1, 1, 5, 5, 5] := by
  decide +kernel

/-- The key of the worked example of 05_odkacel_instruction_set.md: profile 5 of I2. -/
theorem test_profile_key :
    let hv := List.replicate 64 0#8 ++ beBytes 6 0x021A2C000021 ++ List.replicate 186 0#8
    formKey [0x0400042401400000, 0, 0] hv (beBytes 2 0x0A2C ++ List.replicate 62 0#8) [] = beBytes 8 0x0A2C021A2C000021 := by
  decide +kernel

end

end Sys2Proof.Machine
end

section
/-! The completion of commands: whatever a command does, it does to the device; the queue of commands stands, and only the check
of its operands can stop it. -/

namespace Sys2Proof.Machine

/-- An outcome that completes, with a change to nothing but the device. -/
def EndsOnDevice (o : Host.Outcome State Fault Refusal) (s : State) : Prop := ∃ d, o = .next (s.setDev d)

@[simp] theorem State.setDev_pending (s : State) (d : Dev) : (s.setDev d).pending = s.pending := rfl

theorem guarded_false (o : Host.Outcome State Fault Refusal) : guarded false o = .fault .illFormed := rfl

/-- A command on the hardware alone ends on the device. -/
theorem onHw_endsOnDevice (f : Hw → Hw) (s : State) : EndsOnDevice (onHw f s) s := ⟨_, rfl⟩

/-- A command whose effects may reach the transmit path ends on the device. -/
theorem onTx_endsOnDevice (f : Hw → Hw) (s : State) : EndsOnDevice (onTx f s) s := ⟨_, rfl⟩

/-- A command completes on the device under the check of its operands. The arms of `exec` have two shapes: six check their
operands, by the same expression as `Instr.wf`; for every other `Instr.wf` is `true`, and the arm is `onHw`, `onTx` or `onDev`
alone. -/
theorem exec_eq_guarded_wf (c : Instr) (s : State) : ∃ o, exec c s = guarded c.wf o ∧ EndsOnDevice o s := by
  cases c with
  | earlyRelease => exact ⟨_, rfl, onTx_endsOnDevice _ s⟩
  | hbmRequest => exact ⟨_, rfl, onHw_endsOnDevice _ s⟩
  | supplyAlarm => exact ⟨_, rfl, onTx_endsOnDevice _ s⟩
  | clockMonitorFault => exact ⟨_, rfl, onTx_endsOnDevice _ s⟩
  | todInMessage => exact ⟨_, rfl, onHw_endsOnDevice _ s⟩
  | faultRecord e => exact ⟨_, rfl, onTx_endsOnDevice _ (s.setDev (s.dev.struck e.upsets))⟩
  | _ => exact ⟨_, (guarded_true _).symm, _, rfl⟩

/-- Settles O53: a command's outcome is its effect on the device under the check of its operands, whichever way the check falls. -/
theorem commandsComplete : Obligations.CommandsComplete := by
  intro c s
  obtain ⟨_, hexec, d, rfl⟩ := exec_eq_guarded_wf c s
  rw [hexec]
  constructor
  · intro hwf
    exact ⟨s.setDev d, by rw [hwf, guarded_true], s.setDev_pending d⟩
  · intro hill
    rw [hill, guarded_false]

end Sys2Proof.Machine
end

section
/-! The delivery rule in the transmit path (R40): a frame enters it with evidence that passes the rule, and nothing done to a frame
there touches its evidence. Each operation on the transmit path keeps that, so each command does, and each step. -/

namespace Sys2Proof.Machine

/-! ### Lists of frames -/

/-- Every frame of a list carries evidence that passes the delivery rule. -/
def AllDeliver (l : List TxFrame) : Prop := ∀ x ∈ l, x.ev.delivers = true

section
variable {l : List TxFrame}

theorem AllDeliver.nil : AllDeliver [] := fun _ hx => absurd hx List.not_mem_nil

theorem AllDeliver.filter (h : AllDeliver l) (p : TxFrame → Bool) : AllDeliver (l.filter p) :=
  fun x hx => h x (List.mem_of_mem_filter hx)

/-- A change of the frames that leaves their evidence. -/
theorem AllDeliver.map (h : AllDeliver l) {f : TxFrame → TxFrame} (hf : ∀ x, (f x).ev = x.ev) : AllDeliver (l.map f) := by
  intro y hy
  obtain ⟨x, hx, rfl⟩ := List.mem_map.mp hy
  rw [hf]
  exact h x hx

theorem AllDeliver.concat (h : AllDeliver l) {x : TxFrame} (hx : x.ev.delivers = true) : AllDeliver (l ++ [x]) := by
  intro y hy
  rcases List.mem_append.mp hy with hy | hy
  · exact h y hy
  · rw [List.mem_singleton.mp hy]
    exact hx

theorem AllDeliver.updFirst (h : AllDeliver l) (p : TxFrame → Bool) {f : TxFrame → TxFrame} (hf : ∀ x, (f x).ev = x.ev) :
    AllDeliver (updFirst p f l) := by
  induction l with
  | nil => exact h
  | cons a r ih =>
    obtain ⟨ha, hr⟩ := List.forall_mem_cons.mp h
    unfold Machine.updFirst
    split
    · exact List.forall_mem_cons.mpr ⟨(hf a).symm ▸ ha, hr⟩
    · exact List.forall_mem_cons.mpr ⟨ha, ih hr⟩

theorem AllDeliver.delFirst (h : AllDeliver l) (p : TxFrame → Bool) : AllDeliver (delFirst p l) := by
  induction l with
  | nil => exact h
  | cons a r ih =>
    obtain ⟨ha, hr⟩ := List.forall_mem_cons.mp h
    unfold Machine.delFirst
    split
    · exact hr
    · exact List.forall_mem_cons.mpr ⟨ha, ih hr⟩

end

/-! ### The notes that the transmit path takes -/

/-- Every frame of a device's transmit path has passed the delivery rule. -/
def Dev.Lawful (d : Dev) : Prop := AllDeliver d.tx

theorem State.lawful_iff (s : State) : s.Lawful ↔ s.dev.Lawful := Iff.rfl

section
variable {d : Dev}

/-- The rule is about the transmit path alone. -/
theorem Dev.Lawful.of_tx (hd : d.Lawful) {e : Dev} (he : e.tx = d.tx) : e.Lawful := Eq.subst (motive := AllDeliver) he.symm hd

theorem Dev.Lawful.withHw (hd : d.Lawful) (h : Hw) : ({ d with hw := h } : Dev).Lawful := hd

/-- A device reset leaves the transmit path empty. -/
theorem Dev.reset_lawful (d : Dev) (cause : Nat) : (d.reset cause).Lawful := AllDeliver.nil

theorem Dev.Lawful.updTx (hd : d.Lawful) (copy : Nat) (f : TxSt → TxSt) : (d.updTx copy f).Lawful :=
  hd.map fun x => by split <;> rfl

theorem Dev.Lawful.spoil (hd : d.Lawful) (p : TxFrame → Bool) (reason : Nat) : (d.spoil p reason).Lawful :=
  (hd.filter _).map fun x => by
    split
    · rfl
    · split <;> rfl

theorem Dev.Lawful.keepLeft (hd : d.Lawful) (keys : List (Nat × Nat × List Byte)) : (d.keepLeft keys).Lawful :=
  hd.map fun x => by
    split
    · split <;> rfl
    · rfl

/-- A frame that the device itself makes is taken only with evidence that passes the rule. -/
theorem Dev.Lawful.addOwn (hd : d.Lawful) (p copy : Nat) (ev : Evidence) (bytes : List Byte) :
    (d.addOwn p copy ev bytes).Lawful := by
  unfold Dev.addOwn
  split
  · next hev => exact hd.concat hev
  · exact hd

theorem Dev.Lawful.takeNote (hd : d.Lawful) (n : Note) : (d.takeNote n).Lawful := by
  cases n with
  | data c b => exact (hd.updTx c _).spoil _ _
  | whole c n => exact hd.updTx c _
  | bad c r n => exact (hd.updTx c _).spoil _ _
  | cutOff p => exact hd.filter _
  | own p c ev b => exact hd.addOwn p c ev b
  | keyGone slot r keys => exact (hd.keepLeft keys).spoil _ _
  | revoke k => exact hd
  | raiseVersion v => exact hd
  | reset cause => exact d.reset_lawful cause

theorem Dev.Lawful.settle (hd : d.Lawful) : d.settle.Lawful :=
  List.foldlRecOn (motive := Dev.Lawful) d.hw.notes Dev.takeNote hd fun _ he n _ => he.takeNote n

/-! ### Frames that are sent -/

theorem Dev.Lawful.updFrame (hd : d.Lawful) (x : TxFrame) (f : TxSt → TxSt) : (d.updFrame x f).Lawful :=
  AllDeliver.updFirst hd _ fun _ => rfl

theorem Dev.Lawful.delFrame (hd : d.Lawful) (x : TxFrame) : (d.delFrame x).Lawful := AllDeliver.delFirst hd _

theorem Dev.Lawful.dropTx (hd : d.Lawful) (x : TxFrame) (reason : Nat) : (d.dropTx x reason).Lawful := by
  unfold Dev.dropTx
  dsimp only
  split
  · exact (hd.withHw _).updFrame x _
  · exact (hd.withHw _).delFrame x

theorem Dev.Lawful.stompTx (hd : d.Lawful) (x : TxFrame) (reason : Nat) : (d.stompTx x reason).Lawful :=
  (hd.withHw _).updFrame x _

theorem Dev.Lawful.startTx (hd : d.Lawful) (x : TxFrame) (c : TxCond) : (d.startTx x c).Lawful := by
  have begun : ∀ h f, (({ d with hw := h } : Dev).updFrame x f).Lawful := fun h f => (hd.withHw _).updFrame x f
  unfold Dev.startTx
  dsimp only
  split
  · exact (hd.withHw _).dropTx x _
  · split
    · exact (hd.withHw _).dropTx x _
    · split
      · exact ((begun _ _).withHw _).stompTx x _
      · split
        · exact ((begun _ _).withHw _).stompTx x _
        · split
          · exact ((begun _ _).withHw _).stompTx x _
          · exact begun _ _

/-! ### The countersign -/

theorem Dev.Lawful.deliverCopy (hd : d.Lawful) (x : Ctx) (e : EgCtx) {ev : Evidence} (hev : ev.delivers = true) :
    (d.deliverCopy x e ev).Lawful := hd.concat hev

/-- A decision delivers a copy only on evidence that passes the rule. -/
theorem Dev.Lawful.decide (hd : d.Lawful) (x : Ctx) (e : EgCtx) (agree : Bool) : (d.decide x e agree).Lawful := by
  unfold Dev.decide
  dsimp only
  split
  · exact hd.withHw _
  · split
    · next hev => exact (hd.withHw _).deliverCopy x e hev
    · exact hd.withHw _

/-! ### Lane maps and upsets -/

theorem Dev.Lawful.mapSplit (hd : d.Lawful) (n g : Nat) : (d.mapSplit n g).Lawful := hd.map fun x => by split <;> rfl

theorem Dev.Lawful.upset (hd : d.Lawful) (u : Upset) : (d.upset u).Lawful := by
  unfold Dev.upset
  split
  · split
    · exact hd
    · exact hd.mapSplit _ _
  · exact hd.withHw _

theorem Dev.Lawful.struck (hd : d.Lawful) (ups : List Upset) : (d.struck ups).Lawful :=
  Dev.Lawful.withHw (List.foldlRecOn (motive := Dev.Lawful) ups Dev.upset hd fun _ he u _ => he.upset u) _

/-- The end of an import acts on the hardware alone. -/
theorem Dev.importDone_tx (d : Dev) : d.importDone.tx = d.tx := by
  unfold Dev.importDone
  dsimp only
  split
  · rfl
  · split
    · rfl
    · split
      · rfl
      · split_ifs <;> rfl

end

/-! ### Outcomes of commands -/

/-- Whatever state an outcome goes on to keeps the delivery rule. -/
def EndsLawful (o : Host.Outcome State Fault Refusal) : Prop := ∀ t, o = .next t → t.Lawful

theorem endsLawful_setDev {o : Host.Outcome State Fault Refusal} {s : State} {d : Dev} (ho : o = .next (s.setDev d))
    (hd : d.Lawful) : EndsLawful o := by
  subst ho
  rintro t ⟨⟩
  exact hd

theorem onDev_endsLawful {f : Dev → Dev} {s : State} (h : (f s.dev).Lawful) : EndsLawful (onDev f s) := endsLawful_setDev rfl h

theorem guarded_endsLawful {ok : Bool} {o : Host.Outcome State Fault Refusal} (ho : EndsLawful o) :
    EndsLawful (guarded ok o) := by
  cases ok
  · rintro t ⟨⟩
  · exact ho

/-! ### The commands that work on the transmit path themselves -/

section
variable {s : State}

theorem execGmodeWrite_endsLawful (n : Slice) (g : Fin 12) (v : Word) (agree : Bool) (hs : s.dev.Lawful) :
    EndsLawful (execGmodeWrite n g v agree s) := by
  refine onDev_endsLawful ?_
  dsimp only
  split
  · exact hs.withHw _
  · exact (hs.withHw _).mapSplit _ _

theorem execTxFrameStart_endsLawful (p : Port) (cond : TxCond) (hs : s.dev.Lawful) :
    EndsLawful (execTxFrameStart p cond s) := by
  refine onDev_endsLawful ?_
  split
  · exact hs
  · split
    · exact hs
    · exact hs.startTx _ cond

theorem execTxFrameEnd_endsLawful (p : Port) (hs : s.dev.Lawful) : EndsLawful (execTxFrameEnd p s) := by
  refine onDev_endsLawful ?_
  split
  · exact hs
  · split
    · exact hs
    · dsimp only
      split
      · exact (hs.withHw _).updFrame _ _
      · exact (hs.withHw _).delFrame _

theorem execSecyFrameEnd_endsLawful (p : Port) (hs : s.dev.Lawful) : EndsLawful (execSecyFrameEnd p s) := by
  refine onDev_endsLawful ?_
  split
  · exact hs
  · exact (hs.withHw _).delFrame _

theorem execSaBind_endsLawful (p : Port) (hs : s.dev.Lawful) : EndsLawful (execSaBind p s) := by
  refine onDev_endsLawful ?_
  split
  · exact hs
  · refine Dev.Lawful.settle ?_
    split
    · exact (hs.withHw _).updFrame _ _
    · exact (hs.withHw _).updFrame _ _

theorem execShadowRelease_endsLawful (a : Fin 8192) (hs : s.dev.Lawful) : EndsLawful (execShadowRelease a s) := by
  refine onDev_endsLawful ?_
  dsimp only
  split
  · exact hs.withHw _
  · exact hs

theorem execCountersign_endsLawful (n : Slice) (c : Nat) (agree : Bool) (hs : s.dev.Lawful) :
    EndsLawful (execCountersign n c agree s) := by
  refine onDev_endsLawful ?_
  split
  · exact hs
  · split
    · exact hs
    · split
      · exact hs
      · split
        · exact (hs.decide _ _ agree).settle
        · split
          · exact hs.withHw _
          · exact hs

end

/-! ### Commands and steps -/

/-- Every command keeps the delivery rule in the transmit path. Nine act on the device as a whole; six check their operands first;
those of the long list tell the transmit path what follows from their effect on the hardware; every other acts on the hardware
alone. -/
theorem exec_endsLawful (c : Instr) {s : State} (hs : s.dev.Lawful) : EndsLawful (exec c s) := by
  cases c with
  | gmodeWrite n g v agree => exact execGmodeWrite_endsLawful n g v agree hs
  | txFrameStart p cond => exact execTxFrameStart_endsLawful p cond hs
  | txFrameEnd p => exact execTxFrameEnd_endsLawful p hs
  | secyFrameEnd p => exact execSecyFrameEnd_endsLawful p hs
  | saBind p => exact execSaBind_endsLawful p hs
  | keyImportDone => exact onDev_endsLawful (hs.of_tx s.dev.importDone_tx)
  | shadowRelease a => exact execShadowRelease_endsLawful a hs
  | countersign n c agree => exact execCountersign_endsLawful n c agree hs
  | powerOn => exact onDev_endsLawful (f := fun d => d.reset 0) (s.dev.reset_lawful 0)
  | faultRecord e => exact guarded_endsLawful (endsLawful_setDev rfl ((hs.struck e.upsets).withHw _).settle)
  | earlyRelease | supplyAlarm | clockMonitorFault => exact guarded_endsLawful (endsLawful_setDev rfl (hs.withHw _).settle)
  | hbmRequest | todInMessage => exact guarded_endsLawful (endsLawful_setDev rfl (hs.withHw _))
  | allocRequest | cellArrival | reseqTimeout | keyErase | zeroize | keyScrub | rngHealthFail | linkDead | helloSend
  | helloRx | editionClose | edForceClose | twinRecordSend | parserAdmit | lastGaspSend | clerkInject | clerkDirect
  | fuseRevoke | fuseRaise | rxFrame | tailStatus | rxWatchdog | signalLoss | linkDown | localFault | remoteFault
  | portEnable | portDisable | collectorWatchdog | tenantFreeze | portFreeze | sliceFreeze | hold | slicePowerCmd
  | sliceTransitionDone | quiesceTimeout | laneTransitionDone | pwrFailN | thermalCritical | minuteMark | tbStep | tbSet
  | gclSwitch | gateEntryAdvance | ppsIn | ppsOut | resetN | glResetArm | glResetGo | i2cZeroize | i2cHold | i2cReset
  | jtagInstruction | clerkNanoWord | blockWord | writeWords | loadImage | registerWrite | sdRefclkLoss =>
    exact endsLawful_setDev rfl (hs.withHw _).settle
  | _ => exact endsLawful_setDev rfl (hs.withHw _)

/-- Settles O54: a frame enters the transmit path by a decision of the countersign or as the device's own, each on evidence that
passes the rule, and no command and no tick changes the evidence of a frame that is there. -/
theorem framesDelivered : Obligations.FramesDelivered := by
  intro s t hs hstep
  unfold step at hstep
  split at hstep
  · cases hstep
    exact ((s.lawful_iff.mp hs).withHw _).settle
  · next c q _ => exact exec_endsLawful c (s := s.withPending q) (s.lawful_iff.mp hs) t hstep

end Sys2Proof.Machine
end

section
/-! The fault collector (R44 to R49): what the decision of a reaction answers, what becomes of a record at the collector, and what
a release and the watch over event sources leave alone. -/

namespace Sys2Proof.Machine

/-! ### The reaction of a record (R45, R46) -/

theorem Hw.policy_of_good (h : Hw) {code : Nat} (hg : h.good ⟨.FC_POLICY, 0, 0, code⟩ = true) :
    h.policy code = (h.val .FC_POLICY code, h) := if_pos hg

/-- The stronger of a policy word's reaction and the fixed floor of its code. -/
def policyBase (w code : Nat) : Nat := max (bits w 6 4) (faultDefaults code).2.2

/-- A record that no command made gets its base reaction, or that of an escalation where it is stronger. -/
theorem Hw.reaction_cases (h : Hw) {f : FaultRec} (hc : f.commanded = none) :
    let w := (h.policy f.code).1
    (h.reaction f).1 = policyBase w f.code ∨
      bit w 15 = true ∧ (h.reaction f).1 = max (policyBase w f.code) (bits w 10 8) := by
  unfold Hw.reaction policyBase
  simp only [hc]
  split
  · next hit => exact .inr ⟨(Bool.and_eq_true_iff.mp hit).2, rfl⟩
  · exact .inl rfl

theorem Hw.reaction_of_no_escalation (h : Hw) {f : FaultRec} (hc : f.commanded = none)
    (hg : h.good ⟨.FC_POLICY, 0, 0, f.code⟩ = true) (he : bit (h.val .FC_POLICY f.code) 15 = false) :
    (h.reaction f).1 = policyBase (h.val .FC_POLICY f.code) f.code := by
  have hcases := h.reaction_cases hc
  simp only [h.policy_of_good hg] at hcases
  rcases hcases with hbase | ⟨hbit, -⟩
  · exact hbase
  · rw [he] at hbit
    exact absurd hbit Bool.false_ne_true

theorem Hw.floor_le_reaction (h : Hw) {f : FaultRec} (hc : f.commanded = none) :
    (faultDefaults f.code).2.2 ≤ (h.reaction f).1 := by
  have hfloor : ∀ w, (faultDefaults f.code).2.2 ≤ policyBase w f.code := fun w => Nat.le_max_right _ _
  rcases h.reaction_cases hc with hbase | ⟨-, hesc⟩
  · rw [hbase]
    exact hfloor _
  · rw [hesc]
    exact (hfloor _).trans (Nat.le_max_left _ _)

/-! ### What a record names -/

theorem FaultRec.slice_of_slice_origin {f : FaultRec} (ho : f.origin < 8) : f.slice = some f.origin := if_pos ho

theorem FaultRec.slice_of_port {f : FaultRec} (ho : 8 ≤ f.origin) (hp : f.port < 768) : f.slice = some (portSl f.port) := by
  unfold FaultRec.slice
  rw [if_neg (by omega), if_pos hp]

theorem FaultRec.slice_of_no_port {f : FaultRec} (ho : 8 ≤ f.origin) (hp : 768 ≤ f.port) : f.slice = none := by
  unfold FaultRec.slice
  rw [if_neg (by omega), if_neg (by omega)]

/-- A reaction is replaced only by a stronger one. -/
theorem FaultRec.le_able (f : FaultRec) (r : Nat) : r ≤ f.able r := by
  unfold FaultRec.able
  dsimp only
  split_ifs <;> omega

theorem FaultRec.tenant_of_able {f : FaultRec} {r : Nat} (h : f.able r = 1) : f.tenant.isSome = true := by
  unfold FaultRec.able at h
  dsimp only at h
  cases ht : f.tenant with
  | some t => rfl
  | none =>
    rw [ht] at h
    simp only [Option.isNone_none, and_true] at h
    split_ifs at h <;> omega

theorem FaultRec.port_of_able {f : FaultRec} {r : Nat} (h : f.able r = 2) : f.port < 768 := by
  unfold FaultRec.able at h
  dsimp only at h
  split_ifs at h <;> omega

theorem FaultRec.slice_of_able {f : FaultRec} {r : Nat} (h : f.able r = 3) : f.slice.isSome = true := by
  unfold FaultRec.able at h
  cases hn : f.slice with
  | some n => rfl
  | none =>
    dsimp only at h
    rw [hn] at h
    simp only [Option.isNone_none, and_true] at h
    split_ifs at h <;> omega

/-! ### What the watch over event sources and a release leave alone (R424, R49) -/

@[simp] theorem Hw.maskRewrite_val (h : Hw) (w : Nat) (m : RegName) (ix sl bank : Nat) :
    (h.maskRewrite w).val m ix sl bank = h.val m ix sl bank := rfl

@[simp] theorem Hw.checkCopies_val (h : Hw) (m : RegName) (ix sl bank : Nat) :
    h.checkCopies.val m ix sl bank = h.val m ix sl bank := by
  refine Hw.over_keeps (fun k => k.val m ix sl bank = h.val m ix sl bank) _ _ (fun k n hk => ?_) h rfl
  rw [Hw.raise_val]
  exact hk

/-- The watch writes stranded bits alone. -/
theorem Hw.watch_val (h : Hw) {m : RegName} (hm : RegName.EV_STRANDED ≠ m) (ix sl bank : Nat) :
    h.watch.val m ix sl bank = h.val m ix sl bank := by
  refine Hw.over_keeps (fun k => k.val m ix sl bank = h.val m ix sl bank) _ _ (fun k w hk => ?_) _
    (h.checkCopies_val m ix sl bank)
  refine Hw.over_keeps (fun k => k.val m ix sl bank = h.val m ix sl bank) _ _ (fun j _ hj => ?_) k hk
  rw [Hw.val_setVal_other _ _ _ _ _ _ _ _ _ _ hm]
  exact hj

/-- A release of a tenant or port leaves every register but its frozen set and the stranded bits. -/
theorem Hw.thaw_val (h : Hw) {n m : RegName} (hn : n ≠ m) (hm : RegName.EV_STRANDED ≠ m) (i ix sl bank : Nat) :
    (h.thaw n i).val m ix sl bank = h.val m ix sl bank := by
  unfold Hw.thaw
  rw [Hw.watch_val _ hm, Hw.maskRewrite_val, Hw.val_setVal_other _ _ _ _ _ _ _ _ _ _ hn]

theorem Hw.thaw_rd (h : Hw) {n : RegName} {g : Fld} (hn : n ≠ g.reg) (hm : RegName.EV_STRANDED ≠ g.reg) (i : Nat) :
    (h.thaw n i).rd g = h.rd g := by
  unfold Hw.rd
  rw [Hw.thaw_val h hn hm]

/-- It leaves DEVICE_HOLD. -/
theorem Hw.thaw_held (h : Hw) {n : RegName} (hn : n ≠ .FC_STATUS) (i : Nat) : (h.thaw n i).held = h.held := by
  unfold Hw.held Hw.on
  rw [Hw.thaw_rd h hn (by decide)]

theorem exec_tenantRelease_next (t : BitVec 16) (s : State) :
    exec (.tenantRelease t) s = .next (s.setHw (s.hw.thaw .FC_TFROZEN t.toNat)) := by
  rw [exec_tenantRelease]
  exact onHw_next _ s

theorem exec_portRelease_next (p : Port) (s : State) :
    exec (.portRelease p) s = .next (s.setHw (s.hw.thaw .FC_PFROZEN p)) := by
  rw [exec_portRelease]
  exact onHw_next _ s

/-- Settles O51: the decision of a reaction, what a record names, and the frame of a release, each by its lemma. -/
theorem reactionFloor : Obligations.ReactionFloor := by
  refine ⟨fun h f hc hg he => h.reaction_of_no_escalation hc hg he, fun h f hc => h.floor_le_reaction hc, fun f r => ?_,
    fun f => ⟨FaultRec.slice_of_slice_origin, FaultRec.slice_of_port, FaultRec.slice_of_no_port⟩, fun t p s => ⟨?_, ?_⟩⟩
  · exact ⟨f.le_able r, FaultRec.tenant_of_able, FaultRec.port_of_able, FaultRec.slice_of_able⟩
  · exact ⟨_, exec_tenantRelease_next t s, fun i => Hw.thaw_val _ (by decide) (by decide) _ _ _ _,
      Hw.thaw_held _ (by decide) _, Hw.thaw_rd _ (by decide) (by decide) _⟩
  · exact ⟨_, exec_portRelease_next p s, fun i => Hw.thaw_val _ (by decide) (by decide) _ _ _ _,
      Hw.thaw_held _ (by decide) _, Hw.thaw_rd _ (by decide) (by decide) _⟩

/-! ### A record at the collector (R45, R48) -/

theorem Hw.collectOldest_of_none (h : Hw) {origin : Nat} (hf : h.fc.queue.find? (fun f => f.origin == origin) = none) :
    h.collectOldest origin = h := by
  unfold Hw.collectOldest
  simp only [hf]

theorem Hw.collectOldest_of_some (h : Hw) {origin : Nat} {f : FaultRec}
    (hf : h.fc.queue.find? (fun f => f.origin == origin) = some f) :
    h.collectOldest origin =
      ({ h with fc := { h.fc with queue := delFirst (fun f => f.origin == origin) h.fc.queue } } : Hw).collect f := by
  unfold Hw.collectOldest
  simp only [hf]

/-- Without upsets nothing is struck. -/
@[simp] theorem Dev.struck_nil (d : Dev) : d.struck [] = d := rfl

/-- The oldest record of the origin is collected once the upsets have struck. -/
theorem exec_faultRecord_next (origin : Fin 9) {ups : List Upset} (hu : ups.all upsetOk = true) (s : State) :
    exec (.faultRecord ⟨origin, ups⟩) s =
      .next ((s.setDev (s.dev.struck ups)).setHw ((s.dev.struck ups).hw.collectOldest origin)).settle := by
  rw [exec_faultRecord]
  unfold execFaultRecord
  rw [hu, guarded_true]
  exact onTx_settle _ _

theorem exec_faultRecord_quiet (origin : Fin 9) (s : State) :
    exec (.faultRecord ⟨origin, []⟩) s = .next (s.setHw (s.hw.collectOldest origin)).settle := by
  rw [exec_faultRecord_next origin rfl, Dev.struck_nil]
  rfl

/-- Settles O49: a record is raised with a place exactly when its origin's queue holds fewer than 16, and the three ways through
the collector differ in the log and its counts alone. -/
theorem logSpace : Obligations.LogSpace := by
  refine ⟨fun h code origin pipe port t => ?_, fun origin f s hf => ⟨fun hq => ?_, fun hq hl => ?_, fun hq hl => ?_⟩⟩
  · exact ⟨_, rfl, rfl, rfl, rfl, fun hfull => decide_eq_false (Nat.not_lt.mpr hfull), fun hroom => decide_eq_true hroom⟩
  all_goals
    rw [exec_faultRecord_quiet, Hw.collectOldest_of_some _ hf]
    unfold Hw.collect Hw.unlogged
  · simp only [hq, Bool.not_false, if_true]
  · simp only [hq, hl, Bool.not_true, Bool.false_eq_true, if_false, if_true]
  · simp only [hq, Nat.not_lt.mpr hl, Bool.not_true, Bool.false_eq_true, if_false]

/-! ### Releases, injection and the log (R48, R49, R511) -/

/-- A slice is released only in RETENTION. -/
theorem Hw.thawSlice_of_retention (h : Hw) {n : Nat} (hp : h.slicePower n = 1) :
    h.thawSlice n =
      ((h.wr .FC_STATUS_slice_frozen (setBits (h.rd .FC_STATUS_slice_frozen) n n 0)).maskRewrite sliceWord).watch := if_pos hp

theorem Hw.thawSlice_of_power (h : Hw) {n : Nat} (hp : h.slicePower n ≠ 1) :
    h.thawSlice n = h.wr .FC_STATUS_cmd_refused 1 := if_neg hp

/-- An injection that the collector accepts: enabled, of a listed code, with an origin and a pipeline in range. -/
def Hw.injectOk (h : Hw) (v : Nat) : Prop :=
  bit v 63 = true ∧ h.on .FC_CTRL_inject_en = true ∧ listedFaults.contains (bits v 49 38) = true ∧ bits v 57 54 ≤ 8 ∧
    (bits v 53 50 ≤ 8 ∨ bits v 53 50 = 15)

/-- The guard of an injection, as the model writes it, is the negation of the five conditions. -/
theorem Hw.injectOk_iff (h : Hw) (v : Nat) :
    (!bit v 63 || !h.on .FC_CTRL_inject_en || !listedFaults.contains (bits v 49 38) || decide (8 < bits v 57 54)
      || (decide (8 < bits v 53 50) && bits v 53 50 != 15)) = false ↔ h.injectOk v := by
  simp only [Hw.injectOk, Bool.or_eq_false_iff, Bool.not_eq_false', decide_eq_false_iff_not, Nat.not_lt, Bool.and_eq_false_iff,
    bne_eq_false_iff_eq, and_assoc]

theorem Hw.inject_of_ok (h : Hw) {v : Nat} (hok : h.injectOk v) :
    h.inject v = h.raise (bits v 49 38) (bits v 57 54) (bits v 53 50) (bits v 37 28)
      (if bit v 58 then some (bits v 27 12) else none) true := by
  unfold Hw.inject
  dsimp only
  rw [(h.injectOk_iff v).mpr hok]
  rfl

theorem Hw.inject_of_not_ok (h : Hw) {v : Nat} (hok : ¬h.injectOk v) : h.inject v = h := by
  have hguard := Bool.eq_true_of_not_eq_false (mt (h.injectOk_iff v).mp hok)
  unfold Hw.inject
  dsimp only
  rw [hguard]
  rfl

theorem Hw.popLog_of_empty (h : Hw) (hl : h.fc.log = []) : h.popLog = h.setVal .FC_LOG_HEAD 0 := by
  unfold Hw.popLog
  rw [hl]

theorem Hw.popLog_of_cons (h : Hw) {l : LogRec} {r : List LogRec} (hl : h.fc.log = l :: r) :
    h.popLog = ((({ h with fc := { h.fc with log := r } } : Hw).setVal .FC_LOG_HEAD l.word).setVal .FC_LOG_TIME
      l.fault.time).watch := by
  unfold Hw.popLog
  rw [hl]

theorem exec_sliceRelease_next (n : Slice) (s : State) : exec (.sliceRelease n) s = .next (s.setHw (s.hw.thawSlice n)) := by
  rw [exec_sliceRelease]
  exact onHw_next _ s

theorem exec_fcInject_next (v : Word) (s : State) : exec (.fcInject v) s = .next (s.setHw (s.hw.inject v.toNat)) := by
  rw [exec_fcInject]
  exact onHw_next _ s

theorem exec_logPop_next (s : State) : exec .logPop s = .next (s.setHw s.hw.popLog) := by
  rw [exec_logPop]
  exact onHw_next _ s

/-- Settles O42: each command by the equation of its meaning and the lemma for its case. -/
theorem faultCollector : Obligations.FaultCollector := by
  refine ⟨fun origin s => ⟨fun ups hu => ?_, fun hf => ?_, fun f hf => ?_⟩, fun s => ⟨?_, ?_, ?_⟩, fun t s => ⟨?_, ?_⟩,
    fun p s => ⟨?_, ?_⟩, fun n s => ⟨?_, fun hp => ?_, fun hp => ?_⟩, fun v s => ⟨fun hok => ?_, fun hok => ?_⟩,
    fun s => ⟨fun hl => ?_, fun l r hl => ?_⟩⟩
  · rw [exec_faultRecord_next origin hu, exec_faultRecord_quiet]
    rfl
  · rw [exec_faultRecord_quiet, Hw.collectOldest_of_none _ hf]
    rfl
  · rw [exec_faultRecord_quiet, Hw.collectOldest_of_some _ hf]
  · rw [exec_escWindowEnd]
    exact onHw_next _ s
  · rw [exec_collectorWatchdog]
    exact onTx_settle _ s
  · rw [exec_hold]
    exact onTx_settle _ s
  · rw [exec_tenantFreeze]
    exact onTx_settle _ s
  · exact exec_tenantRelease_next t s
  · rw [exec_portFreeze]
    exact onTx_settle _ s
  · exact exec_portRelease_next p s
  · rw [exec_sliceFreeze]
    exact onTx_settle _ s
  · rw [exec_sliceRelease_next, Hw.thawSlice_of_retention _ hp]
  · rw [exec_sliceRelease_next, Hw.thawSlice_of_power _ hp]
  · rw [exec_fcInject_next, Hw.inject_of_ok _ hok]
  · rw [exec_fcInject_next, Hw.inject_of_not_ok _ hok]
    rfl
  · rw [exec_logPop_next, Hw.popLog_of_empty _ hl]
  · rw [exec_logPop_next, Hw.popLog_of_cons _ hl]

end Sys2Proof.Machine
end

section
/-! The test strip and the self-tests (R50 to R54): which branch of each act is taken in which phase, and what a test without
reference frames leaves. -/

namespace Sys2Proof.Machine

/-! ### The strip state of a slice -/

/-- The strip state of a slice that has one reads back as it is changed. -/
theorem Hw.strip_setStrip (h : Hw) {n : Nat} (hn : n < h.fc.strip.length) (f : StripSt → StripSt) :
    nth (h.setStrip n f).fc.strip n StripSt.reset = f (nth h.fc.strip n StripSt.reset) := by
  unfold Hw.setStrip nth setNth
  simp only [List.getD_eq_getElem?_getD, List.getElem?_set_self hn, Option.getD_some]

@[simp] theorem Hw.length_setStrip (h : Hw) (n : Nat) (f : StripSt → StripSt) :
    (h.setStrip n f).fc.strip.length = h.fc.strip.length := List.length_set

/-- A slice in which a self-test runs has a strip state. -/
theorem Hw.lt_length_of_selftest (h : Hw) {n t : Nat} (ht : (nth h.fc.strip n StripSt.reset).selftest = some t) :
    n < h.fc.strip.length := by
  by_contra hn
  unfold nth at ht
  rw [List.getD_eq_default _ _ (Nat.le_of_not_lt hn)] at ht
  cases ht

/-- A record raised leaves every strip state. -/
@[simp] theorem Hw.strip_raise (h : Hw) (code origin pipe : Nat) : (h.raise code origin pipe).fc.strip = h.fc.strip := rfl

/-- A change of the strip's phase leaves the failing item that a self-test has noted. -/
theorem Hw.failed_setPhase (h : Hw) {n : Nat} (hn : n < h.fc.strip.length) (ph : StripPhase) :
    (nth (h.setStrip n (fun x => { x with phase := ph })).fc.strip n StripSt.reset).failed =
      (nth h.fc.strip n StripSt.reset).failed := by
  rw [h.strip_setStrip hn]

theorem Hw.failed_coverageLost (h : Hw) {n : Nat} (hn : n < h.fc.strip.length) :
    (nth (h.coverageLost n).fc.strip n StripSt.reset).failed = (nth h.fc.strip n StripSt.reset).failed := by
  rw [← h.failed_setPhase hn .none]
  unfold Hw.coverageLost
  dsimp only
  split <;> rfl

/-- The retirement of a pipeline leaves the failing item that a self-test has noted. -/
theorem Hw.failed_retirePipe (h : Hw) {n : Nat} (hn : n < h.fc.strip.length) (p : Nat) :
    (nth (h.retirePipe n p).fc.strip n StripSt.reset).failed = (nth h.fc.strip n StripSt.reset).failed := by
  have raised : ∀ (k : Hw) (c : Prop) [Decidable c], (if c then k.raise 0x812 n else k).fc.strip = k.fc.strip := by
    intro k c _
    split <;> rfl
  unfold Hw.retirePipe
  dsimp only
  split
  · rfl
  · rw [raised]
    split
    · rw [Hw.failed_setPhase] <;> simp only [Hw.wr_fc, Hw.strip_raise, hn]
    · rw [Hw.failed_coverageLost] <;> simp only [Hw.wr_fc, Hw.strip_raise, hn]

/-! ### Commands that change the hardware alone -/

theorem onHw_eq {f : Hw → Hw} {s : State} {h : Hw} (hf : f s.hw = h) : onHw f s = .next (s.setHw h) := by
  rw [← hf]
  exact onHw_next f s

theorem onHw_stands {f : Hw → Hw} {s : State} (hf : f s.hw = s.hw) : onHw f s = .next s := onHw_eq hf

/-! ### Rotation and stall (R50, R52) -/

/-- A drained pipeline becomes the strip under test, under the edition bit current then, and the rotation is counted. -/
theorem Hw.takeStrip_of_empty (h : Hw) {n q : Nat} (hp : h.stripPhase n = .draining q) (he : h.pipeEmpty n q = true) :
    h.takeStrip n = ((h.wr .FC_STRIP_strip q n).count .FC_STRIP_rotations n).setStrip n
      (fun x => { x with phase := .testing, ed := h.current }) := by
  have hcur : ((h.wr .FC_STRIP_strip q n).count .FC_STRIP_rotations n).current = h.current := by
    unfold Hw.current
    rw [Hw.rd_count_other _ _ _ _ _ _ _ _ _ (by decide), Hw.rd_wr_other _ _ _ _ _ _ _ _ _ _ (by decide)]
  unfold Hw.takeStrip Hw.beginTest
  simp only [hp, he, if_true, hcur]

section
variable {n : Slice} {s : State}

theorem exec_stripRotate_of_inactive (hi : s.hw.inactive n = true) : exec (.stripRotate n) s = .next s := by
  rw [exec_stripRotate]
  exact onHw_stands (if_pos hi)

theorem exec_stripRotate_of_no_strip (hp : s.hw.stripPhase n = .none) : exec (.stripRotate n) s = .next s := by
  rw [exec_stripRotate]
  refine onHw_stands ?_
  simp only [hp, ite_self]

theorem exec_stripRotate_of_rest (hi : s.hw.inactive n = false) (hp : s.hw.stripPhase n = .rest) :
    exec (.stripRotate n) s = .next (s.setHw (s.hw.rotate n (s.hw.rd .FC_STRIP_strip n))) := by
  rw [exec_stripRotate]
  refine onHw_eq ?_
  simp only [hi, hp, Bool.false_eq_true, if_false]

theorem exec_stripRotate_of_draining {q : Nat} (hi : s.hw.inactive n = false) (hp : s.hw.stripPhase n = .draining q) :
    exec (.stripRotate n) s = .next (s.setHw (s.hw.takeStrip n)) := by
  rw [exec_stripRotate]
  refine onHw_eq ?_
  simp only [hi, hp, Bool.false_eq_true, if_false]

theorem exec_stripStall_of_draining {q : Nat} (hp : s.hw.stripPhase n = .draining q) (he : s.hw.pipeEmpty n q = false) :
    exec (.stripStall n) s = .next (s.setHw
      ((s.hw.setStrip n (fun x => { x with phase := .waiting (s.hw.prevPipe n q) })).raise 0x813 n q)) := by
  rw [exec_stripStall]
  refine onHw_eq ?_
  simp only [hp, he, Bool.false_eq_true, if_false]

theorem exec_stripStall_of_rest (hp : s.hw.stripPhase n = .rest) : exec (.stripStall n) s = .next s := by
  rw [exec_stripStall]
  refine onHw_stands ?_
  simp only [hp]

end

/-! ### The strip's test (R51) -/

/-- Without reference frames a test finds what its self-test and vectors find, and leaves the hardware. -/
theorem Hw.testPipe_of_no_refs (h : Hw) {n ed : Nat} (hr : h.rd .SE_REFBASE_ref_count 0 n ed = 0) (p : Nat) (fault : Option Nat) :
    h.testPipe n p ed fault = (fault, h) := by
  unfold Hw.testPipe Hw.refRun
  simp only [hr, if_true]
  cases fault <;> rfl

/-- A pipeline that passes rests as the strip. -/
theorem Hw.endTest_of_pass (h : Hw) {n : Nat}
    (hr : h.rd .SE_REFBASE_ref_count 0 n (nth h.fc.strip n StripSt.reset).ed = 0) :
    h.endTest n none = (h.setStrip n (fun x => x.tested (h.rd .FC_STRIP_strip n) none)).setStrip n
      (fun x => { x with phase := .rest }) := by
  unfold Hw.endTest
  simp only [h.testPipe_of_no_refs hr]

/-- One that fails is retired. -/
theorem Hw.endTest_of_fail (h : Hw) {n : Nat}
    (hr : h.rd .SE_REFBASE_ref_count 0 n (nth h.fc.strip n StripSt.reset).ed = 0) (i : Nat) :
    h.endTest n (some i) = (h.setStrip n (fun x => x.tested (h.rd .FC_STRIP_strip n) (some i))).retirePipe n
      (h.rd .FC_STRIP_strip n) := by
  unfold Hw.endTest
  simp only [h.testPipe_of_no_refs hr]

theorem exec_stripTestDone_of_not_testing {n : Slice} {s : State} (hp : s.hw.stripPhase n ≠ .testing)
    (fault : Option (BitVec 16)) : exec (.stripTestDone n fault) s = .next s := by
  rw [exec_stripTestDone]
  exact onHw_stands (if_neg hp)

theorem exec_stripTestDone_of_testing {n : Slice} {s : State} (hp : s.hw.stripPhase n = .testing)
    (fault : Option (BitVec 16)) :
    exec (.stripTestDone n fault) s = .next (s.setHw (s.hw.endTest n (fault.map BitVec.toNat))) := by
  rw [exec_stripTestDone]
  exact onHw_eq (if_pos hp)

/-! ### Self-tests (R54) -/

/-- The results of the last self-test cleared. -/
def Hw.selftestCleared (h : Hw) : Hw := (h.wr .FC_SELFTEST_STATUS_pass 0).wr .FC_SELFTEST_STATUS_first_fail 0

/-- A self-test that runs in a slice, with the pipelines that it has to test. -/
def Hw.selftestRuns (h : Hw) (n t : Nat) : Hw :=
  h.setStrip n (fun x => { x with
    selftest := some t, failed := none
    left := if t = 1 then (List.range 9).filter (fun p => !bit (h.rd .FC_STRIP_retired n) p) else [] })

/-- A write of FC_SELFTEST that is one, of a listed target while no self-test runs. -/
theorem Hw.selftest_eq (h : Hw) {v : Nat} (hv : bit v 63 = true) (hs : h.rd .FC_SELFTEST_STATUS_state ≠ 1)
    (ht : bits v 59 56 ≤ 5) :
    let n := bits v 62 60
    let t := bits v 59 56
    let k := h.selftestCleared
    h.selftest v =
      if k.canTest n t = false then k.wr .FC_SELFTEST_STATUS_state 3
      else (if t < 2 ∧ 2 ≤ k.slicePower n then (k.selftestRuns n t).beginTest n else k.selftestRuns n t).wr
        .FC_SELFTEST_STATUS_state 1 := by
  unfold Hw.selftest Hw.selftestCleared Hw.selftestRuns
  simp only [hv, beq_eq_false_iff_ne.mpr hs, Nat.not_lt.mpr ht, Bool.not_true, Bool.or_false, decide_false, Bool.false_eq_true,
    if_false, Bool.not_eq_true', decide_eq_true_eq]

theorem exec_selftest_next (v : Word) (s : State) : exec (.selftest v) s = .next (s.setHw (s.hw.selftest v.toNat)) := by
  rw [exec_selftest]
  exact onHw_next _ s

theorem exec_selftestDone_of_none {n : Slice} {s : State} (hn : (nth s.hw.fc.strip n StripSt.reset).selftest = none)
    (first : Option (BitVec 16)) : exec (.selftestDone n first) s = .next s := by
  rw [exec_selftestDone]
  refine onHw_stands ?_
  simp only [hn]

/-- The test of a target other than the pipelines ends with its result. -/
theorem exec_selftestDone_of_other {n : Slice} {s : State} {t : Nat}
    (ht : (nth s.hw.fc.strip n StripSt.reset).selftest = some t) (h2 : 1 < t) (first : Option (BitVec 16)) :
    exec (.selftestDone n first) s = .next (s.setHw (s.hw.selftestResult n (first.map BitVec.toNat))) := by
  have hlt : ¬t < 2 := by omega
  have h1 : t ≠ 1 := by omega
  have h0 : t ≠ 0 := by omega
  rw [exec_selftestDone]
  refine onHw_eq ?_
  simp only [ht, hlt, h1, h0, false_and, if_false]

/-- The test of the strip in a powered slice ends with the strip's test, and with the item that it noted. -/
theorem exec_selftestDone_of_strip {n : Slice} {s : State}
    (ht : (nth s.hw.fc.strip n StripSt.reset).selftest = some 0) (hpow : 2 ≤ s.hw.slicePower n)
    (hp : s.hw.stripPhase n = .testing) (first : Option (BitVec 16)) :
    exec (.selftestDone n first) s =
      let k := s.hw.endTest n (first.map BitVec.toNat)
      .next (s.setHw (k.selftestResult n (nth k.fc.strip n StripSt.reset).failed)) := by
  rw [exec_selftestDone]
  refine onHw_eq ?_
  simp only [ht, hpow, hp, Nat.zero_lt_two, and_self, if_true, Nat.zero_ne_one, false_and, if_false]

/-- The item that the test of the strip notes is what it found. -/
theorem StripSt.failed_tested {x : StripSt} (ht : x.selftest = some 0) (hf : x.failed = none) (p : Nat) (fault : Option Nat) :
    (x.tested p fault).failed = fault := by
  unfold StripSt.tested
  simp only [ht, hf]
  rfl

/-- Settles O43: each act by the lemma for its phase; the strip's test in a self-test keeps the item that it noted, whether the
strip rests or its pipeline is retired. -/
theorem testStrip : Obligations.TestStrip := by
  refine ⟨fun n s => ⟨?_, exec_stripRotate_of_rest, fun q hi hp he => ?_, fun q => exec_stripStall_of_draining, fun hp => ?_,
    fun hp hr => ?_⟩, fun v s => ?_, fun n first s hn => exec_selftestDone_of_none hn first,
    fun n t s ht => ⟨fun h2 => ?_, ?_⟩⟩
  · rintro (hi | hp)
    · exact exec_stripRotate_of_inactive hi
    · exact exec_stripRotate_of_no_strip hp
  · rw [exec_stripRotate_of_draining hi hp, Hw.takeStrip_of_empty _ hp he]
  · exact ⟨exec_stripStall_of_rest hp, exec_stripTestDone_of_not_testing (by rw [hp]; exact StripPhase.noConfusion)⟩
  · refine ⟨?_, fun i => ?_⟩
    · rw [exec_stripTestDone_of_testing hp, Option.map_none, Hw.endTest_of_pass _ hr]
    · rw [exec_stripTestDone_of_testing hp, Option.map_some, Hw.endTest_of_fail _ hr]
  · intro n t h hv hs ht
    rw [exec_selftest_next, Hw.selftest_eq _ hv hs ht]
    refine ⟨fun hc => ?_, fun hc => ?_⟩
    · exact congrArg (fun k => Host.Outcome.next (s.setHw k)) (if_pos hc)
    · exact congrArg (fun k => Host.Outcome.next (s.setHw k)) (if_neg (by rw [Bool.not_eq_false]; exact hc))
  · rw [exec_selftestDone_of_other ht h2]
    refine ⟨rfl, fun i => ?_⟩
    rw [exec_selftestDone_of_other ht h2]
    rfl
  · rintro rfl hpow hp hf hr
    have hlen := s.hw.lt_length_of_selftest ht
    have noted (fault : Option Nat) : (nth (s.hw.setStrip n (fun x => x.tested (s.hw.rd .FC_STRIP_strip n) fault)).fc.strip n
        StripSt.reset).failed = fault := by
      rw [Hw.strip_setStrip _ hlen, StripSt.failed_tested ht hf]
    refine ⟨?_, fun i => ?_⟩
    · rw [exec_selftestDone_of_strip ht hpow hp, Option.map_none, Hw.endTest_of_pass _ hr]
      dsimp only
      rw [Hw.failed_setPhase _ (by rwa [Hw.length_setStrip]), noted]
      rfl
    · rw [exec_selftestDone_of_strip ht hpow hp, Option.map_some, Hw.endTest_of_fail _ hr]
      dsimp only
      rw [Hw.failed_retirePipe _ (by rwa [Hw.length_setStrip]), noted]
      rfl

end Sys2Proof.Machine
end

section
/-! The countersign's table commands (R38, R39, R57): each acts on the indexed entry, and only while the shadow is in reach. -/

namespace Sys2Proof.Machine

section
variable (n : Slice) (s : State)

theorem exec_coRead_next : exec (.coRead n) s = .next (s.setHw (s.hw.coRead n)) := by
  rw [exec_coRead]
  exact onHw_next _ s

theorem exec_coWrite_next : exec (.coWrite n) s = .next (s.setHw (s.hw.coWrite n)) := by
  rw [exec_coWrite]
  exact onHw_next _ s

theorem exec_coInvalidate_next : exec (.coInvalidate n) s = .next (s.setHw (s.hw.coInvalidate n)) := by
  rw [exec_coInvalidate]
  exact onHw_next _ s

end

section
variable {h : Hw} {n : Nat}

/-- The staged entry is written sealed, its shadow with it. -/
theorem Hw.coWrite_of_reach (hr : h.coReach n = true) :
    h.coWrite n = h.coPut n (h.coIndex n) (h.val .CS_CO_W0 0 n)
      (coSealed (h.coIndex n) (h.val .CS_CO_W0 0 n) (h.val .CS_CO_W1 0 n)) := by
  unfold Hw.coWrite
  rw [hr]
  rfl

theorem Hw.coWrite_of_no_reach (hr : h.coReach n = false) : h.coWrite n = h.raise 0x804 n := by
  unfold Hw.coWrite
  rw [hr]
  rfl

/-- The indexed entry is written without its valid bit, its shadow with it. -/
theorem Hw.coInvalidate_of_reach (hr : h.coReach n = true) :
    h.coInvalidate n = h.coPut n (h.coIndex n) (h.coEntry n (h.coIndex n)).1
      (coSealed (h.coIndex n) (h.coEntry n (h.coIndex n)).1 (setBits (h.coEntry n (h.coIndex n)).2 63 63 0)) := by
  unfold Hw.coInvalidate
  rw [hr]
  rfl

theorem Hw.coInvalidate_of_no_reach (hr : h.coReach n = false) : h.coInvalidate n = h.raise 0x804 n := by
  unfold Hw.coInvalidate
  rw [hr]
  rfl

end

section
variable {n : Slice} {s : State}

/-- With the shadow in reach the scrubber walks every entry. -/
theorem exec_coScrub_of_reach (hr : s.hw.coReach n = true) :
    exec (.coScrub n) s = .next (s.setHw (s.hw.each 262144 (fun h i => h.coScrubOne n i))) := by
  rw [exec_coScrub]
  exact onHw_eq (if_pos hr)

theorem exec_coScrub_of_no_reach (hr : s.hw.coReach n = false) : exec (.coScrub n) s = .next (s.setHw (s.hw.raise 0x80A n)) := by
  rw [exec_coScrub]
  exact onHw_eq (if_neg (by rw [hr]; exact Bool.false_ne_true))

variable {x : Fin 64} {w : Fin 1024}

theorem exec_csPermitRead_of_agree (ha : (s.hw.permitWord n x w).1 = (s.hw.permitWord n x w).2) :
    exec (.csPermitRead n x w) s = .next s := by
  rw [exec_csPermitRead]
  exact onHw_stands (if_pos ha)

theorem exec_csPermitRead_of_differ (ha : (s.hw.permitWord n x w).1 ≠ (s.hw.permitWord n x w).2) :
    exec (.csPermitRead n x w) s = .next (s.setHw (s.hw.raise 0x809 n)) := by
  rw [exec_csPermitRead]
  exact onHw_eq (if_neg ha)

end

/-- Settles O44: each command by its lemma, with the shadow in reach and out of it. -/
theorem countersignTables : Obligations.CountersignTables := by
  refine ⟨fun n s => ⟨?_, fun hr => ⟨?_, ?_, ?_⟩, fun hr => ⟨?_, ?_, ?_⟩⟩,
    fun n x w s => ⟨exec_csPermitRead_of_agree, exec_csPermitRead_of_differ⟩⟩
  · exact exec_coRead_next n s
  · rw [exec_coWrite_next, Hw.coWrite_of_reach hr]
    rfl
  · rw [exec_coInvalidate_next, Hw.coInvalidate_of_reach hr]
    rfl
  · exact exec_coScrub_of_reach hr
  · rw [exec_coWrite_next, Hw.coWrite_of_no_reach hr]
  · rw [exec_coInvalidate_next, Hw.coInvalidate_of_no_reach hr]
  · exact exec_coScrub_of_no_reach hr

end Sys2Proof.Machine
end

section
/-! What the updates of a port leave for the other reads of it: one lemma for each update of Machine/Ports.lean, and how a command's
ending is read off its effect. -/

namespace Sys2Proof.Machine

/-! ### Endings -/

theorem onTx_eq {f : Hw → Hw} {s : State} {h : Hw} (hf : f s.hw = h) : onTx f s = .next (s.setHw h).settle := by
  rw [← hf]
  exact onTx_settle f s

theorem onDev_eq {f : Dev → Dev} {s : State} {d : Dev} (hf : f s.dev = d) : onDev f s = .next (s.setDev d) := by
  rw [← hf]
  rfl

section
variable (h : Hw) (p : Nat)

/-! ### Registers of a port -/

@[simp] theorem Hw.ptWr_get_port (f : Fld) (v q : Nat) : (h.ptWr f p v).port q = h.port q := (rfl)
@[simp] theorem Hw.ptEvent_get_port (e q : Nat) : (h.ptEvent p e).port q = h.port q := (rfl)

@[simp] theorem Hw.rd_ptWr_other (f g : Fld) (v ix sl bank : Nat) (hn : f.reg ≠ g.reg) :
    (h.ptWr f p v).rd g ix sl bank = h.rd g ix sl bank := Hw.rd_wr_other h f g v _ _ 0 ix sl bank hn

@[simp] theorem Hw.rd_ptWr_beside (f g : Fld) (v ix sl bank : Nat) (hd : f.hi < g.lo ∨ g.hi < f.lo) (hf : f.lo ≤ f.hi + 1)
    (hg : g.hi < 64) : (h.ptWr f p v).rd g ix sl bank = h.rd g ix sl bank := Hw.rd_wr_beside h f g v _ _ 0 ix sl bank hd hf hg

@[simp] theorem Hw.rd_ptEvent (g : Fld) (e ix sl bank : Nat) (hn : RegName.PT_EVENT ≠ g.reg) :
    (h.ptEvent p e).rd g ix sl bank = h.rd g ix sl bank := Hw.rd_setBit_other h .PT_EVENT_events g e _ _ ix sl bank hn

@[simp] theorem Hw.rd_ptCount (g : Fld) (c n ix sl bank : Nat) (hn : RegName.PT_CNT ≠ g.reg) :
    (h.ptCount p c n).rd g ix sl bank = h.rd g ix sl bank := Hw.rd_count_other h .PT_CNT_count g _ _ n ix sl bank hn

@[simp] theorem Hw.val_ptCount (m : RegName) (c n ix sl bank : Nat) (hn : RegName.PT_CNT ≠ m) :
    (h.ptCount p c n).val m ix sl bank = h.val m ix sl bank := Hw.val_count_other h .PT_CNT_count m _ _ n ix sl bank hn

@[simp] theorem Hw.rd_signal (g : Fld) (ix sl bank : Nat) : (h.signal p).rd g ix sl bank = h.rd g ix sl bank := (rfl)

/-! ### Registers of its lanes -/

@[simp] theorem Hw.rd_lanesWr_other (f g : Fld) (v ix sl bank : Nat) (hn : f.reg ≠ g.reg) :
    (h.lanesWr f p v).rd g ix sl bank = h.rd g ix sl bank :=
  Hw.over_keeps (fun k => k.rd g ix sl bank = h.rd g ix sl bank) _ _
    (fun k _ hk => (Hw.rd_wr_other k f g v _ _ 0 ix sl bank hn).trans hk) h rfl

@[simp] theorem Hw.rd_track (g : Fld) (ix sl bank : Nat) (hn : RegName.SD_LANESTAT ≠ g.reg) :
    (h.track p).rd g ix sl bank = h.rd g ix sl bank := by
  refine Hw.over_keeps (fun k => k.rd g ix sl bank = h.rd g ix sl bank) _ _ (fun k l hk => ?_) h rfl
  split
  · exact hk
  · exact (Hw.rd_wr_other k .SD_LANESTAT_adapt g 2 _ _ 0 ix sl bank hn).trans hk

@[simp] theorem Hw.linkVec_get_port (v q : Nat) : (h.linkVec p v).port q = h.port q :=
  Hw.each_keeps (fun k => k.port q = h.port q) 8 _ (fun _ _ hk => hk) h rfl

end

end Sys2Proof.Machine
end

section
/-! The frame check sequence (R76, R332): a CRC-32 fits the four bytes of an FCS, so what the MAC reads there is what was sent. -/

namespace Sys2Proof.Machine

theorem length_leBytes (n v : Nat) : (leBytes n v).length = n := by
  induction n generalizing v with
  | zero => rfl
  | succ n ih => exact congrArg Nat.succ (ih _)

/-- Bytes written least significant first read back as the number, cut to their width. -/
theorem leNat_leBytes (n v : Nat) : leNat (leBytes n v) = v % 256 ^ n := by
  induction n generalizing v with
  | zero => exact (Nat.mod_one v).symm
  | succ n ih =>
    unfold leBytes leNat
    rw [ih, BitVec.toNat_ofNat, Nat.shiftRight_eq_div_pow]
    exact (Nat.mod_mul.symm.trans (congrArg (v % ·) Nat.pow_succ'.symm))

/-! ### The register of the CRC-32 holds 32 bits -/

theorem crcBit_crc32_lt {r : Nat} (hr : r < 2 ^ 32) : crcBit crc32 r < 2 ^ 32 := by
  have hshift : r >>> 1 < 2 ^ 32 := (Nat.shiftRight_le r 1).trans_lt hr
  unfold crcBit
  rw [if_pos (show crc32.reflected = true from rfl)]
  split
  · exact Nat.xor_lt_two_pow hshift (by decide)
  · exact hshift

theorem crcBits_crc32_lt (n : Nat) {r : Nat} (hr : r < 2 ^ 32) : crcBits crc32 n r < 2 ^ 32 := by
  induction n generalizing r with
  | zero => exact hr
  | succ n ih => exact ih (crcBit_crc32_lt hr)

theorem crcByte_crc32_lt {r : Nat} (hr : r < 2 ^ 32) (b : Byte) : crcByte crc32 r b < 2 ^ 32 := by
  have hb : b.toNat < 2 ^ 32 := b.isLt.trans (by decide)
  unfold crcByte
  rw [if_pos (show crc32.reflected = true from rfl)]
  exact crcBits_crc32_lt 8 (Nat.xor_lt_two_pow hr hb)

theorem crc_crc32_lt {v : Nat} (hv : v < 2 ^ 32) (d : List Byte) : crc crc32 v d < 2 ^ 32 := by
  have hones : crc32.ones < 2 ^ 32 := by decide
  exact Nat.xor_lt_two_pow
    (List.foldlRecOn (motive := (· < 2 ^ 32)) d _ (Nat.xor_lt_two_pow hv hones) fun _ hr b _ => crcByte_crc32_lt hr b) hones

/-! ### What the MAC finds at the end of a frame -/

/-- The MAC finds 0x0C first at the end of a frame that is long enough and ends with the complement of its CRC-32: an EtherType of
0x8808 would be the higher 0x0E. -/
theorem macTail_of_complement {body : List Byte} (hlen : 60 ≤ body.length) :
    macTail (body ++ leBytes 4 (crc crc32 0 body ^^^ crc32.ones)) = some 0x0C := by
  have hones : crc32.ones ≠ 0 := by decide
  have hfcs : crc crc32 0 body ^^^ crc32.ones < 256 ^ 4 :=
    Nat.xor_lt_two_pow (crc_crc32_lt (by decide) body) (show crc32.ones < 2 ^ 32 by decide)
  have hdiff : crc crc32 0 body ^^^ crc32.ones ≠ crc crc32 0 body := fun e =>
    hones (Nat.xor_right_inj.mp (e.trans (Nat.xor_zero _).symm))
  have hlong : ¬ (body ++ leBytes 4 (crc crc32 0 body ^^^ crc32.ones)).length < 64 := by
    rw [List.length_append, length_leBytes]
    omega
  unfold macTail
  dsimp only
  rw [if_neg hlong, List.length_append, length_leBytes, Nat.add_sub_cancel, List.take_left, List.drop_left, leNat_leBytes,
    Nat.mod_eq_of_lt hfcs, if_neg hdiff, if_pos rfl]
  split <;> rfl

end Sys2Proof.Machine
end

section
/-! Receiving frames (R73 to R78): what becomes of a whole frame, of one released early, and of its tail, by what the MAC finds. -/

namespace Sys2Proof.Machine

section
variable (h : Hw) (p : Nat)

/-! ### The receive FIFO -/

@[simp] theorem Hw.rxStop_setPort (x : PortSt) (q : Nat) : (h.setPort p x).rxStop q = h.rxStop q := (rfl)
@[simp] theorem Hw.rxStop_fresh (q : Nat) : h.fresh.2.rxStop q = h.rxStop q := (rfl)

/-- What stops reception is read from the freezes and the slice's power, never from a port's counters. -/
@[simp] theorem Hw.rxStop_ptCount (c n q : Nat) : (h.ptCount p c n).rxStop q = h.rxStop q := by
  have hgood : ∀ r, (h.ptCount p c n).good r = h.good r := fun _ => rfl
  simp [Hw.rxStop, Hw.inactive, Hw.slicePower, Hw.portFrozen, Hw.sliceFrozen, Hw.sliceFrozenAt, Hw.held, Hw.maskFails, Hw.on, hgood]

@[simp] theorem Hw.rxStop_rxOk (n q : Nat) : (h.rxOk p n).rxStop q = h.rxStop q := by
  unfold Hw.rxOk
  rw [Hw.rxStop_ptCount, Hw.rxStop_ptCount]

theorem Hw.fresh_setPort (x : PortSt) : (h.setPort p x).fresh.2 = h.fresh.2.setPort p x := (rfl)
theorem Hw.rxOk_setPort (x : PortSt) (q n : Nat) : (h.setPort q x).rxOk p n = (h.rxOk p n).setPort q x := (rfl)

end

section
variable {h : Hw} {p : Nat}

theorem Hw.rxQueue_of_no_stop (hs : h.rxStop p = none) (x : RxFrame) :
    h.rxQueue p x = h.setPort p { h.port p with fifo := (h.port p).fifo ++ [x] } := by
  unfold Hw.rxQueue
  rw [hs]

/-! ### Whole frames -/

variable {d : List Byte}

/-- A frame that is not too long, and of which the PCS and the FEC have seen nothing, ends as the MAC finds. -/
theorem Hw.tailReason_of_fits (hlen : d.length ≤ h.cfg .PT_CFG_max_len p) : h.tailReason p d .good = (macTail d).getD 0 :=
  if_neg (Nat.not_lt.mpr hlen)

/-- A frame that the MAC passes enters the FIFO. -/
theorem Hw.rxWhole_of_good (hsec : h.on .CX_SECY_rx_en p = false) (hs : h.rxStop p = none)
    (hlen : d.length ≤ h.cfg .PT_CFG_max_len p) (hmac : macTail d = none) :
    h.rxWhole p d .good false = (h.fresh.2.rxOk p d.length).setPort p
      { h.port p with orphan := false, fifo := (h.port p).fifo ++ [⟨h.ids, h.now, d, false, some 0, none⟩] } := by
  have hr : (h.setPort p { h.port p with orphan := false }).tailReason p d .good = 0 := by
    rw [Hw.tailReason_of_fits (h := h.setPort p _) hlen, hmac]
    rfl
  have hqueue : h.rxWhole p d .good false =
      ((h.setPort p { h.port p with orphan := false }).fresh.2.rxOk p d.length).rxQueue p
        ⟨h.ids, h.now, d, false, some 0, none⟩ := by
    unfold Hw.rxWhole
    simp only [reduceCtorEq, decide_false, Bool.false_eq_true, if_false, hr, ne_eq, not_true_eq_false]
    exact if_neg (by rw [Bool.not_eq_true]; exact hsec)
  rw [hqueue, Hw.rxQueue_of_no_stop (by simpa using hs), Hw.fresh_setPort, Hw.rxOk_setPort, Hw.setPort_same, Hw.setPort_setPort]

/-- A frame with a reason of the MAC is counted as a drop. -/
theorem Hw.rxWhole_of_bad {r : Nat} (hlen : d.length ≤ h.cfg .PT_CFG_max_len p) (hmac : macTail d = some r) (h0 : r ≠ 0)
    (hF : r ≠ 0x0F) : h.rxWhole p d .good false = (h.setPort p { h.port p with orphan := false }).rxFail p r := by
  have hr : (h.setPort p { h.port p with orphan := false }).tailReason p d .good = r := by
    rw [Hw.tailReason_of_fits (h := h.setPort p _) hlen, hmac]
    rfl
  unfold Hw.rxWhole
  simp only [reduceCtorEq, decide_false, Bool.false_eq_true, if_false, hr, ne_eq, h0, hF, not_false_eq_true, if_true]

/-! ### Frames released early -/

/-- On a cut-through port that nothing stops the head of a longer frame enters the FIFO and waits for its tail. -/
theorem Hw.earlyRelease_queue (hs : h.rxStop p = none) (head : List Byte) :
    let k := h.setPort p { h.port p with orphan := false }
    let q := k.fresh.2.rxQueue p ⟨k.ids, k.now, head, true, none, none⟩
    q.setPort p { q.port p with cur := some (k.ids, head) } =
      h.fresh.2.setPort p { h.port p with
        orphan := false, cur := some (h.ids, head), fifo := (h.port p).fifo ++ [⟨h.ids, h.now, head, true, none, none⟩] } := by
  dsimp only
  rw [Hw.rxQueue_of_no_stop (by simpa using hs), Hw.fresh_setPort]
  simp only [Hw.setPort_same, Hw.setPort_setPort]
  rfl

/-- The end of an early-released frame that the MAC passes. -/
theorem Hw.endEarly_of_good {fid : Nat} {head rest : List Byte} (hc : (h.port p).cur = some (fid, head))
    (hlen : (head ++ rest).length ≤ h.cfg .PT_CFG_max_len p) (hmac : macTail (head ++ rest) = none) :
    h.endEarly p rest none .good = ((h.setPort p { h.port p with cur := none, orphan := false }).rxOk p
      (head ++ rest).length).giveTail fid (head ++ rest) 0 := by
  have hr : h.tailReason p (head ++ rest) .good = 0 := by
    rw [Hw.tailReason_of_fits hlen, hmac]
    rfl
  unfold Hw.endEarly
  simp only [hc, hr, List.take_of_length_le hlen, if_true]
  rfl

/-- The end of an early-released frame with a reason of the MAC that its port counts. -/
theorem Hw.endEarly_of_stomped {fid : Nat} {head rest : List Byte} (hc : (h.port p).cur = some (fid, head))
    (hlen : (head ++ rest).length ≤ h.cfg .PT_CFG_max_len p) (hmac : macTail (head ++ rest) = some 0x0C) :
    h.endEarly p rest none .good = ((h.setPort p { h.port p with cur := none, orphan := false }).ptCount p 12).giveTail fid
      (head ++ rest) 0x0C := by
  have hr : h.tailReason p (head ++ rest) .good = 0x0C := by
    rw [Hw.tailReason_of_fits hlen, hmac]
    rfl
  unfold Hw.endEarly
  simp only [hc, hr, List.take_of_length_le hlen]
  rfl

/-- A frame in reception, none of it released, that ends with a reason. -/
theorem Hw.endReception_of_arrived (hc : (h.port p).cur = none) (hlen : d.length ≤ h.cfg .PT_CFG_max_len p) {r : Nat}
    (h5 : r ≠ 0x05) : h.endReception p (some d) r = (h.setPort p { h.port p with orphan := true }).rxFail p r := by
  unfold Hw.endReception
  simp only [hc, Option.isSome_none, Bool.false_eq_true, if_false, if_neg (Nat.not_lt.mpr hlen), ne_eq, h5, not_false_eq_true,
    decide_true]

end

/-! ### The commands of reception -/

section
variable {p : Port} {s : State}

theorem exec_rxFrame_of_start (hup : s.hw.link p = 5) (hc : (s.hw.port p).cur = none) (d : List Byte) (err : RxErr) (full : Bool) :
    exec (.rxFrame p true d err full) s = .next (s.setHw (s.hw.rxWhole p d err full)).settle := by
  rw [exec_rxFrame]
  refine onTx_eq ?_
  rw [if_neg (by simp only [hup, hc]; decide)]
  rfl

theorem exec_earlyRelease_of_cut_through {head : List Byte} (hlen : head.length = 512) (hup : s.hw.link p = 5)
    (hc : (s.hw.port p).cur = none) (hct : s.hw.cfg .PT_CFG_ct_enable p = 1) (hsec : s.hw.on .CX_SECY_rx_en p = false)
    (hmax : 512 < s.hw.cfg .PT_CFG_max_len p) (hs : s.hw.rxStop p = none) :
    exec (.earlyRelease p head false) s = .next (s.setHw (s.hw.fresh.2.setPort p { s.hw.port p with
      orphan := false, cur := some (s.hw.ids, head),
      fifo := (s.hw.port p).fifo ++ [⟨s.hw.ids, s.hw.now, head, true, none, none⟩] })).settle := by
  have hgo : ¬ (s.hw.link p ≠ 5 ∨ (s.hw.port p).cur.isSome = true ∨ s.hw.cfg .PT_CFG_ct_enable p ≠ 1 ∨
      s.hw.on .CX_SECY_rx_en p = true ∨ s.hw.cfg .PT_CFG_max_len p ≤ 512) := by
    simp [hup, hc, hct, hsec, hmax]
  rw [exec_earlyRelease, execEarlyRelease, hlen, beq_self_eq_true, guarded_true]
  refine onTx_eq ?_
  simp only [if_neg hgo, Bool.false_eq_true, if_false, Hw.rxStop_setPort, hs, Option.isSome_none]
  exact Hw.earlyRelease_queue hs head

theorem exec_tailStatus_next (p : Port) (rest : List Byte) (err : RxErr) (s : State) :
    exec (.tailStatus p rest err) s = .next (s.setHw (s.hw.endEarly p rest none err)).settle := by
  rw [exec_tailStatus]
  exact onTx_settle _ s

theorem exec_rxWatchdog_of_up (hup : s.hw.link p = 5) (arrived : List Byte) :
    exec (.rxWatchdog p arrived) s = .next (s.setHw (s.hw.endReception p (some arrived) 0x06)).settle := by
  rw [exec_rxWatchdog]
  exact onTx_eq (if_pos hup)

end

/-- Settles O1: a good whole frame and a good tail end as the MAC finds, an early head enters the FIFO, and what has arrived of a
frame whose sender stopped is a drop. -/
theorem frameReception : Obligations.FrameReception := by
  refine ⟨fun p d s hup hc hsec hs hlen hmac => ?_, fun p head s hlen hup hc hct hsec hmax hs => ?_,
    fun p fid head rest s hc hlen hmac => ?_, fun p d s hup hc hlen => ?_⟩
  · rw [exec_rxFrame_of_start hup hc, Hw.rxWhole_of_good hsec hs hlen hmac]
    rfl
  · exact exec_earlyRelease_of_cut_through hlen hup hc hct hsec hmax hs
  · rw [exec_tailStatus_next, Hw.endEarly_of_good hc hlen hmac]
  · rw [exec_rxWatchdog_of_up hup, Hw.endReception_of_arrived hc hlen (by decide)]

/-- Settles O46: the complement of the CRC-32 in the place of the FCS makes 0x0C the reason, of a whole frame and of a tail. -/
theorem stompedFrames : Obligations.StompedFrames := by
  intro p body s hmin hmax
  dsimp only
  have hmac := macTail_of_complement hmin
  have hlen : (body ++ leBytes 4 (crc crc32 0 body ^^^ 0xFFFFFFFF)).length ≤ s.hw.cfg .PT_CFG_max_len p := by
    rw [List.length_append, length_leBytes]
    exact hmax
  refine ⟨fun hup hc => ?_, fun fid head rest hc hd => ?_⟩
  · rw [exec_rxFrame_of_start hup hc, Hw.rxWhole_of_bad hlen hmac (by decide) (by decide)]
  · rw [← hd] at hlen ⊢
    rw [exec_tailStatus_next, Hw.endEarly_of_stomped hc hlen (hd ▸ hmac)]

end Sys2Proof.Machine
end

section
/-! Link states (R68 to R72): which branch of each command is taken in which state, the reads that decide it being those of the
hardware before the command. -/

namespace Sys2Proof.Machine

section
variable (h : Hw) (p : Nat)

/-! ### What the updates of a port leave of its link state, its configuration and its modes -/

@[simp] theorem Hw.link_ptWr_below (f : Fld) (v q : Nat) (hhi : f.hi < 61) (hlo : f.lo ≤ f.hi + 1) :
    (h.ptWr f p v).link q = h.link q := h.rd_ptWr_beside p f .PT_STATUS_state v _ _ 0 (.inl hhi) hlo (by decide)
@[simp] theorem Hw.link_ptEvent (e q : Nat) : (h.ptEvent p e).link q = h.link q :=
  h.rd_ptEvent p .PT_STATUS_state e _ _ 0 (by decide)
@[simp] theorem Hw.link_lanesWr (f : Fld) (v q : Nat) (hn : f.reg ≠ .PT_STATUS) : (h.lanesWr f p v).link q = h.link q :=
  h.rd_lanesWr_other p f .PT_STATUS_state v _ _ 0 hn

@[simp] theorem Hw.cfg_ptWr (f g : Fld) (v q : Nat) (hn : f.reg ≠ g.reg) : (h.ptWr f p v).cfg g q = h.cfg g q :=
  h.rd_ptWr_other p f g v _ _ 0 hn
@[simp] theorem Hw.cfg_ptEvent (g : Fld) (e q : Nat) (hn : RegName.PT_EVENT ≠ g.reg) : (h.ptEvent p e).cfg g q = h.cfg g q :=
  h.rd_ptEvent p g e _ _ 0 hn
@[simp] theorem Hw.cfg_ptCount (g : Fld) (c n q : Nat) (hn : RegName.PT_CNT ≠ g.reg) : (h.ptCount p c n).cfg g q = h.cfg g q :=
  h.rd_ptCount p g c n _ _ 0 hn
@[simp] theorem Hw.cfg_lanesWr (f g : Fld) (v q : Nat) (hn : f.reg ≠ g.reg) : (h.lanesWr f p v).cfg g q = h.cfg g q :=
  h.rd_lanesWr_other p f g v _ _ 0 hn

@[simp] theorem Hw.laneMode_ptWr (f : Fld) (v q : Nat) (hn : f.reg ≠ .PT_GMODE) : (h.ptWr f p v).laneMode q = h.laneMode q := by
  unfold Hw.laneMode
  rw [Hw.rd_ptWr_other _ _ _ _ _ _ _ _ hn]
@[simp] theorem Hw.laneMode_ptEvent (e q : Nat) : (h.ptEvent p e).laneMode q = h.laneMode q := by
  unfold Hw.laneMode
  rw [Hw.rd_ptEvent _ _ _ _ _ _ _ (by decide)]
@[simp] theorem Hw.laneMode_signal (q : Nat) : (h.signal p).laneMode q = h.laneMode q := (rfl)

end

/-! ### Acquisition (R65, R68, R69) -/

section
variable {p : Port} {s : State}

theorem exec_partnerPresent_of_fibre (hl : s.hw.link p = 1) (hpmd : s.hw.cfg .PT_CFG_pmd p = 0) :
    exec (.partnerPresent p) s = .next (s.setHw
      ((((s.hw.ptWr .PT_STATUS_partner_present p 1).ptEvent p 0).lanesWr .SD_LANESTAT_sig_detect p 1).ptWr
        .PT_STATUS_state p 4)) := by
  rw [exec_partnerPresent]
  refine onHw_eq ?_
  simp [hl, hpmd]

theorem exec_anComplete_of_configured {code : Fin 16} (hl : s.hw.link p = 2) (hc : code.val = s.hw.laneMode p) (lp : Word) :
    exec (.anComplete p code lp) s = .next (s.setHw
      (((((s.hw.wr .PT_AN_LP_lp (bits lp.toNat 12 1) (portIx p) (portSl p)).ptWr .PT_STATUS_resolved p code).ptWr
        .PT_STATUS_an_done p 1).ptEvent p 4).ptWr .PT_STATUS_state p 3)) := by
  have hmode : (s.hw.wr .PT_AN_LP_lp (bits lp.toNat 12 1) (portIx p) (portSl p)).laneMode p = code :=
    ((s.hw.laneMode_ptWr p .PT_AN_LP_lp (bits lp.toNat 12 1) p (by decide)).trans hc.symm)
  rw [exec_anComplete]
  refine onHw_eq ?_
  simp [hl, hmode]

theorem exec_trainDone_of_training (hl : s.hw.link p = 3) :
    exec (.trainDone p) s = .next (s.setHw (s.hw.ptWr .PT_STATUS_state p 4)) := by
  rw [exec_trainDone]
  exact onHw_eq (if_pos hl)

theorem exec_trainFail_of_no_negotiation (hl : s.hw.link p = 3) (hneg : s.hw.negotiates p = false) :
    exec (.trainFail p) s = .next (s.setHw (((s.hw.ptEvent p 6).ptCount p 24).ptWr .PT_STATUS_state p 3)) := by
  have hfrom : s.hw.trainFrom p = 3 := if_neg (by rw [hneg]; exact Bool.false_ne_true)
  have hafter (v : Nat) : (((s.hw.ptEvent p 6).ptCount p 24).ptWr .PT_STATUS_state p v).negotiates p = false := by
    simpa [Hw.negotiates] using hneg
  rw [exec_trainFail]
  refine onHw_eq ?_
  simp [hl, hfrom, hafter]

theorem exec_alignLock_of_no_fault (hl : s.hw.link p = 4) (hf : s.hw.faulted p = false) :
    exec (.alignLock p) s = .next (s.setHw
      (((s.hw.ptWr .PT_STATUS_lanes_locked p (s.hw.allLocked p)).lanesWr .SD_LANESTAT_cdr_lock p 1).track p)) := by
  have hafter (v w : Nat) : (((s.hw.ptWr .PT_STATUS_lanes_locked p v).lanesWr .SD_LANESTAT_cdr_lock p w).track p).faulted p =
      false := by simpa [Hw.faulted, Hw.on] using hf
  rw [exec_alignLock]
  refine onHw_eq ?_
  simp [hl, hafter]

end

/-- Settles O2: each command in the state in which it acts, by its lemma. -/
theorem linkAcquisition : Obligations.LinkAcquisition :=
  ⟨fun _ _ => exec_partnerPresent_of_fibre, fun _ _ lp _ hl hc => exec_anComplete_of_configured hl hc lp,
    fun _ _ => exec_trainDone_of_training, fun _ _ => exec_trainFail_of_no_negotiation, fun _ _ => exec_alignLock_of_no_fault⟩

/-! ### Faults and losses (R69, R70, R75) -/

section
variable {h : Hw} {p : Nat} {f : Fld}

/-- A fault new on an aligned port holds it in FAULT. `f` is a bit of PT_STATUS above its lanes_locked. -/
theorem Hw.faultOn_of_aligned (hlo : 47 < f.lo) (hle : f.lo ≤ f.hi) (hl : h.link p = 4)
    (ha : h.rd .PT_STATUS_lanes_locked (portIx p) (portSl p) = h.allLocked p) (hf : h.on f (portIx p) (portSl p) = false)
    (hreg : f.reg = .PT_STATUS) (e : Nat) (arrived : Option (List Byte)) :
    h.faultOn p f e arrived = (((h.ptWr f p 1).ptEvent p e).signal p).ptWr .PT_STATUS_state p 6 := by
  have hle' : f.lo ≤ f.hi + 1 := by omega
  have hmode : f.reg ≠ .PT_GMODE := by rw [hreg]; decide
  unfold Hw.allLocked at ha
  unfold Hw.faultOn
  simp [hl, hf, Hw.allLocked, hlo, hle', hmode, ha]

/-- A fault new on a port that is UP takes it out of UP. -/
theorem Hw.faultOn_of_up (hl : h.link p = 5) (hf : h.on f (portIx p) (portSl p) = false) (e : Nat)
    (arrived : Option (List Byte)) :
    h.faultOn p f e arrived = (((h.ptWr f p 1).ptEvent p e).signal p).leaveUp p 6 arrived := by
  unfold Hw.faultOn
  simp [hl, hf]

theorem Hw.signalLoss_of_up (hl : h.link p = 5) (arrived : Option (List Byte)) :
    h.signalLoss p true arrived =
        ((h.leaveUp p 4 arrived).ptWr .PT_STATUS_lanes_locked p 0).lanesWr .SD_LANESTAT_cdr_lock p 0 ∧
      h.signalLoss p false arrived = h.leaveUp p 6 arrived := by
  unfold Hw.signalLoss
  simp [hl]

end

section
variable {p : Port} {s : State}

theorem exec_linkUp_of_aligned (hl : s.hw.link p = 4 ∨ s.hw.link p = 6)
    (ha : s.hw.rd .PT_STATUS_lanes_locked (portIx p) (portSl p) = s.hw.allLocked p) (hf : s.hw.faulted p = false) :
    exec (.linkUp p) s = .next (s.setHw
      ((((((s.hw.ptWr .PT_STATUS_state p 5).ptWr .PT_STATUS_link_up p 1).linkVec p 1).ptEvent p 2).setPort p
        { s.hw.port p with leftUp := false, flush := 0 }).sfPortUp p)) := by
  rw [exec_linkUp]
  refine onHw_eq ((if_pos ⟨hl, ha, hf⟩).trans ?_)
  simp only [Hw.ptEvent_get_port, Hw.linkVec_get_port, Hw.ptWr_get_port]

theorem exec_localFault_next (q : PortFault) (s : State) :
    exec (.localFault q) s = .next (s.setHw (s.hw.faultOn q.port .PT_STATUS_local_fault 7 q.arrived)).settle := by
  rw [exec_localFault]
  exact onTx_settle _ s

theorem exec_remoteFault_next (q : PortFault) (s : State) :
    exec (.remoteFault q) s = .next (s.setHw (s.hw.faultOn q.port .PT_STATUS_remote_fault 8 q.arrived)).settle := by
  rw [exec_remoteFault]
  exact onTx_settle _ s

theorem exec_faultClear_of_on {remote : Bool}
    (hon : s.hw.on (if remote then .PT_STATUS_remote_fault else .PT_STATUS_local_fault) (portIx p) (portSl p) = true) :
    exec (.faultClear p remote) s = .next (s.setHw
      ((s.hw.ptWr (if remote then .PT_STATUS_remote_fault else .PT_STATUS_local_fault) p 0).signal p)) := by
  rw [exec_faultClear]
  exact onHw_eq (if_pos hon)

theorem exec_partnerLost_of_acquiring (hp : s.hw.on .PT_STATUS_partner_present (portIx p) (portSl p) = true)
    (hl : s.hw.link p = 2 ∨ s.hw.link p = 3 ∨ s.hw.link p = 4) :
    exec (.partnerLost p) s = .next (s.setHw
      (((((s.hw.ptWr .PT_STATUS_partner_present p 0).ptEvent p 1).lanesWr .SD_LANESTAT_sig_detect p 0).ptWr
        .PT_STATUS_state p 1).ptWr .PT_STATUS_lanes_locked p 0)) := by
  rw [exec_partnerLost]
  refine onHw_eq ?_
  simp [hp, hl]

theorem exec_signalLoss_next (p : Port) (alignLost : Bool) (arrived : Option (List Byte)) (s : State) :
    exec (.signalLoss p alignLost arrived) s = .next (s.setHw (s.hw.signalLoss p alignLost arrived)).settle := by
  rw [exec_signalLoss]
  exact onTx_settle _ s

theorem exec_linkDown_of_left (hup : (s.hw.port p).leftUp = true) :
    exec (.linkDown p) s = .next (s.setHw
      (((((((s.hw.ptEvent p 3).ptCount p 23).note (.cutOff p)).flushLink p 0x0A).ptWr .PT_STATUS_state p 1).ptWr
        .PT_STATUS_an_done p 0).ptWr .PT_STATUS_lanes_locked p 0)).settle := by
  rw [exec_linkDown]
  exact onTx_eq (if_neg (by rw [hup]; decide))

end

/-- Settles O3: each command by its lemma; local and remote faults are one operation on their bit of PT_STATUS. -/
theorem linkUpAndDown : Obligations.LinkUpAndDown := by
  refine ⟨fun p s => exec_linkUp_of_aligned, fun p arrived s hl ha => ⟨fun hf => ?_, fun hf => ?_⟩,
    fun p arrived s hl => ⟨fun hf => ?_, fun hf => ?_⟩, fun p remote s => exec_faultClear_of_on,
    fun p s => exec_partnerLost_of_acquiring, fun p arrived s hl => ?_, fun p s => exec_linkDown_of_left⟩
  · rw [exec_localFault_next, Hw.faultOn_of_aligned (by decide) (by decide) hl ha hf rfl]
  · rw [exec_remoteFault_next, Hw.faultOn_of_aligned (by decide) (by decide) hl ha hf rfl]
  · rw [exec_localFault_next, Hw.faultOn_of_up hl hf]
  · rw [exec_remoteFault_next, Hw.faultOn_of_up hl hf]
  · obtain ⟨hlost, hkept⟩ := Hw.signalLoss_of_up hl arrived
    rw [exec_signalLoss_next, exec_signalLoss_next, hlost, hkept]
    exact ⟨rfl, rfl⟩

end Sys2Proof.Machine
end

section
/-! Port configuration (R60, R62, R67, R70, R72, R85): lane maps whose copies agree or not, PT_CFG, the FEC window and PRBS. -/

namespace Sys2Proof.Machine

/-! ### Marks -/

@[simp] theorem Hw.good_wr (h : Hw) (f : Fld) (v ix sl bank : Nat) (r : Reg) : (h.wr f v ix sl bank).good r = h.good r := (rfl)
@[simp] theorem Hw.good_setReg (h : Hw) (x : Reg) (w : Word) (r : Reg) : (h.setReg x w).good r = h.good r := (rfl)

theorem Hw.good_mark_passing (h : Hw) (r : Reg) : (h.mark r false).good r = true := by
  simp [Hw.good, Hw.mark]

theorem Hw.good_mark_failing (h : Hw) (r : Reg) : (h.mark r true).good r = false := by
  simp only [Hw.good, Hw.mark, if_true]
  split
  · next hmem => simpa using hmem
  · simp

/-! ### Lane maps (R60, R85) -/

theorem Hw.rd_setReg_other {h : Hw} {r : Reg} {g : Fld} {w : Word} {ix sl bank : Nat}
    (hr : (⟨g.reg, sl, bank, ix⟩ : Reg) ≠ r) : (h.setReg r w).rd g ix sl bank = h.rd g ix sl bank := by
  unfold Hw.rd Hw.val
  rw [Hw.reg_setReg_other _ _ hr]

/-- An accepted map is what the register reads and its copies agree: resetting PT_CFG of the new ports and showing the lanes' rates
touch neither. -/
theorem Hw.gmodeWrite_of_accepted {h : Hw} {n g v : Nat} (hc : h.gmodeCause n g v = 0) :
    (h.gmodeWrite n g v).rd .PT_GMODE_lane_mode g n = v % 2 ^ 32 ∧ (h.gmodeWrite n g v).good ⟨.PT_GMODE, n, 0, g⟩ = true := by
  unfold Hw.gmodeWrite
  dsimp only
  rw [if_neg (not_not.mpr hc)]
  refine Hw.each_keeps (fun k => k.rd .PT_GMODE_lane_mode g n = v % 2 ^ 32 ∧ k.good ⟨.PT_GMODE, n, 0, g⟩ = true) _ _ ?_ _
    (Hw.each_keeps (fun k => k.rd .PT_GMODE_lane_mode g n = v % 2 ^ 32 ∧ k.good ⟨.PT_GMODE, n, 0, g⟩ = true) _ _ ?_ _ ?_)
  · rintro k l ⟨hrd, hgood⟩
    rw [Hw.rd_wr_other _ _ _ _ _ _ _ _ _ _ (by decide), Hw.good_wr]
    exact ⟨hrd, hgood⟩
  · rintro k l ⟨hrd, hgood⟩
    split
    · rw [Hw.rd_setReg_other (by simp), Hw.good_setReg]
      exact ⟨hrd, hgood⟩
    · exact ⟨hrd, hgood⟩
  · refine ⟨?_, Hw.good_mark_passing _ _⟩
    rw [Hw.mark_rd]
    exact Hw.rd_wr_same h .PT_GMODE_lane_mode v g n 0 (by decide)

theorem exec_gmodeWrite_agree (n : Slice) (g : Fin 12) (v : Word) (s : State) :
    exec (.gmodeWrite n g v true) s = .next (s.setHw (s.hw.gmodeWrite n g (v.toNat % 2 ^ 32))) := by
  rw [exec_gmodeWrite]
  rfl

theorem exec_gmodeWrite_differ (n : Slice) (g : Fin 12) (v : Word) (s : State) :
    exec (.gmodeWrite n g v false) s =
      .next (s.setDev (({ s.dev with hw := s.hw.gmodeWrite n g (v.toNat % 2 ^ 32) } : Dev).mapSplit n g)) := by
  rw [exec_gmodeWrite]
  rfl

@[simp] theorem Hw.configured_mark (h : Hw) (r : Reg) (b : Bool) (q : Nat) : (h.mark r b).configured q = h.configured q := (rfl)
@[simp] theorem Hw.configured_raise (h : Hw) (code origin pipe port q : Nat) :
    (h.raise code origin pipe port).configured q = h.configured q := (rfl)

section
variable (d : Dev) (n g : Nat)

theorem Dev.good_mapSplit : (d.mapSplit n g).hw.good ⟨.PT_GMODE, n, 0, g⟩ = false := Hw.good_mark_failing _ _

/-- The fault records of disagreeing copies leave every lane map. -/
theorem Dev.configured_mapSplit (q : Nat) : (d.mapSplit n g).hw.configured q = d.hw.configured q := by
  unfold Dev.mapSplit
  rw [Hw.configured_mark]
  exact Hw.over_keeps (fun k => k.configured q = d.hw.configured q) _ _
    (fun k i hk => (k.configured_raise 0x122 n 15 i q).trans hk) d.hw rfl

/-- Every begun frame of a configured port of the group is squelched. -/
theorem Dev.squelch_mapSplit {y : TxFrame} (hy : y ∈ (d.mapSplit n g).tx) (hg : y.port / 8 = 12 * n + g)
    (hc : d.hw.configured y.port = true) (hs : y.st.started.isSome = true) : y.st.squelch = true := by
  have hport : y.port ∈ ((List.range 8).map (96 * n + 8 * g + ·)).filter d.hw.configured :=
    List.mem_filter.mpr ⟨List.mem_map.mpr ⟨y.port % 8, List.mem_range.mpr (by omega), by omega⟩, hc⟩
  obtain ⟨x, -, hx⟩ := List.mem_map.mp hy
  split at hx
  · rw [← hx]
  · next hskip =>
    subst hx
    simp only [Bool.and_eq_true, List.contains_iff_mem] at hskip
    exact absurd ⟨hport, hs⟩ hskip

end

/-! ### PT_CFG (R62, R72) -/

section
variable {h : Hw} {p v : Nat}

/-- The ranges outside which a write of PT_CFG is ignored whole. -/
def ptCfgInRange (v : Nat) : Prop := ¬ (bits v 23 14 = 0 ∨ 1000 < bits v 23 14 ∨ bits v 13 0 < 64 ∨ 10000 < bits v 13 0)

theorem ptCfgInRange_of_le (h1 : 0 < bits v 23 14) (h2 : bits v 23 14 ≤ 1000) (h3 : 64 ≤ bits v 13 0)
    (h4 : bits v 13 0 ≤ 10000) : ptCfgInRange v := by
  unfold ptCfgInRange
  omega

@[simp] theorem Hw.cfgFields_get_port (h : Hw) (p v q : Nat) : (h.cfgFields p v).port q = h.port q := by
  unfold Hw.cfgFields
  dsimp only
  split <;> simp only [Hw.wr_get_port]

/-- An enable that nothing refuses, of a port whose frames are still disposed of. -/
theorem Hw.ptCfgWrite_of_enable (hr : ptCfgInRange v) (hv : bit v 63 = true) (hoff : h.cfg .PT_CFG_enable p = 0)
    (hc : (h.cfgFields p v).enableCause p = 0) (hfl : (h.port p).flush ≠ 0) (arrived : Option (List Byte)) :
    h.ptCfgWrite p v arrived = (((h.cfgFields p v).wr .PT_CFG_enable 1 (portIx p) (portSl p)).ptWr .PT_STATUS_state p 1).ptWr
      .PT_STATUS_refuse_cause p 0 := by
  have hport : ((((h.cfgFields p v).wr .PT_CFG_enable 1 (portIx p) (portSl p)).ptWr .PT_STATUS_state p 1).ptWr
      .PT_STATUS_refuse_cause p 0).port p = h.port p := by
    rw [Hw.ptWr_get_port, Hw.ptWr_get_port, Hw.wr_get_port, Hw.cfgFields_get_port]
  unfold Hw.ptCfgWrite
  rw [if_neg hr]
  simp only [hoff, hv, hc, hport, hfl, Nat.reduceBEq, Bool.false_eq_true, if_true, if_false, ne_eq,
    not_true_eq_false]

theorem Hw.ptCfgWrite_of_disable (hr : ptCfgInRange v) (hv : bit v 63 = false) (hon : h.cfg .PT_CFG_enable p = 1)
    (arrived : Option (List Byte)) : h.ptCfgWrite p v arrived = (h.cfgFields p v).disablePort p arrived := by
  unfold Hw.ptCfgWrite
  rw [if_neg hr]
  simp only [hon, hv, beq_self_eq_true, Bool.false_eq_true, if_true, if_false]

end

theorem exec_portEnable_next (p : Port) (v : Word) (s : State) :
    exec (.portEnable p v) s = .next (s.setHw (s.hw.ptCfgWrite p v.toNat none)).settle := by
  rw [exec_portEnable]
  exact onTx_settle _ s

theorem exec_portDisable_next (p : Port) (v : PortStop) (s : State) :
    exec (.portDisable p v) s = .next (s.setHw (s.hw.ptCfgWrite p v.word.toNat v.arrived)).settle := by
  rw [exec_portDisable]
  exact onTx_settle _ s

/-! ### The FEC window (R70) -/

theorem exec_fecWindow_of_degrading {p : Port} {s : State} {symbols : Nat}
    (hd : s.hw.on .PT_STATUS_fec_degraded (portIx p) (portSl p) = false)
    (ht : s.hw.rd .PT_FECTHR_set_thr (portIx p) (portSl p) ≤ symbols) (codewords : Nat) :
    exec (.fecWindow p codewords symbols) s = .next (s.setHw
      (((((s.hw.ptCount p 21 codewords).ptCount p 22 symbols).ptWr .PT_STATUS_fec_degraded p 1).ptEvent p 9).raise 0x110
        (portSl p) 15 p)) := by
  have hd' : ((s.hw.ptCount p 21 codewords).ptCount p 22 symbols).on .PT_STATUS_fec_degraded (portIx p) (portSl p) = false := by
    simpa [Hw.on] using hd
  rw [exec_fecWindow]
  refine onHw_eq ?_
  simp [hd', ht]

/-! ### PRBS (R67) -/

/-- The patterns of a lane stored. -/
def Hw.prbsPatterns (h : Hw) (l v : Nat) : Hw :=
  (h.wr .SD_PRBS_gen (bits v 59 57) (portIx l) (portSl l)).wr .SD_PRBS_chk (bits v 56 54) (portIx l) (portSl l)

section
variable {h : Hw} {l v : Nat}

theorem Hw.prbsWrite_of_go (hg : bits v 59 57 ≤ 3) (hc : bits v 56 54 ≤ 3) (hf : h.laneFree l = true) (hv : bit v 63 = true) :
    h.prbsWrite l v =
      ((h.prbsPatterns l v).wr .SD_PRBS_state 1 (portIx l) (portSl l)).setVal .SD_PRBS_ERR 0 (portIx l) (portSl l) := by
  unfold Hw.prbsWrite
  simp only [Nat.not_lt.mpr hg, Nat.not_lt.mpr hc, hf, hv, or_self, Bool.not_true, Bool.false_and, Bool.false_eq_true, if_true,
    if_false]
  rfl

theorem Hw.prbsWrite_of_stop (hg : bits v 59 57 ≤ 3) (hc : bits v 56 54 ≤ 3) (hf : h.laneFree l = true)
    (hgo : bit v 63 = false) (hstop : bit v 62 = true) (hrun : h.rd .SD_PRBS_state (portIx l) (portSl l) = 1) :
    h.prbsWrite l v =
      ((h.prbsPatterns l v).wr .SD_PRBS_state 2 (portIx l) (portSl l)).setVal .SD_PRBS_ERR (Config.bitErrors l h.up).toNat
        (portIx l) (portSl l) := by
  have hrun' : h.rd .SD_PRBS_state (l % 96) (l / 96) = 1 := hrun
  unfold Hw.prbsWrite
  simp only [Nat.not_lt.mpr hg, Nat.not_lt.mpr hc, hf, hgo, hstop, hrun', or_self, Bool.not_true, Bool.and_false,
    Bool.false_eq_true, if_true, if_false]
  rfl

end

theorem exec_prbsGo_next (l : Lane) (v : Word) (s : State) :
    exec (.prbsGo l v) s = .next (s.setHw (s.hw.prbsWrite l v.toNat)) := by
  rw [exec_prbsGo]
  exact onHw_next _ s

theorem exec_prbsStop_next (l : Lane) (v : Word) (s : State) :
    exec (.prbsStop l v) s = .next (s.setHw (s.hw.prbsWrite l v.toNat)) := by
  rw [exec_prbsStop]
  exact onHw_next _ s

/-- Settles O4: each write by the lemma for its case. -/
theorem portConfiguration : Obligations.PortConfiguration := by
  refine ⟨fun n g v s hc => ?_, fun n g v s _ => ?_, fun p v s h1 h2 h3 h4 hv hoff hc hfl => ?_,
    fun p v arrived s h1 h2 h3 h4 hv hon => ?_, fun p codewords symbols s hd ht => exec_fecWindow_of_degrading hd ht codewords,
    fun l v s hg hc hf => ⟨fun hgo => ?_, fun hgo hstop hrun => ?_⟩⟩
  · obtain ⟨hrd, hgood⟩ := Hw.gmodeWrite_of_accepted hc
    refine ⟨_, exec_gmodeWrite_agree n g v s, ?_, hgood, rfl, rfl, rfl⟩
    exact hrd.trans (Nat.mod_mod _ _)
  · refine ⟨_, exec_gmodeWrite_differ n g v s, Dev.good_mapSplit _ n g, fun y hy hg hconf hs => ?_⟩
    exact Dev.squelch_mapSplit _ n g hy hg (by rwa [← Dev.configured_mapSplit _ n g]) hs
  · rw [exec_portEnable_next, Hw.ptCfgWrite_of_enable (ptCfgInRange_of_le h1 h2 h3 h4) hv hoff hc hfl]
  · rw [exec_portDisable_next, Hw.ptCfgWrite_of_disable (ptCfgInRange_of_le h1 h2 h3 h4) hv hon]
  · rw [exec_prbsGo_next, Hw.prbsWrite_of_go hg hc hf hgo]
    rfl
  · rw [exec_prbsStop_next, Hw.prbsWrite_of_stop hg hc hf hgo hstop hrun]
    rfl

end Sys2Proof.Machine
end

section
/-! Frame transmission (R80, R82, R315, R324, R325): the start, the end and the report of a frame, and its binding to an
association. -/

namespace Sys2Proof.Machine

section
variable {p : Port} {x : TxFrame} {s : State}

/-- A frame that enters its own port's MAC whole of fault, neither protected nor cut through, begins with its lanes open. -/
theorem Dev.startTx_of_sound {d : Dev} {c : TxCond} (hmac : c.mac.val = x.port) (hsa : x.st.sa = none) (hcut : x.st.cut = false)
    (hlanes : c.lanesOk = true) (hmap : d.hw.mapAgrees x.port = true) :
    d.startTx x c = ({ d with hw := d.hw.stampRequest x } : Dev).updFrame x
      (fun st => { st with started := some (d.hw.stampRequest x).now, squelch := false }) := by
  unfold Dev.startTx
  simp only [hmac, hsa, hcut, hlanes, hmap, ne_eq, not_true_eq_false, Option.isSome_none, Bool.false_eq_true, false_and, if_false,
    if_true, Bool.not_true, Bool.or_self]

theorem exec_txFrameStart_of_head (hx : s.dev.head p = some x) (hst : x.st.started = none) (ht : s.hw.transmits p = true)
    (hp : s.hw.protects p x.st.bytes = false) (c : TxCond) :
    exec (.txFrameStart p c) s = .next (s.setDev (s.dev.startTx x c)) := by
  rw [exec_txFrameStart]
  refine onDev_eq ?_
  simp only [hx, hst, ht, hp, Option.isSome_none, Bool.not_true, Bool.false_and, Bool.or_self, Bool.false_eq_true, if_false]

theorem exec_txFrameEnd_of_good (hx : s.dev.head p = some x) (hst : x.st.started.isSome = true) (hw : x.st.whole = true)
    (hgood : x.st.stomp = none) (htx : (s.hw.emit x).on .CX_SECY_tx_en p = false) :
    exec (.txFrameEnd p) s = .next (s.setDev (({ s.dev with hw := (s.hw.emit x).settleTx x true } : Dev).delFrame x)) := by
  have hbegun : x.st.started.isNone = false := by rw [← Option.not_isSome, hst]; rfl
  rw [exec_txFrameEnd]
  refine onDev_eq ?_
  simp only [hx, hbegun, hw, hgood, htx, Bool.not_true, Bool.false_and, Bool.or_self, Bool.false_eq_true, if_false,
    Option.isNone_none]

theorem exec_secyFrameEnd_of_good (hx : s.dev.tx.find? (fun x => x.port == p.val && x.st.ended.isSome) = some x)
    (hend : x.st.ended = some true) (hsa : x.st.sa.isSome = true) :
    exec (.secyFrameEnd p) s = .next (s.setDev
      (({ s.dev with hw := (s.hw.cxCount 0).settleTx x true } : Dev).delFrame x)) := by
  rw [exec_secyFrameEnd]
  refine onDev_eq ?_
  simp only [hx, hend, hsa, beq_self_eq_true, Bool.and_self, if_true]

theorem exec_saBind_of_bound {b : SaBind} {h : Hw} (hx : s.dev.toBind p = some x) (hb : s.hw.bindSa p x.len = (.ok b, h)) :
    exec (.saBind p) s = .next (s.setDev
      (({ s.dev with hw := h } : Dev).updFrame x (fun st => { st with sa := some b })).settle) := by
  rw [exec_saBind]
  refine onDev_eq ?_
  simp only [hx, hb]

end

/-- Settles O5: each command by its lemma; the frame at the head of a port's transmit path is one of that port. -/
theorem frameTransmission : Obligations.FrameTransmission := by
  refine ⟨fun p x c s hx hport hst hsa hcut ht hp hmac hlanes hmap => ?_, fun p x s => exec_txFrameEnd_of_good,
    fun p x s => exec_secyFrameEnd_of_good, fun p x b h s => exec_saBind_of_bound⟩
  rw [exec_txFrameStart_of_head hx hst ht hp,
    Dev.startTx_of_sound (hmac.trans hport.symm) hsa hcut hlanes (by rw [hport]; exact hmap)]

end Sys2Proof.Machine
end

section
/-! The parser (R89, R106, R107): a frame at the head of a receive FIFO admitted, the graph's banks written and copied, and a graph
entry scrubbed. -/

namespace Sys2Proof.Machine

/-! ### Admission (R44, R89) -/

section
variable {h : Hw} {p : Nat}

/-- A use of replica words that all pass their checks raises nothing. -/
theorem Hw.maskUse_of_passing {sl : Nat} {ws : List Nat} (hw : ∀ w ∈ ws, h.maskFails sl w = false) : h.maskUse sl ws = h := by
  have hany : ws.any (h.maskFails sl) = false := List.any_eq_false.mpr fun w hmem => Bool.eq_false_iff.mp (hw w hmem)
  unfold Hw.maskUse
  rw [hany]
  rfl

/-- A port whose frames nothing stops has no freeze in force; a replica word that fails its check would read as one. -/
theorem Hw.maskFails_of_no_stop (hs : h.rxStop p = none) :
    h.maskFails (portSl p) (portWord p) = false ∧ h.maskFails (portSl p) sliceWord = false := by
  unfold Hw.rxStop at hs
  dsimp only at hs
  split at hs
  · cases hs
  split at hs
  · cases hs
  next hport =>
  split at hs
  · cases hs
  next hslice =>
  obtain ⟨-, hp⟩ := Bool.or_eq_false_iff.mp (Bool.eq_false_iff.mpr hport)
  obtain ⟨-, hn⟩ := Bool.or_eq_false_iff.mp (Bool.eq_false_iff.mpr hslice)
  exact ⟨hp, hn⟩

/-- A port of a slice, numbered across the device. -/
theorem portSl_mul_add (n : Nat) (i : Fin 96) : portSl (96 * n + i) = n := by
  unfold portSl
  omega

/-- The head of a FIFO that nothing stops, on a lane that admits it, no Shogen frame of a fabric port. -/
theorem Hw.admitPort_of_received {n pipe : Nat} {i : Fin 96} {x : RxFrame} {r : List RxFrame}
    (hf : (h.port (96 * n + i)).fifo = x :: r) (hs : h.rxStop (96 * n + i) = none) (ha : h.admits n pipe = true)
    (hc : h.controlFrame (96 * n + i) x = false) :
    let k := (h.setPort (96 * n + i) { h.port (96 * n + i) with fifo := r }).pm n 0x01
    (k.fabricPort (96 * n + i) && etherType x.bytes == 0x88B5) = false →
      h.admitPort n pipe i .none = k.admitReceived n pipe (96 * n + i) x false := by
  intro k hk
  have hnone : (AdmitFault.none == AdmitFault.extractors) = false := rfl
  have hk' : k.controlFrame (96 * n + i) x = false := by
    unfold Hw.controlFrame
    rw [hk]
    rfl
  have htook : (h.setPort (96 * n + i) { h.port (96 * n + i) with fifo := r }).maskUse n [portWord (96 * n + i), sliceWord] =
      h.setPort (96 * n + i) { h.port (96 * n + i) with fifo := r } := by
    obtain ⟨hport, hslice⟩ := Hw.maskFails_of_no_stop hs
    rw [portSl_mul_add] at hport hslice
    refine Hw.maskUse_of_passing fun w hw => ?_
    rcases List.mem_pair.mp hw with rfl | rfl
    · exact hport
    · exact hslice
  unfold Hw.admitPort
  simp only [hf, hs, ha, hc, htook, Bool.not_true, Bool.false_and, Bool.or_self, Bool.false_eq_true, if_false, reduceCtorEq,
    hnone]
  rw [if_neg (by rw [hk']; exact Bool.false_ne_true), if_neg (by rw [hk]; exact Bool.false_ne_true)]

end

/-! ### Banked writes (R106) -/

/-- A word of a graph entry written to both extractors' copies, whose marks go: `names` are the words of its kind of entry. -/
def Hw.paPutBoth (h : Hw) (n bank v : Nat) (names : List RegName) (w ix : Nat) : Hw :=
  let name := nth names w .PA_STATE0
  let first := nth names 0 .PA_STATE0
  ((((h.setVal name (v &&& (regRow name).rw) ix n bank).setVal name (v &&& (regRow name).rw) ix n (bank + 2)).mark
    ⟨first, n, bank, ix⟩ false).mark ⟨first, n, bank + 2, ix⟩ false)

/-- Where an accepted banked write lands: the policy word, a port's configuration, a key map, or a graph entry. -/
def Hw.paPlace (h : Hw) (n bank off v : Nat) : Hw :=
  if off = 0x18 then h.setVal .PA_POLICY (v &&& (regRow .PA_POLICY).rw) 0 n bank
  else if 0x1000 ≤ off ∧ off < 0x1300 then h.setVal .PA_PORTCFG (v &&& (regRow .PA_PORTCFG).rw) ((off - 0x1000) / 8) n bank
  else if 0x1800 ≤ off ∧ off < 0x1880 then h.setVal .PA_TKMAP (v &&& (regRow .PA_TKMAP).rw) ((off - 0x1800) / 8) n bank
  else if 0x2000 ≤ off ∧ off < 0x3FC0 then h.paPutBoth n bank v paStateNames (off / 8 % 4) ((off - 0x2000) / 32)
  else if 0x4000 ≤ off ∧ off < 0x8000 then h.paPutBoth n bank v paTransNames (off / 8 % 2) ((off - 0x4000) / 16)
  else h

section
variable {h : Hw} {n bank off v : Nat}

theorem Hw.paWrite_of_bank_busy (hw : h.writeBank n = (bank, true)) : h.paWrite n off v = h.wr .PA_STATUS_write_refused 1 0 n := by
  unfold Hw.paWrite
  simp only [hw, Bool.true_or, if_true]

theorem Hw.paWrite_of_bad_word (hw : h.writeBank n = (bank, false)) (hb : h.on .PA_BANKCOPY_busy 0 n = false)
    (hv : h.paBadWord n bank off v = true) :
    h.paWrite n off v = (h.wr .PA_STATUS_write_refused 1 0 n).wr .PA_STATUS_refused_index (off / 8) 0 n := by
  unfold Hw.paWrite
  simp only [hw, hb, hv, Bool.or_self, Bool.false_eq_true, if_false, if_true]

/-- A word in range lands while the bank takes writes. -/
theorem Hw.paWrite_of_good_word (hw : h.writeBank n = (bank, false)) (hb : h.on .PA_BANKCOPY_busy 0 n = false)
    (hv : h.paBadWord n bank off v = false) : h.paWrite n off v = h.paPlace n bank off v := by
  unfold Hw.paWrite
  simp only [hw, hb, hv, Bool.or_self, Bool.false_eq_true, if_false]
  rfl

theorem Hw.paPlace_policy (ho : off = 0x18) :
    h.paPlace n bank off v = h.setVal .PA_POLICY (v &&& (regRow .PA_POLICY).rw) 0 n bank := if_pos ho

theorem Hw.paPlace_portCfg (hlo : 0x1000 ≤ off) (hhi : off < 0x1300) :
    h.paPlace n bank off v = h.setVal .PA_PORTCFG (v &&& (regRow .PA_PORTCFG).rw) ((off - 0x1000) / 8) n bank := by
  unfold Hw.paPlace
  rw [if_neg (by omega), if_pos ⟨hlo, hhi⟩]

theorem Hw.paPlace_keyMap (hlo : 0x1800 ≤ off) (hhi : off < 0x1880) :
    h.paPlace n bank off v = h.setVal .PA_TKMAP (v &&& (regRow .PA_TKMAP).rw) ((off - 0x1800) / 8) n bank := by
  unfold Hw.paPlace
  rw [if_neg (by omega), if_neg (by omega), if_pos ⟨hlo, hhi⟩]

theorem Hw.paPlace_state (hlo : 0x2000 ≤ off) (hhi : off < 0x3FC0) :
    h.paPlace n bank off v = h.paPutBoth n bank v paStateNames (off / 8 % 4) ((off - 0x2000) / 32) := by
  unfold Hw.paPlace
  rw [if_neg (by omega), if_neg (by omega), if_neg (by omega), if_pos ⟨hlo, hhi⟩]

theorem Hw.paPlace_transition (hlo : 0x4000 ≤ off) (hhi : off < 0x8000) :
    h.paPlace n bank off v = h.paPutBoth n bank v paTransNames (off / 8 % 2) ((off - 0x4000) / 16) := by
  unfold Hw.paPlace
  rw [if_neg (by omega), if_neg (by omega), if_neg (by omega), if_neg (by omega), if_pos ⟨hlo, hhi⟩]

end

/-! ### Copying a bank (R106) -/

theorem Hw.paBankcopy_of_idle {h : Hw} {n : Nat} (hb : h.bankBusy = false) (hc : h.on .PA_BANKCOPY_busy 0 n = false) :
    h.paBankcopy n = h.wr .PA_BANKCOPY_busy 1 0 n := by
  unfold Hw.paBankcopy
  simp only [hb, hc, Bool.false_and, Bool.or_self, Bool.false_eq_true, if_false]

/-! ### Scrubbing a graph entry (R107) -/

theorem Hw.over_nil {α : Type} (h : Hw) (f : Hw → α → Hw) : h.over [] f = h := rfl
theorem Hw.over_singleton {α : Type} (h : Hw) (a : α) (f : Hw → α → Hw) : h.over [a] f = f h a := rfl

/-- The words of an entry copied from one bank or copy of it to another. -/
def Hw.copyWords (h : Hw) (words : List RegName) (ix n src dst : Nat) : Hw :=
  h.over words (fun h w => h.setVal w (h.val w ix n src) ix n dst)

section
variable {ix n src dst : Nat}

/-- A word that is copied reads alike in both places, and one that does so goes on doing so. -/
theorem Hw.val_copied_word (hne : src ≠ dst) {h : Hw} {a w : RegName}
    (hw : a = w ∨ h.val w ix n dst = h.val w ix n src) :
    (h.setVal a (h.val a ix n src) ix n dst).val w ix n dst = (h.setVal a (h.val a ix n src) ix n dst).val w ix n src := by
  have hsrc : (h.setVal a (h.val a ix n src) ix n dst).val w ix n src = h.val w ix n src :=
    h.val_setVal_place a w (by simp [hne])
  rw [hsrc]
  by_cases ha : a = w
  · subst ha
    rw [Hw.val_setVal_same]
    exact Nat.mod_eq_of_lt (h.reg _).isLt
  · rw [Hw.val_setVal_other _ _ _ _ _ _ _ _ _ _ ha]
    exact hw.resolve_left ha

/-- Copying leaves the words that it reads. -/
theorem Hw.val_copyWords_source (hne : src ≠ dst) (h : Hw) (words : List RegName) (w : RegName) :
    (h.copyWords words ix n src dst).val w ix n src = h.val w ix n src :=
  Hw.over_keeps (fun k => k.val w ix n src = h.val w ix n src) _ _
    (fun k a hk => (k.val_setVal_place a w (by simp [hne])).trans hk) h rfl

/-- Every word of the entry reads, where it was copied to, as it did where it came from. -/
theorem Hw.val_copyWords_of_mem (hne : src ≠ dst) {h : Hw} {words : List RegName} {w : RegName} (hw : w ∈ words) :
    (h.copyWords words ix n src dst).val w ix n dst = h.val w ix n src := by
  rw [← Hw.val_copyWords_source hne h words w]
  induction words generalizing h with
  | nil => exact absurd hw List.not_mem_nil
  | cons a r ih =>
    rcases List.mem_cons.mp hw with rfl | hr
    · exact Hw.over_keeps (fun k => k.val w ix n dst = k.val w ix n src) r _
        (fun k b hk => Hw.val_copied_word hne (.inr hk)) _ (Hw.val_copied_word hne (.inl rfl))
    · exact ih hr

theorem Hw.fc_copyWords (h : Hw) (words : List RegName) : (h.copyWords words ix n src dst).fc = h.fc :=
  Hw.over_keeps (fun k => k.fc = h.fc) _ _ (fun k w hk => (k.setVal_fc w (k.val w ix n src) ix n dst).trans hk) h rfl

end

/-- The words of a graph entry, whose kind is named by its first word. -/
def paEntryWords (name : RegName) : List RegName := if name = .PA_STATE0 then paStateNames else paTransNames

/-- A second copy that fails is rewritten from the first, which passes; the scrub raises F-0x202. -/
theorem Hw.paScrubOne_of_second_failing {h : Hw} {n ed ix : Nat} {name : RegName} (hfirst : h.good ⟨name, n, ed, ix⟩ = true)
    (hsecond : h.good ⟨name, n, ed + 2, ix⟩ = false) :
    h.paScrubOne n (name, ed, ix) =
      ((h.copyWords (paEntryWords name) ix n ed (ed + 2)).mark ⟨name, n, ed + 2, ix⟩ false).raise 0x202 n := by
  unfold Hw.paScrubOne
  simp only [hfirst, hsecond, Bool.not_false, Bool.and_self, if_true]
  rfl

@[simp] theorem Hw.good_raise (h : Hw) (code origin : Nat) (r : Reg) : (h.raise code origin).good r = h.good r := (rfl)

theorem Hw.length_queue_raise (h : Hw) (code origin : Nat) :
    (h.raise code origin).fc.queue.length = h.fc.queue.length + 1 := List.length_append

section
variable {n : Slice} {s : State}

theorem exec_paScrub_of_no_suspects (hs : s.hw.paSuspects n = []) (hd : s.hw.paDiffer n = []) :
    exec (.paScrub n) s = .next s := by
  rw [exec_paScrub]
  refine onHw_stands ?_
  dsimp only
  rw [hs, Hw.over_nil, hd, Hw.over_nil]

theorem exec_paScrub_of_one_suspect {e : RegName × Nat × Nat} (hs : s.hw.paSuspects n = [e])
    (hd : (s.hw.paScrubOne n e).paDiffer n = []) : exec (.paScrub n) s = .next (s.setHw (s.hw.paScrubOne n e)) := by
  rw [exec_paScrub]
  refine onHw_eq ?_
  dsimp only
  rw [hs, Hw.over_singleton, hd, Hw.over_nil]

end

/-! ### The parser's commands -/

@[simp] theorem State.setHw_hw (s : State) (h : Hw) : (s.setHw h).hw = h := rfl

theorem State.sameOutside_setHw (s : State) (h : Hw) : s.SameOutside (s.setHw h) := ⟨rfl, rfl, rfl⟩

theorem exec_paBankedWrite_next (n : Slice) (off : BitVec 20) (v : Word) (s : State) :
    exec (.paBankedWrite n off v) s = .next (s.setHw (s.hw.paWrite n (off.toNat / 8 * 8) v.toNat)) := by
  rw [exec_paBankedWrite]
  exact onHw_next _ s

theorem exec_paBankcopy_next (n : Slice) (s : State) : exec (.paBankcopy n) s = .next (s.setHw (s.hw.paBankcopy n)) := by
  rw [exec_paBankcopy]
  exact onHw_next _ s

theorem exec_paBankcopyDone_of_busy {n : Slice} {s : State} (hb : s.hw.on .PA_BANKCOPY_busy 0 n = true) :
    exec (.paBankcopyDone n) s = .next (s.setHw
      (((s.hw.copyBank paBanked n s.hw.current s.hw.next).wr .PA_BANKCOPY_busy 0 0 n).wr .PA_STATUS_copy_done 1 0 n)) := by
  rw [exec_paBankcopyDone]
  exact onHw_eq (if_pos hb)

/-- Settles O6: the admission by its lemma, each banked write by the lemma for its place, the copy's two ends, and the scrub by what
it does to its one suspect. -/
theorem frameAdmission : Obligations.FrameAdmission := by
  refine ⟨fun n pipe i x r s hf hs ha hc => ?_, fun n off v bank s hw hb => ⟨fun hv => ?_, fun hv => ?_⟩,
    fun n off v bank s hw => ?_, fun n s hb hc => ?_, fun n s => exec_paBankcopyDone_of_busy,
    fun n s hsus hd => ?_, fun n ed ix s hsus hfirst hsecond hd => ?_⟩
  · intro h hk
    rw [exec_parserAdmit]
    exact onTx_eq (Hw.admitPort_of_received hf hs ha hc hk)
  · rw [exec_paBankedWrite_next, Hw.paWrite_of_bad_word hw hb hv]
  · rw [exec_paBankedWrite_next, Hw.paWrite_of_good_word hw hb hv]
    refine ⟨fun ho => ?_, fun hlo hhi => ?_, fun hlo hhi => ?_, fun hlo hhi => ?_, fun hlo hhi => ?_⟩
    · rw [Hw.paPlace_policy ho]
    · rw [Hw.paPlace_portCfg hlo hhi]
    · rw [Hw.paPlace_keyMap hlo hhi]
    · rw [Hw.paPlace_state hlo hhi]
      rfl
    · rw [Hw.paPlace_transition hlo hhi]
      rfl
  · rw [exec_paBankedWrite_next, Hw.paWrite_of_bank_busy hw]
  · rw [exec_paBankcopy_next, Hw.paBankcopy_of_idle hb hc]
  · exact exec_paScrub_of_no_suspects hsus hd
  · have hone := Hw.paScrubOne_of_second_failing hfirst hsecond
    have hexec := exec_paScrub_of_one_suspect hsus hd
    rw [hone] at hexec
    refine ⟨_, hexec, ?_, fun w hw => ?_, ?_, s.sameOutside_setHw _⟩
    · rw [State.setHw_hw, Hw.good_raise]
      exact Hw.good_mark_passing _ _
    · rw [State.setHw_hw, Hw.raise_val, Hw.mark_val]
      exact Hw.val_copyWords_of_mem (by omega) hw
    · rw [State.setHw_hw, Hw.length_queue_raise, Hw.mark_fc, Hw.fc_copyWords]

end Sys2Proof.Machine
end

section
/-! The countersign and the replica of the freeze masks (R29, R40, R44): a copy that nothing refuses is delivered, and each word of its
own slice's replica that its decision used and that fails its check raises F-0x820. The freeze of a port is read in the slice of the
port, so for a copy whose egress port lies in another slice the two are not the same words. -/

namespace Sys2Proof.Machine

/-- The replica words that the decision on a copy uses. -/
def Ctx.maskWords (x : Ctx) (e : EgCtx) : List Nat := [tenantWord (mdTenant x.pmd), portWord e.port, sliceWord]

/-- A copy in its turn on an UP port, whose evidence delivers, and which no freeze covers, is delivered once the replica words are
checked. -/
theorem exec_countersign_of_sound {n : Slice} {c : Nat} {x : Ctx} {e : EgCtx} {ev : Evidence} {h : Hw} {s : State}
    (hx : s.hw.ctx? c = some x) (he : x.eg = some e) (hsl : x.sl = n.val) (hph : x.ph = .countersign)
    (hturn : s.hw.csBehind x e.port = false) (hup : s.hw.link e.port = 5)
    (hj : s.hw.csJudge x.sl x.pipe e.port x.pmd e.out = (ev, none, h))
    (hfree : (h.maskUse x.sl (x.maskWords e)).csFrozen x.sl e.port (mdTenant x.pmd) = none) (hev : ev.delivers = true) :
    exec (.countersign n c true) s =
      .next (s.setDev (({ s.dev with hw := h.maskUse x.sl (x.maskWords e) } : Dev).deliverCopy x e ev).settle) := by
  unfold Ctx.maskWords at hfree
  have hdecide : s.dev.decide x e true = ({ s.dev with hw := h.maskUse x.sl (x.maskWords e) } : Dev).deliverCopy x e ev := by
    unfold Dev.decide
    simp only [hj, hfree, hev, lowerReason, if_true]
    rfl
  rw [exec_countersign]
  refine onDev_eq ?_
  simp only [hx, he, hsl, hph, hturn, hup, hdecide, ne_eq, not_true_eq_false, Bool.false_eq_true, or_self, if_false, if_true]

/-! ### A copy whose port lies in another slice -/

/-- A copy of slice 0 for port 101, which lies in slice 1, with its tenant in its Shogen header. -/
def strayEg : EgCtx :=
  ⟨3, 101, 0, 0, false, false, false, 0, 0, [], 0, List.replicate 12 0#8 ++ [0x88#8, 0xB5#8] ++ List.replicate 4 0#8 ++ [0#8, 7#8],
    true, none⟩

/-- Its context, of tenant 7, before the countersign. -/
def strayCtx : Ctx :=
  ⟨3, 0, 2, 15, .countersign, List.replicate 256 0#8, List.replicate 64 0#8,
    beBytes 2 7 ++ beBytes 2 (tagCheck 7 0 0 0) ++ List.replicate 60 0#8, List.replicate 16 0#32, List.replicate 4 false,
    List.replicate 16 false, List.replicate 8 0#128, [], 0, [], [], [], [], [], 0, ⟨false, false, false, none, [], [], false⟩, [],
    some 0, clerkInfo 0, some strayEg⟩

/-- Port 101 is UP under the key kind FABRIC, and in slice 0 the replica word that holds its bit fails its check. -/
def strayHw : Hw :=
  { ((Hw.reset.ptWr .PT_STATUS_state 101 5).wr .CS_PORTCFG_key_kind 7 5 1).mark ⟨.A_FREEZE, 0, 0, portWord 101⟩ true with
    ctxs := [strayCtx] }

/-- The state with that hardware. -/
def strayState : State := State.reset.setHw strayHw

/-- What the countersign finds on the copy. -/
def strayEvidence : Evidence := ⟨7, 7, true, some 7, none, false⟩

/-- Whether a record of a code waits for the collector in the state that an outcome goes on to. -/
def recordedAfter (code : Nat) : Host.Outcome State Fault Refusal → Bool
  | .next t => t.hw.fc.queue.any (·.code == code)
  | _ => false

/-- Refutes O7: the delivery that it states leaves the replica words out. `strayState` meets its hypotheses (evidence that delivers, an
UP port, no freeze in force, the word of port 101 being sound in slice 1), and the countersign of slice 0 raises F-0x820 for its own
copy of that word before it delivers. -/
theorem not_stageExecution : ¬ Obligations.StageExecution := by
  unfold Obligations.StageExecution
  rintro ⟨-, -, -, -, -, -, hdeliver⟩
  have hx : strayState.hw.ctx? 3 = some strayCtx := by decide +kernel
  have hturn : strayState.hw.csBehind strayCtx 101 = false := by decide +kernel
  have hup : strayState.hw.link 101 = 5 := by decide +kernel
  have hj : strayState.hw.csJudge 0 2 101 strayCtx.pmd strayEg.out = (strayEvidence, none, strayHw) := by decide +kernel
  have hfree : strayHw.csFrozen 0 101 (mdTenant strayCtx.pmd) = none := by decide +kernel
  have hfree' : (strayHw.maskUse 0 (strayCtx.maskWords strayEg)).csFrozen 0 101 (mdTenant strayCtx.pmd) = none := by decide +kernel
  have hclaim := hdeliver 0 3 strayCtx strayEg strayEvidence strayHw strayState hx rfl rfl rfl hturn hup hj hfree rfl
  rw [exec_countersign_of_sound hx rfl rfl rfl hturn hup hj hfree' rfl] at hclaim
  have hraised : recordedAfter 0x820 (.next (strayState.setDev (({ strayState.dev with
      hw := strayHw.maskUse 0 (strayCtx.maskWords strayEg) } : Dev).deliverCopy strayCtx strayEg strayEvidence).settle)) = true := by
    decide +kernel
  have hsilent : recordedAfter 0x820 (.next (strayState.setDev (({ strayState.dev with
      hw := strayHw } : Dev).deliverCopy strayCtx strayEg strayEvidence).settle)) = false := by
    decide +kernel
  have hsame := congrArg (recordedAfter 0x820) hclaim
  exact Bool.false_ne_true (hsilent.symm.trans (hsame.symm.trans hraised))

end Sys2Proof.Machine
end

section
/-! Lookups (R123, R124, R126): a search answers the oldest unsearched launch of its frame to the table. -/

namespace Sys2Proof.Machine

/-! ### The search of a table -/

section
variable {h : Hw} {n c table : Nat} {f : Hw → Ctx → Launch → Hw × Ctx × BitVec 128 × Nat} {x : Ctx}

/-- A context that is held is the frame that a lookup belongs to. -/
theorem Hw.lookupOf_of_ctx (hx : h.ctx? c = some x) : h.lookupOf c = some x := by
  unfold Hw.lookupOf
  rw [hx]
  rfl

theorem Hw.search_of_no_launch (hx : h.lookupOf c = some x) (hl : x.launch? table = none) : h.search n c table f = h := by
  unfold Hw.search
  simp only [hx, hl, ite_self]

/-- The launch that is found takes what the table's search answers, and a hit is counted. -/
theorem Hw.search_of_launch {l : Launch} {k : Hw} {y : Ctx} {r : BitVec 128} {reason : Nat} (hx : h.lookupOf c = some x)
    (hsl : x.sl = n) (hl : x.launch? table = some l) (hf : f h x l = (k, y, r, reason)) :
    h.search n c table f =
      if bit r.toNat 127 then
        (k.landed (y.land table r reason)).pm n 0x31 1 (some table) y.pipe (some (mdTenant y.pmd))
      else k.landed (y.land table r reason) := by
  unfold Hw.search
  simp only [hx, hsl, hl, hf, if_true]

end

/-! ### The commands -/

/-- A command answers the launch to its table that it finds with its frame, and stands where it finds none. -/
def Looks (i : Instr) (n : Slice) (c table : Nat) (f : Hw → Ctx → Launch → Hw × Ctx × BitVec 128 × Nat) (s : State) : Prop :=
  (∀ x l h y r reason, s.hw.lookupOf c = some x → x.sl = n.val → x.launch? table = some l → f s.hw x l = (h, y, r, reason) →
    exec i s = .next (s.setHw
      (if bit r.toNat 127 = true then
        (h.landed (y.land table r reason)).pm n 0x31 1 (some table) y.pipe (some (mdTenant y.pmd))
      else h.landed (y.land table r reason)))) ∧
  (∀ x, s.hw.lookupOf c = some x → x.launch? table = none → exec i s = .next s)

section
variable {n : Slice} {c : Nat} {s : State}

/-- Whatever the table, a command that searches it looks its frame's launch up. -/
theorem looks_of_search {i : Instr} {table : Nat} {f : Hw → Ctx → Launch → Hw × Ctx × BitVec 128 × Nat}
    (hexec : exec i s = .next (s.setHw (s.hw.search n c table f))) : Looks i n c table f s := by
  refine ⟨fun x l h y r reason hx hsl hl hf => ?_, fun x hx hl => ?_⟩
  · rw [hexec, Hw.search_of_launch hx hsl hl hf]
  · rw [hexec, Hw.search_of_no_launch hx hl]
    rfl

/-- An HX lookup that does not wait searches like the others. -/
theorem exec_hxLookup_of_ready (hw : s.hw.hxWaits c = false) :
    exec (.hxLookup n c) s = .next (s.setHw (s.hw.search n c 6 (hxSearch n))) := by
  rw [exec_hxLookup]
  exact onHw_eq (if_neg (by rw [hw]; exact Bool.false_ne_true))

theorem exec_hxLookup_of_waiting (hw : s.hw.hxWaits c = true) : exec (.hxLookup n c) s = .next s := by
  rw [exec_hxLookup]
  exact onHw_stands (if_pos hw)

end

/-- Settles O8: five commands are a search of their table, and the sixth is one unless it waits. -/
theorem lookupLanding : Obligations.LookupLanding := by
  intro n c s
  refine ⟨looks_of_search ?_, looks_of_search ?_, looks_of_search ?_, looks_of_search ?_, looks_of_search ?_,
    fun hw => looks_of_search (exec_hxLookup_of_ready hw), exec_hxLookup_of_waiting, fun x => Hw.lookupOf_of_ctx⟩
  · rw [exec_tcLookup]
    exact onHw_next _ s
  · rw [exec_gcLookup]
    exact onHw_next _ s
  · rw [exec_clLookup]
    exact onHw_next _ s
  · rw [exec_lpLookup]
    exact onHw_next _ s
  · rw [exec_exLookup]
    exact onHw_next _ s

end Sys2Proof.Machine
end

section
/-! The stage stores (R128, R146, R157 to R159): a banked word written in both copies of its bank, a nano-word staged and committed,
the copy of a bank, the program counters, and the head of the recirculation queue picked. -/

namespace Sys2Proof.Machine

/-! ### Banked writes (R157) -/

section
variable {h : Hw} {n : Nat}

/-- A slice that is not in RETENTION takes banked writes into the next edition's bank. -/
theorem Hw.writeBank_of_running (hp : h.slicePower n ≠ 1) (hb : h.bankBusy = false) : h.writeBank n = (h.next, false) := by
  unfold Hw.writeBank
  rw [if_neg hp, hb]

variable {bank engine block off : Nat} {cause : Nat → Nat} {put : Hw → Nat → Hw}

/-- With a bank that takes writes and no copy busy, an acceptable word is made in that bank. -/
theorem Hw.seWrite_of_accepted (hw : h.writeBank n = (bank, false)) (hc : h.on .SE_BANKCOPY_busy 0 n = false)
    (hv : cause bank = 0) : h.seWrite n engine block off cause put = put h bank := by
  unfold Hw.seWrite
  simp only [hw, hc, hv, Bool.false_eq_true, if_false, ne_eq, not_true_eq_false]

theorem Hw.seWrite_of_cause (hw : h.writeBank n = (bank, false)) (hc : h.on .SE_BANKCOPY_busy 0 n = false)
    (hv : cause bank ≠ 0) : h.seWrite n engine block off cause put = h.seRefuse n (cause bank) engine block off := by
  unfold Hw.seWrite
  simp only [hw, hc, Bool.false_eq_true, if_false, if_pos hv]

variable {v : Nat}

theorem Hw.seBankedWrite_entry (hw : h.writeBank n = (bank, false)) (hc : h.on .SE_BANKCOPY_busy 0 n = false)
    (hlo : 0x100 ≤ off) (hhi : off < 0x180) :
    h.seBankedWrite n off v = h.setStore .SE_ENTRY n bank ((off - 0x100) / 8) (v % 2048) := by
  unfold Hw.seBankedWrite
  rw [if_pos ⟨hlo, hhi⟩]
  exact Hw.seWrite_of_accepted hw hc rfl

theorem Hw.seBankedWrite_refBase (hw : h.writeBank n = (bank, false)) (hc : h.on .SE_BANKCOPY_busy 0 n = false)
    (ho : off = 0x400) : h.seBankedWrite n off v = h.setStore .SE_REFBASE n bank 0 (v &&& 0xFF0000FFFFFFFC00) := by
  unfold Hw.seBankedWrite
  rw [if_neg (by omega), if_pos ho]
  exact Hw.seWrite_of_accepted hw hc rfl

end

/-! ### Words written in both copies of a bank -/

theorem Hw.each_succ (h : Hw) (m : Nat) (f : Hw → Nat → Hw) : h.each (m + 1) f = f (h.each m f) m := by
  unfold Hw.each
  rw [List.range_succ, List.foldl_append]
  rfl

section
variable (h : Hw) (name : RegName) (n bank ix v : Nat)

theorem Hw.val_setStore_first : (h.setStore name n bank ix v).val name ix n bank = v % 2 ^ 64 := by
  unfold Hw.setStore
  rw [Hw.mark_val, Hw.mark_val, Hw.val_setVal_place _ _ _ (by simp), Hw.val_setVal_same]

theorem Hw.val_setStore_second : (h.setStore name n bank ix v).val name ix n (bank + 2) = v % 2 ^ 64 := by
  unfold Hw.setStore
  rw [Hw.mark_val, Hw.mark_val, Hw.val_setVal_same]

variable {ix} in
theorem Hw.val_setStore_other {ix' : Nat} (hix : ix' ≠ ix) (b : Nat) :
    (h.setStore name n bank ix v).val name ix' n b = h.val name ix' n b := by
  unfold Hw.setStore
  rw [Hw.mark_val, Hw.mark_val, Hw.val_setVal_place _ _ _ (by simp [hix]), Hw.val_setVal_place _ _ _ (by simp [hix])]

variable {bank} in
theorem Hw.reg_setStore_other {r : Reg} (hfirst : r.bank ≠ bank) (hsecond : r.bank ≠ bank + 2) :
    (h.setStore name n bank ix v).reg r = h.reg r := by
  have hne : ∀ b, r.bank ≠ b → r ≠ ⟨name, n, b, ix⟩ := fun b hb he => hb (congrArg Reg.bank he)
  unfold Hw.setStore Hw.setVal
  rw [Hw.mark_reg, Hw.mark_reg, Hw.reg_setReg_other _ _ (hne _ hsecond), Hw.reg_setReg_other _ _ (hne _ hfirst)]

end

/-- Consecutive store words written, each in both copies of its bank. -/
def Hw.setStores (h : Hw) (name : RegName) (n bank base m : Nat) (g : Nat → Nat) : Hw :=
  h.each m (fun h k => h.setStore name n bank (base + k) (g k))

section
variable (h : Hw) (name : RegName) (n : Nat) {bank : Nat} (base m : Nat) (g : Nat → Nat)

/-- Each word reads in both copies as it was written. -/
theorem Hw.val_setStores {k : Nat} (hk : k < m) :
    (h.setStores name n bank base m g).val name (base + k) n bank = g k % 2 ^ 64 ∧
      (h.setStores name n bank base m g).val name (base + k) n (bank + 2) = g k % 2 ^ 64 := by
  unfold Hw.setStores
  induction m with
  | zero => exact absurd hk (Nat.not_lt_zero k)
  | succ m ih =>
    rw [Hw.each_succ]
    rcases Nat.lt_succ_iff_lt_or_eq.mp hk with hlt | rfl
    · have hix : base + k ≠ base + m := by omega
      rw [Hw.val_setStore_other _ _ _ _ _ hix, Hw.val_setStore_other _ _ _ _ _ hix]
      exact ih hlt
    · exact ⟨Hw.val_setStore_first _ _ _ _ _ _, Hw.val_setStore_second _ _ _ _ _ _⟩

theorem Hw.reg_setStores_other {r : Reg} (hfirst : r.bank ≠ bank) (hsecond : r.bank ≠ bank + 2) :
    (h.setStores name n bank base m g).reg r = h.reg r :=
  Hw.each_keeps (fun k => k.reg r = h.reg r) _ _
    (fun k _ hk => (k.reg_setStore_other _ _ _ _ hfirst hsecond).trans hk) h rfl

end

/-! ### A nano-word staged and committed (R157) -/

/-- The words staged for an engine. -/
def Hw.stagedWords (h : Hw) (n e : Nat) : List Nat := (List.range 7).map (fun w => (h.reg (stagedWord n e w)).toNat)

/-- The staging words of an engine cleared. -/
def Hw.unstage (h : Hw) (n e m : Nat) : Hw := h.each m (fun h w => h.setReg (stagedWord n e w) 0)

/-- A nano-word noted among those that its bank holds. -/
def Hw.noteWritten (h : Hw) (m : Reg) : Hw := if h.wrote.contains m then h else { h with wrote := h.wrote ++ [m] }

section
variable (h : Hw)

theorem Hw.mem_wrote_noteWritten (m : Reg) : m ∈ (h.noteWritten m).wrote := by
  unfold Hw.noteWritten
  split
  · next hm => exact List.contains_iff_mem.mp hm
  · exact List.mem_append_right _ (List.mem_singleton_self m)

@[simp] theorem Hw.reg_noteWritten (m r : Reg) : (h.noteWritten m).reg r = h.reg r := by
  unfold Hw.noteWritten
  split <;> rfl

@[simp] theorem Hw.val_noteWritten (m : Reg) (name : RegName) (ix sl bank : Nat) :
    (h.noteWritten m).val name ix sl bank = h.val name ix sl bank := congrArg BitVec.toNat (h.reg_noteWritten m _)

variable (n e m : Nat)

theorem Hw.reg_unstage_staged {w : Nat} (hw : w < m) : (h.unstage n e m).reg (stagedWord n e w) = 0 := by
  unfold Hw.unstage
  induction m with
  | zero => exact absurd hw (Nat.not_lt_zero w)
  | succ m ih =>
    rw [Hw.each_succ]
    rcases Nat.lt_succ_iff_lt_or_eq.mp hw with hlt | rfl
    · rw [Hw.reg_setReg_other _ _ (by simp [stagedWord, hlt.ne])]
      exact ih hlt
    · exact Hw.reg_setReg_same _ _ _

/-- Clearing the staging words leaves every register but the nano-words. -/
theorem Hw.rd_unstage {f : Fld} (hf : f.reg ≠ .NS_NW) (ix sl bank : Nat) :
    (h.unstage n e m).rd f ix sl bank = h.rd f ix sl bank :=
  Hw.each_keeps (fun k => k.rd f ix sl bank = h.rd f ix sl bank) _ _
    (fun _ _ hk => (Hw.rd_setReg_other fun he => hf (congrArg Reg.name he)).trans hk) h rfl

theorem Hw.writeBank_unstage (sl : Nat) : (h.unstage n e m).writeBank sl = h.writeBank sl := by
  unfold Hw.writeBank Hw.slicePower Hw.next Hw.current Hw.bankBusy
  simp only [Hw.rd_unstage h n e m (f := .PW_SLICESTAT_state) (by decide),
    Hw.rd_unstage h n e m (f := .PW_SLICECMD_load_bank) (by decide), Hw.rd_unstage h n e m (f := .ED_STATUS_current) (by decide),
    Hw.rd_unstage h n e m (f := .ED_STATUS_other_state) (by decide)]

end

section
variable {h : Hw} {n e x v bank : Nat}

/-- Word 7 commits an acceptable nano-word: the staging words are cleared, and its eight words enter both copies of the bank. -/
theorem Hw.nanoCommit_of_accepted (hw : h.writeBank n = (bank, false)) (hc : h.on .SE_BANKCOPY_busy 0 n = false)
    (hv : nanoCause false e (wordsNat (h.stagedWords n e ++ [v])) = 0) :
    h.nanoCommit n e x v =
      ((h.unstage n e 7).setStores .NS_NW n bank ((1024 * e + x) * 8) 8 (fun k => nth (h.stagedWords n e ++ [v]) k 0)).noteWritten
        ⟨.NS_NW, n, bank, 1024 * e + x⟩ := by
  have hw' : (h.unstage n e 7).writeBank n = (bank, false) := (h.writeBank_unstage n e 7 n).trans hw
  have hc' : (h.unstage n e 7).on .SE_BANKCOPY_busy 0 n = false := by
    unfold Hw.on at hc ⊢
    rwa [Hw.rd_unstage h n e 7 (by decide)]
  unfold Hw.nanoCommit
  exact Hw.seWrite_of_accepted hw' hc' hv

/-- The words of a nano-word fit their registers. -/
theorem nth_stagedWords_lt (hv : v < 2 ^ 64) {k : Nat} (hk : k < 8) : nth (h.stagedWords n e ++ [v]) k 0 < 2 ^ 64 := by
  have hlen : (h.stagedWords n e ++ [v]).length = 8 := rfl
  unfold nth
  rw [List.getD_eq_getElem _ _ (hlen.symm ▸ hk)]
  have hall : ∀ y ∈ h.stagedWords n e ++ [v], y < 2 ^ 64 := by
    intro y hy
    rcases List.mem_append.mp hy with hy | hy
    · obtain ⟨w, -, rfl⟩ := List.mem_map.mp hy
      exact BitVec.isLt _
    · exact List.mem_singleton.mp hy ▸ hv
  exact hall _ (List.getElem_mem _)

end

/-! ### Program counters (R128) -/

/-- The indexed program counter shown in the result registers. -/
def Hw.pcntShown (h : Hw) (n : Nat) : Hw :=
  let i := h.rd .SE_PCNT_INDEX_index 0 n
  (h.setVal .SE_PCNT_PKTS (h.val .A_PCP i n) 0 n).setVal .SE_PCNT_BYTES (h.val .A_PCB i n) 0 n

theorem Hw.pcnt_of_idle {h : Hw} {n : Nat} (hb : h.on .SE_PCNT_CMD_busy 0 n = false) :
    let i := h.rd .SE_PCNT_INDEX_index 0 n
    h.pcnt n true false = h.pcntShown n ∧
      h.pcnt n true true = ((h.pcntShown n).setVal .A_PCP 0 i n).setVal .A_PCB 0 i n ∧
      h.pcnt n false true = (h.setVal .A_PCP 0 i n).setVal .A_PCB 0 i n := by
  unfold Hw.pcnt
  rw [hb]
  exact ⟨rfl, rfl, rfl⟩

/-! ### Bank copies (R158) -/

/-- Which nano-words the banks hold once a slice's next bank has taken the current one's. -/
def Hw.wroteCopied (h : Hw) (n : Nat) : List Reg :=
  h.wrote.filter (fun r => !(r.sl == n && r.bank == h.next)) ++
    (h.wrote.filter (fun r => r.sl == n && r.bank == h.current)).map (fun r => { r with bank := h.next })

theorem Hw.wr_withWrote (h : Hw) (l : List Reg) (f : Fld) (v ix sl : Nat) :
    ({ h with wrote := l } : Hw).wr f v ix sl = { h.wr f v ix sl with wrote := l } := rfl

/-! ### The commands -/

theorem exec_microwordWrite_next (n : Slice) (e : Fin 16) (a : Fin 2048) (v : Word) (s : State) :
    exec (.microwordWrite n e a v) s = .next (s.setHw (s.hw.microWrite n e a v.toNat)) := by
  rw [exec_microwordWrite]
  exact onHw_next _ s

theorem exec_seBankedWrite_next (n : Slice) (off : BitVec 20) (v : Word) (s : State) :
    exec (.seBankedWrite n off v) s = .next (s.setHw (s.hw.seBankedWrite n (off.toNat / 8 * 8) v.toNat)) := by
  rw [exec_seBankedWrite]
  exact onHw_next _ s

section
variable {n : Slice} {s : State}

theorem exec_nanoWordCommit_of_accepted {e : Fin 16} {x : Fin 1024} {v : Word} {bank : Nat}
    (hw : s.hw.writeBank n = (bank, false)) (hc : s.hw.on .SE_BANKCOPY_busy 0 n = false)
    (hv : nanoCause false e (wordsNat (s.hw.stagedWords n e ++ [v.toNat])) = 0) :
    exec (.nanoWordCommit n e x v) s = .next (s.setHw
      (((s.hw.unstage n e 7).setStores .NS_NW n bank ((1024 * e + x) * 8) 8
        (fun k => nth (s.hw.stagedWords n e ++ [v.toNat]) k 0)).noteWritten ⟨.NS_NW, n, bank, 1024 * e + x⟩)) := by
  rw [exec_nanoWordCommit]
  exact onHw_eq (Hw.nanoCommit_of_accepted hw hc hv)

theorem exec_seBankcopy_of_idle (hb : s.hw.bankBusy = false) (hc : s.hw.on .SE_BANKCOPY_busy 0 n = false) :
    exec (.seBankcopy n) s = .next (s.setHw (s.hw.wr .SE_BANKCOPY_busy 1 0 n)) := by
  rw [exec_seBankcopy]
  refine onHw_eq ?_
  unfold Hw.seBankcopy
  simp only [hb, hc, Bool.false_and, Bool.false_eq_true, if_false]

/-- The end of a bank copy: the next bank holds the current words, and which nano-words it holds follows them. -/
theorem exec_seBankcopyDone_of_busy (hb : s.hw.on .SE_BANKCOPY_busy 0 n = true) :
    let k := s.hw.copyBank seBanked n s.hw.current s.hw.next
    exec (.seBankcopyDone n) s = .next (s.setHw
      { (k.wr .SE_BANKCOPY_busy 0 0 n).wr .SE_STATUS_copy_done 1 0 n with wrote := k.wroteCopied n }) := by
  intro k
  rw [exec_seBankcopyDone]
  refine onHw_eq ((if_pos hb).trans ?_)
  rw [← Hw.wr_withWrote, ← Hw.wr_withWrote]
  rfl

theorem exec_seScrub_of_no_suspects (hs : s.hw.seSuspects n = []) : exec (.seScrub n) s = .next s := by
  rw [exec_seScrub]
  refine onHw_stands ?_
  rw [hs, Hw.over_nil]

theorem exec_recircPick_of_visible {pipe : Fin 9} {c : QCopy} {r : List QCopy} (ht : s.hw.takesEgress n pipe = true)
    (hd : ((s.hw.checkLink n rcq).queue n rcq).die = c :: r) (hv : c.visible = true) :
    exec (.recircPick n pipe) s = .next (s.setHw
      (((s.hw.checkLink n rcq).dequeue n rcq c).sendCopy n pipe rcq c false none)) := by
  rw [exec_recircPick]
  refine onHw_eq ?_
  simp only [ht, hd, hv, Bool.not_true, Bool.false_eq_true, if_false, if_true]

end

/-- Settles O9: each write by the bank that takes it, the commit of a nano-word by what its eight words and its staging words then
read, and the other commands by their lemmas. -/
theorem storeLoading : Obligations.StoreLoading := by
  refine ⟨fun n e x w v s => ?_, fun n e x v bank s hp hb hnext hc => ?_, fun n e a v bank s hw hc => ⟨fun hv => ?_, fun hv => ?_⟩,
    fun n off v bank s hw hc => ⟨fun hlo hhi => ?_, fun ho => ?_⟩, fun n s => exec_seBankcopy_of_idle, fun n s hb => ?_,
    fun n s => exec_seScrub_of_no_suspects, fun n s hb => ?_, fun n pipe c r s => exec_recircPick_of_visible⟩
  · rw [exec_nanoWordStage]
    exact onHw_next _ s
  · intro ws hv
    have hw : s.hw.writeBank n = (bank, false) := by rw [Hw.writeBank_of_running hp hb, hnext]
    have hbank : bank ≤ 1 := hnext ▸ Nat.sub_le 1 _
    refine ⟨_, exec_nanoWordCommit_of_accepted hw hc hv, fun k hk => ?_,
      fun w hw => ?_, s.sameOutside_setHw _, Hw.mem_wrote_noteWritten _ _⟩
    · obtain ⟨hfirst, hsecond⟩ := Hw.val_setStores (s.hw.unstage n e 7) .NS_NW n (bank := bank) ((1024 * e + x) * 8) 8
        (fun k => nth (s.hw.stagedWords n e ++ [v.toNat]) k 0) hk
      rw [Nat.mod_eq_of_lt (nth_stagedWords_lt v.isLt hk)] at hfirst hsecond
      rw [State.setHw_hw, Hw.val_noteWritten, Hw.val_noteWritten]
      exact ⟨hfirst, hsecond⟩
    · have hstage : (stagedWord n e w).bank = 8 := rfl
      rw [State.setHw_hw, Hw.reg_noteWritten, Hw.reg_setStores_other _ _ _ _ _ _ (by omega) (by omega),
        Hw.reg_unstage_staged _ _ _ _ hw]
  · rw [exec_microwordWrite_next, Hw.microWrite, Hw.seWrite_of_accepted hw hc hv]
  · rw [exec_microwordWrite_next, Hw.microWrite, Hw.seWrite_of_cause hw hc hv]
  · rw [exec_seBankedWrite_next, Hw.seBankedWrite_entry hw hc hlo hhi]
  · rw [exec_seBankedWrite_next, Hw.seBankedWrite_refBase hw hc ho]
  · exact ⟨_, exec_seBankcopyDone_of_busy hb, rfl, s.sameOutside_setHw _⟩
  · obtain ⟨hread, hboth, hclear⟩ := Hw.pcnt_of_idle hb
    refine ⟨?_, ?_, ?_⟩
    · rw [exec_pcntRead]
      exact onHw_eq hread
    · rw [exec_pcntReadClear]
      exact onHw_eq hboth
    · rw [exec_pcntClear]
      exact onHw_eq hclear

end Sys2Proof.Machine
end

section
/-! The clerks at work (R112, R135, R136, R141, R371): a microword that succeeds or fails as a whole, a load that returns, and a word
of a block fill. -/

namespace Sys2Proof.Machine

/-! ### A microword (R141) -/

/-- A clerk's registers and conditions with what the operations of a nano-word wrote. -/
def Hw.operated (h : Hw) (c : Clerk) (w nano : Nat) : Hw :=
  let r := (h.clerkEnv c (uwImm w)).operations [] h.now nano
  h.setClerk c (fun x => { x with x := r.reg.map (BitVec.ofNat 64), c := r.cond.take 16 })

/-- What the memory slots of a microword do behind its operations; they read the registers that stood before these. -/
def Hw.memRun (h : Hw) (c : Clerk) (w nano : Nat) : MemRun :=
  MemRun.slots ⟨h.operated c w nano, 0, 0, [], [], none, false⟩ c (h.clerkEnv c (uwImm w)) nano

/-- The registers, loads and CAS outcome of memory slots that have not failed. -/
def MemRun.stand (m : MemRun) (c : Clerk) : Hw :=
  m.hw.setClerk c (fun x => { m.regs.foldl (fun (x : ClerkSt) p => x.put p.1 p.2) x with
    cas := m.cas.getD x.cas, loads := x.loads ++ m.loads })

section
variable {h : Hw} {c : Clerk} {w nano : Nat}

/-- Everything that a microword did stands, and the clerk goes on. -/
theorem Hw.microword_of_success (hm : (h.memRun c w nano).cause = 0) (hmoved : (h.memRun c w nano).moved = false)
    (hseq : h.seqCause c w = 0) : h.microword c w nano = ((((h.memRun c w nano).stand c).goOn c w).pmClerk c 1).watch := by
  unfold Hw.memRun Hw.operated at hm hmoved
  unfold Hw.microword
  simp only [hm, hmoved, hseq, ne_eq, not_true_eq_false, Bool.not_false, Bool.true_and, bne_self_eq_false, Bool.false_eq_true,
    if_false]
  rfl

/-- After a slot that failed nothing stands but the exception; 5, an error of the access itself, is recorded by the memory too. -/
theorem Hw.microword_of_failure (hm : (h.memRun c w nano).cause ≠ 0) (h5 : (h.memRun c w nano).cause ≠ 5) :
    h.microword c w nano = h.clerkExcept c (h.memRun c w nano).cause (h.clerk c).ua (h.memRun c w nano).addr := by
  unfold Hw.memRun Hw.operated at hm h5
  unfold Hw.microword
  simp only [if_pos hm, if_neg h5]
  rfl

end

section
variable {c : Clerk} {w nano : Nat} {h : Hw} {s : State}

theorem exec_clerkNanoWord_of_idle (he : s.hw.executes c = false) : exec (.clerkNanoWord c) s = .next s.settle := by
  rw [exec_clerkNanoWord]
  refine onTx_eq ?_
  simp only [he, Bool.not_false, if_true]

/-- A clerk that executes and waits for nothing performs the microword that it fetches. -/
theorem exec_clerkNanoWord_of_fetched (he : s.hw.executes c = true)
    (hf : (s.hw.sampleMicroword c).clerkFetch c = (some (w, nano), h)) (hl : loadWait nano (h.clerk c).loads = false)
    (hb : (blockOf (h.clerkEnv c 0) nano).isSome = false) :
    exec (.clerkNanoWord c) s = .next (s.setHw (h.microword c w nano)).settle := by
  rw [exec_clerkNanoWord]
  refine onTx_eq ?_
  simp only [he, hf, hl, hb, Bool.not_true, Bool.or_self, Bool.false_eq_true, if_false]

end

/-! ### A load that returns (R135) -/

theorem exec_clerkLoadReturn_of_pending {c : Clerk} {l : Nat × Word} {r : List (Nat × Word)} {s : State}
    (hl : (s.hw.clerk c).loads = l :: r) :
    exec (.clerkLoadReturn c) s = .next (s.setHw (s.hw.setClerk c (fun x => { x.put l.1 l.2.toNat with loads := r }))) := by
  rw [exec_clerkLoadReturn]
  refine onHw_eq ?_
  unfold Hw.setClerk
  simp only [hl]

/-! ### A word of a block fill (R136) -/

/-- Where the next word of a block fill is written. -/
def Hw.fillAddr (h : Hw) (c : Clerk) (k : MemSlot) : Nat := nth ((h.clerk c).x.map BitVec.toNat) k.xa 0 % 2 ^ 40
/-- The word that it writes. -/
def Hw.fillWord (h : Hw) (c : Clerk) (k : MemSlot) : Nat := nth ((h.clerk c).x.map BitVec.toNat) k.xd 0
/-- The write of a word of a block fill, its registers moved on. -/
def Hw.fill (h : Hw) (c : Clerk) (k : MemSlot) : Nat × Bool × Hw :=
  (h.blockStep c k ((h.clerk c).x.map BitVec.toNat)).busWrite (.clerk c) (h.fillAddr c k) 8 (h.fillWord c k)

section
variable {h : Hw} {c : Clerk} {w : Nat} {k : MemSlot}

theorem Hw.blockWord_of_refused_fill (h6 : k.op ≠ 6) (hj : h.judge (.clerk c) true false (h.fillAddr c k) 8 ≠ 0) :
    h.blockWord c w k =
      h.clerkExcept c (h.judge (.clerk c) true false (h.fillAddr c k) 8) (h.clerk c).ua (h.fillAddr c k) := by
  unfold Hw.fillAddr at hj
  unfold Hw.blockWord
  simp only [if_neg h6, ne_eq, not_true_eq_false, if_false, if_pos hj]
  rfl

/-- While the count is not spent the clerk stays at the microword. -/
theorem Hw.blockWord_of_fill (h6 : k.op ≠ 6) (hj : h.judge (.clerk c) true false (h.fillAddr c k) 8 = 0)
    (hended : (h.fill c k).2.1 = false) (hr : restarts c (h.fillAddr c k) (h.fillWord c k) = false)
    (hcount : nth ((((h.fill c k).2.2.countAccess c 6 (h.fillAddr c k)).clerk c).x) k.xc 0#64 ≠ 0#64) :
    h.blockWord c w k = (h.fill c k).2.2.countAccess c 6 (h.fillAddr c k) := by
  unfold Hw.fill Hw.fillAddr Hw.fillWord at *
  unfold Hw.blockWord
  simp only [h6, hj, hended, hr, false_and, ne_eq, not_true_eq_false, if_false, Bool.or_self, Bool.false_eq_true,
    bne_iff_ne, hcount, not_false_eq_true, if_true]

end

section
variable {c : Clerk} {w nano : Nat} {h : Hw} {s : State}

theorem exec_blockWord_of_idle (he : s.hw.executes c = false) : exec (.blockWord c) s = .next s.settle := by
  rw [exec_blockWord]
  refine onTx_eq ?_
  simp only [he, Bool.not_false, if_true]

theorem exec_blockWord_of_fetched {k : MemSlot} (he : s.hw.executes c = true) (hf : s.hw.clerkFetch c = (some (w, nano), h))
    (hl : loadWait nano (h.clerk c).loads = false) (hb : blockOf (h.clerkEnv c (uwImm w)) nano = some k) :
    exec (.blockWord c) s = .next (s.setHw (h.blockWord c w k).watch).settle := by
  rw [exec_blockWord]
  refine onTx_eq ?_
  simp only [he, hf, hl, hb, Bool.not_true, Bool.false_eq_true, if_false]

end

/-- Settles O26: a microword stands or fails as a whole, and a word of a block fill is judged before the registers move on. -/
theorem clerkExecution : Obligations.ClerkExecution := by
  refine ⟨fun c s he => ⟨exec_clerkNanoWord_of_idle he, exec_blockWord_of_idle he⟩, fun c w nano h s he hf hl hb => ?_,
    fun c l r s => exec_clerkLoadReturn_of_pending, fun c w nano k h s he hf hl hb h6 => ?_⟩
  · rw [exec_clerkNanoWord_of_fetched he hf hl hb]
    refine ⟨fun hm hmoved hseq => ?_, fun hm h5 => ?_⟩
    · rw [Hw.microword_of_success hm hmoved hseq]
      rfl
    · rw [Hw.microword_of_failure hm h5]
      rfl
  · rw [exec_blockWord_of_fetched he hf hl hb]
    refine ⟨fun hj => ?_, fun hj hended hr hcount => ?_⟩
    · rw [Hw.blockWord_of_refused_fill h6 hj]
      rfl
    · rw [Hw.blockWord_of_fill h6 hj hended hr hcount]
      rfl

end Sys2Proof.Machine
end

section
/-! Writes of registers (R134, R371, R391, R392, R401): by the bus in the internal address space, and by the host in BAR0. -/

namespace Sys2Proof.Machine

/-! ### The internal address space -/

section
variable {h : Hw} {o : Originator} {a v : Nat}

theorem Hw.registerWrite_of_failing (hj : h.judge o true false a 8 ≠ 0) : h.registerWrite o a v = h := by
  unfold Hw.registerWrite Hw.busWrite
  simp only [if_pos hj]

/-- A write that fails no check has the effect of the register that its address names. -/
theorem Hw.registerWrite_of_reg {r : RegName} {n ix : Nat} (hj : h.judge o true false a 8 = 0) (hp : place a = .reg r n ix)
    (hr : r ≠ .EV_DONE) : h.registerWrite o a v = h.writeReg o a r n ix v := by
  unfold Hw.registerWrite Hw.busWrite
  simp only [if_neg (not_not.mpr hj), hp]

/-- Into memory it stores its 8 bytes. -/
theorem Hw.registerWrite_of_memory (hj : h.judge o true false a 8 = 0) (hp : ∀ r n ix, place a ≠ .reg r n ix) :
    h.registerWrite o a v = (h.store a (leBytes 8 v)).granules 5 a 8 := by
  unfold Hw.registerWrite Hw.busWrite
  simp only [if_neg (not_not.mpr hj)]
  split
  · next he => exact absurd he (hp _ _ _)
  · next he => exact absurd he (hp _ _ _)
  · rfl

end

/-! ### BAR0 -/

section
variable {h : Hw} {off v : Nat} {half : Bool}

/-- What BAR0 does not accept: a doubleword that is not aligned, and a half outside the MSI-X table or not aligned. -/
theorem bar0Ok_of_bad_access
    (hb : (half = false ∧ off % 8 ≠ 0) ∨ (half = true ∧ (off % 4 ≠ 0 ∨ off < 0xF0000 ∨ 0xF0400 ≤ off))) :
    bar0Ok off half = false := by
  unfold bar0Ok inMsix
  rcases hb with ⟨rfl, h8⟩ | ⟨rfl, h4⟩
  · simpa using h8
  · simp only [if_true, Bool.and_eq_false_iff, decide_eq_false_iff_not, beq_eq_false_iff_ne]
    omega

theorem Hw.bar0Write_of_bad_access (hb : bar0Ok off half = false) : h.bar0Write off v half = h.wr .TW_HSTATUS_bad_access 1 := by
  unfold Hw.bar0Write
  simp only [hb, Bool.not_false, if_true]

/-- A half at the data of an entry of the MSI-X table. -/
theorem Hw.bar0Write_of_msix_data (hlo : 0xF0000 ≤ off) (hhi : off < 0xF0400) (hdata : off % 16 = 8) :
    h.bar0Write off v true = h.setVal .A_MSIX_DATA (v % 2 ^ 32) ((off - 0xF0000) / 16) := by
  have hok : bar0Ok off true = true := by
    simp only [bar0Ok, inMsix, if_true, Bool.and_eq_true, decide_eq_true_eq, beq_iff_eq]
    omega
  have hfield : (off - 0xF0000) / 4 % 4 = 2 := by omega
  unfold Hw.bar0Write Hw.msixHalf
  simp only [hok, hfield, Bool.not_true, Bool.false_eq_true, if_false, if_true]

/-- An aligned doubleword in the transmit window. -/
theorem Hw.bar0Write_of_window (hlo : 0x10000 ≤ off) (hhi : off < 0x20000) (h8 : off % 8 = 0) :
    h.bar0Write off v false = h.txPush (BitVec.ofNat 64 v) := by
  have hok : bar0Ok off false = true := by simp [bar0Ok, h8]
  unfold Hw.bar0Write
  simp only [hok, hlo, hhi, and_self, Bool.not_true, Bool.false_eq_true, if_false, if_true]

end

/-! ### The command -/

section
variable {addr : BitVec 40} {w : BusData} {s : State}

theorem exec_registerWrite_of_bus {o : Originator} (ho : o ≠ .bar0) :
    exec (.registerWrite o addr w) s = .next (s.setHw (s.hw.registerWrite o addr.toNat w.word.toNat)).settle := by
  rw [exec_registerWrite]
  cases o with
  | bar0 => exact absurd rfl ho
  | _ => exact onTx_settle _ s

theorem exec_registerWrite_of_bar0 (ha : addr.toNat < 2 ^ 20) :
    exec (.registerWrite .bar0 addr w) s = .next (s.setHw (s.hw.bar0Write addr.toNat w.word.toNat w.half).watch).settle := by
  rw [exec_registerWrite]
  exact onTx_eq (if_pos ha)

theorem exec_registerWrite_of_outside_bar0 (ha : 2 ^ 20 ≤ addr.toNat) : exec (.registerWrite .bar0 addr w) s = .next s.settle := by
  rw [exec_registerWrite]
  exact onTx_eq (if_neg (Nat.not_lt.mpr ha))

end

/-- Settles O45: a write on the bus by what its address names, and one in BAR0 by where it lies. -/
theorem registerWrites : Obligations.RegisterWrites := by
  intro addr v half s
  refine ⟨fun o ho hj => ?_, fun o r n ix ho hj hp hr => ?_, fun o ho hj hp => ?_, exec_registerWrite_of_outside_bar0,
    fun ha hb => ?_, fun hlo hhi hdata => ?_, fun hlo hhi h8 => ?_⟩
  · rw [exec_registerWrite_of_bus ho, Hw.registerWrite_of_failing hj]
    rfl
  · rw [exec_registerWrite_of_bus ho, Hw.registerWrite_of_reg hj hp hr]
  · rw [exec_registerWrite_of_bus ho, Hw.registerWrite_of_memory hj hp]
  · rw [exec_registerWrite_of_bar0 ha, Hw.bar0Write_of_bad_access (bar0Ok_of_bad_access hb)]
  · rw [exec_registerWrite_of_bar0 (by omega), Hw.bar0Write_of_msix_data hlo hhi hdata]
  · rw [exec_registerWrite_of_bar0 (by omega), Hw.bar0Write_of_window hlo hhi h8, BitVec.ofNat_toNat, BitVec.setWidth_eq]

end Sys2Proof.Machine
end

section
/-! The rule TCAM's commands (R174, R175, R179): what an accepted command makes of its entry and the staging registers, what a
refused one records, and the end of a command with what the scrubber has still to read. -/

namespace Sys2Proof.Machine

/-! ### Runs of registers -/

/-- Consecutive registers of a slice written, from the first. -/
def Hw.setVals (h : Hw) (name : RegName) (n m : Nat) (g : Nat → Nat) : Hw := h.each m (fun h w => h.setVal name (g w) w n)

section
variable (h : Hw) (name : RegName) (n m : Nat) (g : Nat → Nat)

@[simp] theorem Hw.setVals_mem : (h.setVals name n m g).mem = h.mem :=
  Hw.each_keeps (fun k => k.mem = h.mem) _ _ (fun k _ hk => (k.setVal_mem _ _ _ _ _).trans hk) h rfl

@[simp] theorem Hw.setVals_cam : (h.setVals name n m g).cam = h.cam :=
  Hw.each_keeps (fun k => k.cam = h.cam) _ _ (fun k _ hk => (k.setVal_cam _ _ _ _ _).trans hk) h rfl

theorem Hw.val_setVals_other {r : RegName} (hr : name ≠ r) (ix sl bank : Nat) :
    (h.setVals name n m g).val r ix sl bank = h.val r ix sl bank :=
  Hw.each_keeps (fun k => k.val r ix sl bank = h.val r ix sl bank) _ _
    (fun k _ hk => (k.val_setVal_other name r _ _ _ _ _ _ _ hr).trans hk) h rfl

theorem Hw.val_setVals {w : Nat} (hw : w < m) : (h.setVals name n m g).val name w n = g w % 2 ^ 64 := by
  unfold Hw.setVals
  induction m with
  | zero => exact absurd hw (Nat.not_lt_zero w)
  | succ m ih =>
    rw [Hw.each_succ]
    rcases Nat.lt_succ_iff_lt_or_eq.mp hw with hlt | rfl
    · rw [Hw.val_setVal_place _ _ _ (by simp [hlt.ne])]
      exact ih hlt
    · exact Hw.val_setVal_same _ _ _ _ _ _

end

theorem Hw.val_mod_word (h : Hw) (name : RegName) (ix sl bank : Nat) :
    h.val name ix sl bank % 2 ^ 64 = h.val name ix sl bank := Nat.mod_eq_of_lt (BitVec.isLt _)

/-! ### What a change of the array leaves alone -/

section
variable (h : Hw)

@[simp] theorem Hw.shareSpend_cam (s cls sectors : Nat) : (h.shareSpend s cls sectors).cam = h.cam := by
  unfold Hw.shareSpend
  split <;> rfl

@[simp] theorem Hw.requests_cam (cls a n : Nat) : (h.requests cls a n).cam = h.cam := by
  unfold Hw.requests
  split <;> rfl

@[simp] theorem Hw.activate_cam (as : List Nat) : (h.activate as).cam = h.cam := (rfl)

@[simp] theorem Hw.granules_cam (cls a n : Nat) : (h.granules cls a n).cam = h.cam := by
  unfold Hw.granules
  split
  · rw [Hw.activate_cam, Hw.shareSpend_cam, Hw.requests_cam]
  · rfl

@[simp] theorem Hw.storeWords_cam (cls a : Nat) (ws : List Nat) : (h.storeWords cls a ws).cam = h.cam :=
  Hw.granules_cam _ _ _ _

@[simp] theorem Hw.clShadowSet_cam (n i : Nat) (ws : List Nat) : (h.clShadowSet n i ws).cam = h.cam := Hw.storeWords_cam _ _ _ _

@[simp] theorem Hw.clSet_cam (n i : Nat) (ws : List Nat) : (h.clSet n i ws).cam = h.cam := by
  unfold Hw.clSet
  dsimp only
  rw [Hw.setVal_cam, Hw.setVal_cam]
  exact Hw.each_keeps (fun k => k.cam = h.cam) _ _ (fun k _ hk => (k.setVal_cam _ _ _ _ _).trans hk) _
    (Hw.each_keeps (fun k => k.cam = h.cam) _ _ (fun k _ hk => (k.setVal_cam _ _ _ _ _).trans hk) _ rfl)

/-- A change of an entry's action word leaves which entries commands are writing. -/
@[simp] theorem Hw.clChange_cam (n i a0 : Nat) : (h.clChange n i a0).cam = h.cam := by
  unfold Hw.clChange
  rw [Hw.clShadowSet_cam, Hw.clSet_cam]

/-- What is still to be read after a command is told by the entries that commands are writing alone. -/
theorem Hw.camSkipped_congr {h k : Hw} (hk : k.cam = h.cam) (guardCam : Bool) (n : Nat) :
    k.camSkipped guardCam n = h.camSkipped guardCam n := by
  unfold Hw.camSkipped
  rw [hk]

/-- The power of a memory stack is read from its own two registers. -/
theorem Hw.stackActive_wr {f : Fld} (hstat : f.reg ≠ .HM_STACKSTAT) (hcmd : f.reg ≠ .HM_STACKCMD) (v ix sl bank a : Nat) :
    (h.wr f v ix sl bank).stackActive a = h.stackActive a := by
  unfold Hw.stackActive
  dsimp only
  rw [Hw.rd_wr_other h f .HM_STACKSTAT_state _ _ _ _ _ _ _ hstat, Hw.rd_wr_other h f .HM_STACKCMD_state _ _ _ _ _ _ _ hcmd,
    Hw.on_wr_other h f .HM_STACKCMD_busy _ _ _ _ _ _ _ hcmd]

/-! ### The start and the end of a command -/

variable (n : Nat)

@[simp] theorem Hw.camStart_mem (guardCam : Bool) (ixs : List Nat) : (h.camStart guardCam n ixs).mem = h.mem := (rfl)

/-- A command that writes no entry leaves which entries are written. -/
@[simp] theorem Hw.camStart_cam_nil (guardCam : Bool) : (h.camStart guardCam n []).cam = h.cam := List.append_nil _

theorem Hw.on_camStart_busy (ixs : List Nat) : (h.camStart false n ixs).on .CL_CMD_busy 0 n = true :=
  beq_iff_eq.mpr (Hw.rd_wr_same _ .CL_CMD_busy 1 0 n 0 (by decide))

theorem Hw.val_camStart {r : RegName} (hr : RegName.CL_CMD ≠ r) (ixs : List Nat) (ix sl bank : Nat) :
    (h.camStart false n ixs).val r ix sl bank = h.val r ix sl bank := Hw.val_wr_other _ .CL_CMD_busy r _ _ _ _ _ _ _ hr

theorem Hw.stackActive_camEnd (guardCam : Bool) (a : Nat) : (h.camEnd guardCam n).stackActive a = h.stackActive a := by
  cases guardCam
  · exact Hw.stackActive_wr _ (f := .CL_CMD_busy) (by decide) (by decide) _ _ _ _ _
  · exact Hw.stackActive_wr _ (f := .GC_CMD_busy) (by decide) (by decide) _ _ _ _ _

theorem Hw.rd_camEnd {g : Fld} (hcl : RegName.CL_CMD ≠ g.reg) (hgc : RegName.GC_CMD ≠ g.reg) (guardCam : Bool)
    (ix sl bank : Nat) : (h.camEnd guardCam n).rd g ix sl bank = h.rd g ix sl bank := by
  cases guardCam
  · exact Hw.rd_wr_other _ .CL_CMD_busy g _ _ _ _ _ _ _ hcl
  · exact Hw.rd_wr_other _ .GC_CMD_busy g _ _ _ _ _ _ _ hgc

end

/-! ### READ (R174) -/

/-- An entry shown in CL_VALUE, CL_MASK, CL_A0 and CL_A1. -/
def Hw.clShow (h : Hw) (n i : Nat) : Hw :=
  (((h.setVals .CL_VALUE n 10 (fun w => nth (h.clWords n i) w 0)).setVals .CL_MASK n 10
    (fun w => nth (h.clWords n i) (10 + w) 0)).setVal .CL_A0 (h.val .A_CLA0 i n) 0 n).setVal .CL_A1
    (nth (h.clWords n i) 21 0) 0 n

section
variable (h : Hw) (n i : Nat)

theorem Hw.nth_clWords_value {w : Nat} (hw : w < 10) : nth (h.clWords n i) w 0 = h.val .A_CLV (10 * i + w) n := by
  simp [nth, Hw.clWords, Hw.clValue, List.getElem?_append, hw]

theorem Hw.nth_clWords_mask {w : Nat} (hw : w < 10) : nth (h.clWords n i) (10 + w) 0 = h.val .A_CLM (10 * i + w) n := by
  simp [nth, Hw.clWords, Hw.clValue, Hw.clMask, List.getElem?_append, hw]

theorem Hw.nth_clWords_a1 : nth (h.clWords n i) 21 0 = h.val .A_CLA1 i n := by
  simp [nth, Hw.clWords, Hw.clValue, Hw.clMask]

@[simp] theorem Hw.clShow_mem : (h.clShow n i).mem = h.mem := by
  unfold Hw.clShow
  simp only [Hw.setVal_mem, Hw.setVals_mem]

@[simp] theorem Hw.clShow_cam : (h.clShow n i).cam = h.cam := by
  unfold Hw.clShow
  simp only [Hw.setVal_cam, Hw.setVals_cam]

theorem Hw.val_clShow_a1 : (h.clShow n i).val .CL_A1 0 n = h.val .A_CLA1 i n := by
  unfold Hw.clShow
  rw [Hw.val_setVal_same, Hw.nth_clWords_a1, Hw.val_mod_word]

theorem Hw.val_clShow_a0 : (h.clShow n i).val .CL_A0 0 n = h.val .A_CLA0 i n := by
  unfold Hw.clShow
  rw [Hw.val_setVal_other _ _ _ _ _ _ _ _ _ _ (by decide), Hw.val_setVal_same, Hw.val_mod_word]

variable {w : Nat} (hw : w < 10)
include hw

theorem Hw.val_clShow_mask : (h.clShow n i).val .CL_MASK w n = h.val .A_CLM (10 * i + w) n := by
  unfold Hw.clShow
  rw [Hw.val_setVal_other _ _ _ _ _ _ _ _ _ _ (by decide), Hw.val_setVal_other _ _ _ _ _ _ _ _ _ _ (by decide),
    Hw.val_setVals _ _ _ _ _ hw, Hw.nth_clWords_mask _ _ _ hw, Hw.val_mod_word]

theorem Hw.val_clShow_value : (h.clShow n i).val .CL_VALUE w n = h.val .A_CLV (10 * i + w) n := by
  unfold Hw.clShow
  rw [Hw.val_setVal_other _ _ _ _ _ _ _ _ _ _ (by decide), Hw.val_setVal_other _ _ _ _ _ _ _ _ _ _ (by decide),
    Hw.val_setVals_other _ _ _ _ _ (by decide), Hw.val_setVals _ _ _ _ _ hw, Hw.nth_clWords_value _ _ _ hw, Hw.val_mod_word]

end

/-! ### The commands (R174) -/

/-- What an accepted command makes of its entries and the staging registers, by its operation. -/
def Hw.clEffect (h : Hw) (n op ed : Nat) : Hw :=
  let i := h.rd .CL_INDEX_index 0 n
  let d := h.rd .CL_INDEX_dst 0 n
  match op with
  | 1 => h.clShow n i
  | 2 => (h.clShadowSet n i (clSealed i (h.clStaged n))).clSet n i (clSealed i (h.clStaged n))
  | 3 => h.clChange n i (setBits (setBits (h.val .A_CLA0 i n) 63 63 0) 60 60 0)
  | 4 => h.clChange n i (setBits (h.val .A_CLA0 i n) 62 61 ed)
  | _ => (({ h with moves := h.moves ++ [(n, i)] } : Hw).clShadowSet n d (clSealed d (h.clWords n i))).clSet n d
      (clSealed d (h.clWords n i))

/-- The entries that a command writes: none, the indexed one, or the source and destination of a MOVE. -/
def Hw.clWritten (h : Hw) (n op : Nat) : List Nat :=
  if op = 1 then [] else if op = 5 then [h.rd .CL_INDEX_index 0 n, h.rd .CL_INDEX_dst 0 n] else [h.rd .CL_INDEX_index 0 n]

section
variable {h : Hw} {n op : Nat} (hb : h.on .CL_CMD_busy 0 n = false)
include hb

/-- A command with a cause, whatever its operation, records it and does nothing more. -/
theorem Hw.clCmd_of_cause (hc : h.clCause n op ≠ 0) (ed : Nat) : h.clCmd n op ed = h.clRefuse n (h.clCause n op) := by
  unfold Hw.clCmd
  simp only [hb, Bool.false_eq_true, if_false, if_pos hc]

/-- A command that nothing refuses has its effect and leaves busy set. -/
theorem Hw.clCmd_of_accepted (hc : h.clCause n op = 0) (ed : Nat) :
    h.clCmd n op ed = (h.clEffect n op ed).camStart false n (h.clWritten n op) := by
  unfold Hw.clCmd
  simp only [hb, hc, Bool.false_eq_true, if_false, ne_eq, not_true_eq_false]
  rfl

end

/-! ### The end of a command (R175, R179) -/

/-- Busy cleared and the command counted, and the entries read that the scrubber passed over. -/
def Hw.clEnd (h : Hw) (n : Nat) : Hw :=
  let k := (h.camEnd false n).count .CL_CNT_count 5 n
  if k.stackActive (k.rd .CL_SHADOW_BASE_base 0 n) then k.over (h.camSkipped false n) (fun h i => h.clScrubOne n i) else k

section
variable {h : Hw} {n : Nat}

theorem Hw.clDone_of_idle (hb : h.on .CL_CMD_busy 0 n = false) : h.clDone n = h := by
  unfold Hw.clDone
  rw [hb]
  rfl

theorem Hw.clDone_of_no_move (hb : h.on .CL_CMD_busy 0 n = true) (hm : h.moves.find? (fun m => m.1 == n) = none) :
    h.clDone n = h.clEnd n := by
  unfold Hw.clDone
  simp only [hb, hm, if_true]
  rfl

/-- A MOVE ends by invalidating its source. -/
theorem Hw.clDone_of_move {m i : Nat} (hb : h.on .CL_CMD_busy 0 n = true)
    (hm : h.moves.find? (fun m => m.1 == n) = some (m, i)) :
    h.clDone n = (({ h with moves := h.moves.filter (fun m => m.1 != n) } : Hw).clChange n i
      (setBits (setBits (h.val .A_CLA0 i n) 63 63 0) 60 60 0)).clEnd n := by
  unfold Hw.clDone
  simp only [hb, hm, if_true]
  rfl

/-- The end of a command of which the scrubber passed over no entry. -/
theorem Hw.clEnd_of_none_skipped (hs : h.camSkipped false n = []) :
    h.clEnd n = (h.camEnd false n).count .CL_CNT_count 5 n := by
  unfold Hw.clEnd
  simp only [hs, Hw.over_nil, ite_self]

theorem Hw.clEnd_of_one_skipped {i : Nat} (hs : h.camSkipped false n = [i])
    (ha : h.stackActive (h.rd .CL_SHADOW_BASE_base 0 n) = true) :
    h.clEnd n = ((h.camEnd false n).count .CL_CNT_count 5 n).clScrubOne n i := by
  have hactive : ((h.camEnd false n).count .CL_CNT_count 5 n).stackActive
      (((h.camEnd false n).count .CL_CNT_count 5 n).rd .CL_SHADOW_BASE_base 0 n) = true := by
    rw [Hw.rd_count_other _ _ _ _ _ _ _ _ _ (by decide), Hw.rd_camEnd _ _ (by decide) (by decide)]
    unfold Hw.count
    rw [Hw.stackActive_wr _ (by decide) (by decide), Hw.stackActive_camEnd, ha]
  unfold Hw.clEnd
  simp only [hs, hactive, if_true, Hw.over_singleton]

/-! ### Scrubbing (R179) -/

theorem Hw.clScrub_of_active (ha : h.stackActive (h.rd .CL_SHADOW_BASE_base 0 n) = true) :
    h.clScrub n = h.each 32768 (fun h i => if h.camWriting false n i then h.camSkip false n i else h.clScrubOne n i) :=
  if_pos ha

theorem Hw.clScrub_of_idle (ha : h.stackActive (h.rd .CL_SHADOW_BASE_base 0 n) = false) : h.clScrub n = h.raise 0x405 n :=
  if_neg (by rw [ha]; exact Bool.false_ne_true)

end

/-! ### The commands on a state -/

section
variable {n : Slice} {s : State}

theorem exec_clRead_of_accepted (hb : s.hw.on .CL_CMD_busy 0 n = false) (hc : s.hw.clCause n 1 = 0) :
    exec (.clRead n) s = .next (s.setHw ((s.hw.clShow n (s.hw.rd .CL_INDEX_index 0 n)).camStart false n [])) := by
  rw [exec_clRead]
  exact onHw_eq (Hw.clCmd_of_accepted hb hc 0)

theorem exec_clCmdDone_next (n : Slice) (s : State) : exec (.clCmdDone n) s = .next (s.setHw (s.hw.clDone n)) := by
  rw [exec_clCmdDone]
  exact onHw_next _ s

theorem exec_clScrub_next (n : Slice) (s : State) : exec (.clScrub n) s = .next (s.setHw (s.hw.clScrub n)) := by
  rw [exec_clScrub]
  exact onHw_next _ s

/-- A command ended while a MOVE of its slice waits and the scrubber passed over nothing. -/
theorem exec_clCmdDone_of_move {m i : Nat} (hb : s.hw.on .CL_CMD_busy 0 n = true)
    (hm : s.hw.moves.find? (fun m => m.1 == n.val) = some (m, i)) (hs : s.hw.camSkipped false n = []) :
    exec (.clCmdDone n) s = .next (s.setHw
      (((({ s.hw with moves := s.hw.moves.filter (fun m => m.1 != n.val) } : Hw).clChange n i
        (setBits (setBits (s.hw.val .A_CLA0 i n) 63 63 0) 60 60 0)).camEnd false n).count .CL_CNT_count 5 n)) := by
  rw [exec_clCmdDone_next, Hw.clDone_of_move hb hm, Hw.clEnd_of_none_skipped]
  exact (Hw.camSkipped_congr (Hw.clChange_cam _ _ _ _) false n).trans hs

end

/-- Settles O10: each command by the lemma for its operation, and its end by whether a MOVE and skipped entries wait. -/
theorem ruleTcamCommands : Obligations.RuleTcamCommands := by
  refine ⟨fun n s hb => ⟨fun hc => ?_, fun hc => ?_, fun hc => ?_, fun ed hc => ?_, fun hc => ?_, fun hc => ?_⟩,
    fun n s hb => ⟨fun hm hs => ?_, fun i hm hs ha => ?_, fun m i hm hs => exec_clCmdDone_of_move hb hm hs⟩,
    fun n s hb => ?_, fun n s => ⟨fun ha => ?_, fun ha => ?_⟩⟩
  · refine ⟨_, exec_clRead_of_accepted hb hc, ?_, ?_, fun w hw => ⟨?_, ?_⟩, Hw.on_camStart_busy _ _ _, ?_, ?_,
      s.sameOutside_setHw _⟩
    · rw [State.setHw_hw, Hw.val_camStart _ _ (by decide), Hw.val_clShow_a0]
    · rw [State.setHw_hw, Hw.val_camStart _ _ (by decide), Hw.val_clShow_a1]
    · rw [State.setHw_hw, Hw.val_camStart _ _ (by decide), Hw.val_clShow_value _ _ _ hw]
    · rw [State.setHw_hw, Hw.val_camStart _ _ (by decide), Hw.val_clShow_mask _ _ _ hw]
    · rw [State.setHw_hw, Hw.camStart_mem, Hw.clShow_mem]
    · rw [State.setHw_hw, Hw.camStart_cam_nil, Hw.clShow_cam]
  · rw [exec_clWrite]
    exact onHw_eq (Hw.clCmd_of_accepted hb hc 0)
  · rw [exec_clInvalidate]
    exact onHw_eq (Hw.clCmd_of_accepted hb hc 0)
  · rw [exec_clEdbits]
    exact onHw_eq (Hw.clCmd_of_accepted hb hc ed)
  · rw [exec_clMove]
    exact onHw_eq (Hw.clCmd_of_accepted hb hc 0)
  · rw [exec_clWrite]
    exact onHw_eq (Hw.clCmd_of_cause hb hc 0)
  · rw [exec_clCmdDone_next, Hw.clDone_of_no_move hb hm, Hw.clEnd_of_none_skipped hs]
  · rw [exec_clCmdDone_next, Hw.clDone_of_no_move hb hm, Hw.clEnd_of_one_skipped hs ha]
  · rw [exec_clCmdDone_next, Hw.clDone_of_idle hb]
    rfl
  · rw [exec_clScrub_next, Hw.clScrub_of_active ha]
  · rw [exec_clScrub_next, Hw.clScrub_of_idle ha]

end Sys2Proof.Machine
end

section
/-! The Guard CAM's commands (R176, R179), and the banked registers of both CAMs (R180): what one half does while the other is
idle, the end of a command, and writes to the lists and probe forms. -/

namespace Sys2Proof.Machine

/-! ### One half of a command (R176) -/

/-- The fields of a GC_CMD word with the operation of one half set: that operation, and the rest as written. -/
theorem bits_gcWord (v : Word) (b : Bool) {op : Nat} (hop : op < 8) :
    bits (gcWord v b op) 2 0 = (if b then bits v.toNat 2 0 else op) ∧
      bits (gcWord v b op) 6 4 = (if b then op else bits v.toNat 6 4) ∧
      bits (gcWord v b op) 9 8 = bits v.toNat 9 8 ∧ bits (gcWord v b op) 13 12 = bits v.toNat 13 12 := by
  have hcut : op % 8 = op := Nat.mod_eq_of_lt hop
  cases b
  · exact ⟨(bits_setBits_same _ _ _ _).trans hcut, bits_setBits_above _ _ _ _ _ _ (by decide) (by decide),
      bits_setBits_above _ _ _ _ _ _ (by decide) (by decide), bits_setBits_above _ _ _ _ _ _ (by decide) (by decide)⟩
  · exact ⟨bits_setBits_below _ _ _ _ _ _ (by decide), (bits_setBits_same _ _ _ _).trans hcut,
      bits_setBits_above _ _ _ _ _ _ (by decide) (by decide), bits_setBits_above _ _ _ _ _ _ (by decide) (by decide)⟩

/-- The cause that refuses an operation of one half, the other idle. -/
def Hw.gcHalfCause (h : Hw) (n : Nat) (b : Bool) (op : Nat) : Nat := if b then h.gcCause n 0 op else h.gcCause n op 0

/-- What an accepted operation of one half makes of its entry, the shadow first. -/
def Hw.gcHalf (h : Hw) (n : Nat) (b : Bool) (op ed : Nat) : Hw :=
  let i := h.gcIndex n b
  let x := h.gcNew n b op ed
  ((h.gcShadowSet n i x.1 x.2).gcSet n i x.1 x.2).camStart true n [i]

section
variable {h : Hw} {n : Nat} {v : Word} {b : Bool} (hb : h.on .GC_CMD_busy 0 n = false)
include hb

theorem Hw.gcCmd_read (hother : bits v.toNat 6 4 = 0) (hc : h.gcCause n 1 0 = 0) :
    let i := h.gcIndex n false
    h.gcCmd n (gcWord v false 1) =
      ((h.setVal .GC_A_WORD (h.val .A_GCW i n) 0 n).setVal .GC_A_ATTR (h.val .A_GCA i n) 0 n).camStart true n [] := by
  obtain ⟨hA, hB, -, -⟩ := bits_gcWord v false (show 1 < 8 by decide)
  simp only [Bool.false_eq_true, if_false] at hA hB
  unfold Hw.gcCmd
  simp [hb, hA, hB, hother, hc]

variable {op : Nat} (hop : op < 8) (hother : (if b then bits v.toNat 2 0 else bits v.toNat 6 4) = 0)
include hop hother

/-- An operation with a cause, whatever it is, records it and does nothing more. -/
theorem Hw.gcCmd_of_cause (h0 : op ≠ 0) (hc : h.gcHalfCause n b op ≠ 0) :
    h.gcCmd n (gcWord v b op) =
      (h.wr .GC_STATUS_cmd_refused 1 0 n).wr .GC_STATUS_cause (h.gcHalfCause n b op) 0 n := by
  obtain ⟨hA, hB, -, -⟩ := bits_gcWord v b hop
  unfold Hw.gcHalfCause at hc ⊢
  unfold Hw.gcCmd
  cases b
  · simp only [Bool.false_eq_true, if_false] at hA hB hother hc ⊢
    simp [hb, hA, hB, hother, hc, h0]
  · simp only [if_true] at hA hB hother hc ⊢
    simp [hb, hA, hB, hother, hc, h0]

/-- A WRITE, INVALIDATE or EDBITS of one half that nothing refuses. -/
theorem Hw.gcCmd_of_half (h2 : 2 ≤ op) (hc : h.gcHalfCause n b op = 0) :
    h.gcCmd n (gcWord v b op) = h.gcHalf n b op (if b then bits v.toNat 13 12 else bits v.toNat 9 8) := by
  obtain ⟨hA, hB, hedA, hedB⟩ := bits_gcWord v b hop
  have h0 : op ≠ 0 := by omega
  have h1 : op ≠ 1 := by omega
  unfold Hw.gcHalfCause at hc
  unfold Hw.gcCmd Hw.gcHalf
  cases b
  · simp only [Bool.false_eq_true, if_false] at hA hB hother hc ⊢
    simp [hb, hA, hB, hedA, hother, hc, h0, h1, h2]
  · simp only [if_true] at hA hB hother hc ⊢
    simp [hb, hA, hB, hedB, hother, hc, h0, h2]

end

/-! ### The end of a command, and scrubbing (R179) -/

section
variable {h : Hw} {n : Nat}

theorem Hw.gcDone_of_none_skipped (hs : h.camSkipped true n = []) : h.gcDone n = h.camEnd true n := by
  unfold Hw.gcDone
  simp only [hs, Hw.over_nil, ite_self]

theorem Hw.gcDone_of_one_skipped {i : Nat} (hs : h.camSkipped true n = [i])
    (ha : h.stackActive (h.rd .GC_SHADOW_BASE_base 0 n) = true) : h.gcDone n = (h.camEnd true n).gcScrubOne n i := by
  have hactive : (h.camEnd true n).stackActive ((h.camEnd true n).rd .GC_SHADOW_BASE_base 0 n) = true := by
    rw [Hw.rd_camEnd _ _ (by decide) (by decide), Hw.stackActive_camEnd, ha]
  unfold Hw.gcDone
  simp only [hs, hactive, if_true, Hw.over_singleton]

theorem Hw.gcScrub_of_active (ha : h.stackActive (h.rd .GC_SHADOW_BASE_base 0 n) = true) :
    h.gcScrub n = h.each 65536 (fun h i => if h.camWriting true n i then h.camSkip true n i else h.gcScrubOne n i) :=
  if_pos ha

theorem Hw.gcScrub_of_idle (ha : h.stackActive (h.rd .GC_SHADOW_BASE_base 0 n) = false) : h.gcScrub n = h.raise 0x405 n :=
  if_neg (by rw [ha]; exact Bool.false_ne_true)

/-! ### Banked registers (R180) -/

variable {b : Nat}

theorem Hw.clListWrite_of_taken (hw : h.writeBank n = (b, false)) (l v : Nat) :
    h.clListWrite n l v = (h.wr .CL_LIST_first (bits v 5 0) l n b).wr .CL_LIST_count
      (if 64 < bits v 5 0 + bits v 14 8 then 0 else bits v 14 8) l n b := by
  unfold Hw.clListWrite
  simp only [hw, Bool.false_eq_true, if_false]

theorem Hw.clListWrite_of_busy (hw : h.writeBank n = (b, true)) (l v : Nat) :
    h.clListWrite n l v = (h.wr .CL_STATUS_write_refused 1 0 n).wr .CL_STATUS_cause 1 0 n := by
  unfold Hw.clListWrite
  simp only [hw, if_true]

theorem Hw.gcProbeWrite_mask_of_taken (hw : h.writeBank n = (b, false)) (p v : Nat) :
    h.gcProbeWrite n false p v = h.setVal .GC_PROBE_MASK v p n b := by
  unfold Hw.gcProbeWrite
  simp only [hw, Bool.false_eq_true, if_false]

theorem Hw.gcProbeWrite_cfg_of_taken (hw : h.writeBank n = (b, false)) (p v : Nat) :
    h.gcProbeWrite n true p v = h.setVal .GC_PROBE_CFG (v % 4) p n b := by
  unfold Hw.gcProbeWrite
  simp only [hw, Bool.false_eq_true, if_false, if_true]

end

/-! ### The commands -/

section
variable (n : Slice) (s : State)

theorem exec_gcCmdDone_next : exec (.gcCmdDone n) s = .next (s.setHw (s.hw.gcDone n)) := by
  rw [exec_gcCmdDone]
  exact onHw_next _ s

theorem exec_gcScrub_next : exec (.gcScrub n) s = .next (s.setHw (s.hw.gcScrub n)) := by
  rw [exec_gcScrub]
  exact onHw_next _ s

variable {off : BitVec 20} (h8 : off.toNat % 8 = 0) (v : Word)
include h8

/-- A banked write at one of the lists. -/
theorem exec_clGcBankedWrite_list (hlo : 0x1000 ≤ off.toNat) (hhi : off.toNat < 0x1200) :
    exec (.clGcBankedWrite n false off v) s =
      .next (s.setHw (s.hw.clListWrite n ((off.toNat - 0x1000) / 8) v.toNat)) := by
  rw [exec_clGcBankedWrite]
  refine onHw_eq ?_
  simp only [h8, hlo, hhi, ne_eq, not_true_eq_false, Bool.false_eq_true, and_self, if_true, if_false]

theorem exec_clGcBankedWrite_mask (hlo : 0x1000 ≤ off.toNat) (hhi : off.toNat < 0x1080) :
    exec (.clGcBankedWrite n true off v) s =
      .next (s.setHw (s.hw.gcProbeWrite n false ((off.toNat - 0x1000) / 8) v.toNat)) := by
  rw [exec_clGcBankedWrite]
  refine onHw_eq ?_
  simp only [h8, hlo, hhi, ne_eq, not_true_eq_false, and_self, if_true, if_false]

theorem exec_clGcBankedWrite_cfg (hlo : 0x1080 ≤ off.toNat) (hhi : off.toNat < 0x1100) :
    exec (.clGcBankedWrite n true off v) s =
      .next (s.setHw (s.hw.gcProbeWrite n true ((off.toNat - 0x1080) / 8) v.toNat)) := by
  have hmask : ¬(0x1000 ≤ off.toNat ∧ off.toNat < 0x1080) := fun hm => absurd hm.2 (Nat.not_lt.mpr hlo)
  rw [exec_clGcBankedWrite]
  refine onHw_eq ?_
  simp only [h8, hmask, hlo, hhi, ne_eq, not_true_eq_false, and_self, if_true, if_false]

end

/-- Settles O11: READ by its lemma, the operations of either half by one lemma, and each banked write by the register at its
offset. -/
theorem guardCamCommands : Obligations.GuardCamCommands := by
  refine ⟨fun n v s hb hother hc => ?_, fun n b v s hb hother => ⟨fun hc => ?_, fun hc => ?_, fun hc => ?_, fun hc => ?_⟩,
    fun n s => ⟨fun hs => ?_, fun i hs ha => ?_⟩, fun n s => ⟨fun ha => ?_, fun ha => ?_⟩,
    fun n off v b s h8 => ⟨fun hw => ⟨fun hlo hhi => ?_, fun hlo hhi => ?_, fun hlo hhi => ?_⟩, fun hw hlo hhi => ?_⟩⟩
  · rw [exec_gcRead]
    exact onHw_eq (Hw.gcCmd_read hb hother hc)
  · rw [exec_gcWrite]
    exact onHw_eq (Hw.gcCmd_of_half hb (by decide) hother (by decide) hc)
  · rw [exec_gcInvalidate]
    exact onHw_eq (Hw.gcCmd_of_half hb (by decide) hother (by decide) hc)
  · rw [exec_gcEdbits]
    exact onHw_eq (Hw.gcCmd_of_half hb (by decide) hother (by decide) hc)
  · rw [exec_gcWrite]
    exact onHw_eq (Hw.gcCmd_of_cause hb (by decide) hother (by decide) hc)
  · rw [exec_gcCmdDone_next, Hw.gcDone_of_none_skipped hs]
  · rw [exec_gcCmdDone_next, Hw.gcDone_of_one_skipped hs ha]
  · rw [exec_gcScrub_next, Hw.gcScrub_of_active ha]
  · rw [exec_gcScrub_next, Hw.gcScrub_of_idle ha]
  · rw [exec_clGcBankedWrite_list n s h8 v hlo hhi, Hw.clListWrite_of_taken hw]
  · rw [exec_clGcBankedWrite_mask n s h8 v hlo hhi, Hw.gcProbeWrite_mask_of_taken hw]
  · rw [exec_clGcBankedWrite_cfg n s h8 v hlo hhi, Hw.gcProbeWrite_cfg_of_taken hw]
  · rw [exec_clGcBankedWrite_list n s h8 v hlo hhi, Hw.clListWrite_of_busy hw]

end Sys2Proof.Machine
end

section
/-! The forwarding tables' commands (R184, R185, R186, R195, R202) and the banked registers of LP and HX (R190, R200): a word
shown and written, a replica copied, walks fenced, and one HX entry read and written in memory. -/

namespace Sys2Proof.Machine

/-! ### READ and WRITE (R184, R185, R212) -/

section
variable {h : Hw} {n : Nat}

/-- A TC item shown in the two data registers. -/
theorem Hw.ftRead_of_tc (hb : h.on .FT_CMD_busy 0 n = false) (ht : ftTab (h.rd .FT_TARGET_table 0 n) = .tc)
    (hi : h.rd .FT_TARGET_index 0 n < FtTab.tc.size) :
    h.ftRead n = ((h.setVal .FT_DATA_HI (h.val .A_TC (2 * h.rd .FT_TARGET_index 0 n) n) 0 n).setVal .FT_DATA_LO
      (h.val .A_TC (2 * h.rd .FT_TARGET_index 0 n + 1) n) 0 n).wr .FT_CMD_busy 1 0 n := by
  unfold Hw.ftRead
  simp only [hb, ht, Nat.not_le.mpr hi, Bool.false_eq_true, if_false]
  rfl

theorem Hw.ftRead_of_outside (hb : h.on .FT_CMD_busy 0 n = false)
    (hi : (ftTab (h.rd .FT_TARGET_table 0 n)).size ≤ h.rd .FT_TARGET_index 0 n) : h.ftRead n = h.ftRefuse n 4 := by
  unfold Hw.ftRead
  simp only [hb, hi, Bool.false_eq_true, if_false, if_true]

/-- A WRITE of a TC item that nothing refuses. -/
theorem Hw.ftWrite_of_tc (mask : Nat) (hb : h.on .FT_CMD_busy 0 n = false)
    (ht : ftTab (h.rd .FT_TARGET_table 0 n) = .tc) (hi : h.rd .FT_TARGET_index 0 n < FtTab.tc.size)
    (hr : ftReserved .tc (h.rd .FT_TARGET_index 0 n) (h.val .FT_DATA_HI 0 n) (h.val .FT_DATA_LO 0 n) = false)
    (hc : h.shadowCauses ((slicesOf mask).filter h.receives) = 0) :
    h.ftWrite n mask = ((h.skip (slicesOf mask)).over ((slicesOf mask).filter h.receives) (fun k m =>
      k.ftPut .tc m (h.rd .FT_TARGET_half 0 n) (h.rd .FT_TARGET_index 0 n)
        [h.val .FT_DATA_HI 0 n, h.val .FT_DATA_LO 0 n])).wr .FT_CMD_busy 1 0 n := by
  unfold Hw.ftWrite
  simp only [hb, ht, hr, hc, Nat.not_le.mpr hi, Bool.false_eq_true, reduceCtorEq, ne_eq, not_true_eq_false, if_false]

/-! ### Sync (R185) -/

/-- A go from another, sound replica: src is stored before the cause is judged, and busy stands until then. -/
theorem Hw.ftSync_of_go {v : Nat} (hb : h.on .FT_SYNC_busy 0 n = false) (hgo : bit v 63 = true) (hsrc : v % 8 ≠ n)
    (hs : h.on .FT_STATUS_stale 0 (v % 8) = false) (hc : (h.wr .FT_SYNC_src (v % 8) 0 n).shadowCause n = 0) :
    h.ftSync n v =
      (((h.wr .FT_SYNC_src (v % 8) 0 n).copyReplica (v % 8) n).shadowReplica n).wr .FT_SYNC_busy 1 0 n := by
  have hread : (h.wr .FT_SYNC_src (v % 8) 0 n).rd .FT_SYNC_src 0 n = v % 8 :=
    (Hw.rd_wr_same h .FT_SYNC_src _ _ _ _ (by decide)).trans (Nat.mod_mod v 8)
  have hbusy : (h.wr .FT_SYNC_src (v % 8) 0 n).on .FT_SYNC_busy 0 n = false :=
    (Hw.on_wr_beside h .FT_SYNC_src .FT_SYNC_busy _ _ _ _ _ _ _ (by decide) (by decide) (by decide)).trans hb
  have hstale : (h.wr .FT_SYNC_src (v % 8) 0 n).on .FT_STATUS_stale 0 (v % 8) = false :=
    (Hw.on_wr_other h .FT_SYNC_src .FT_STATUS_stale _ _ _ _ _ _ _ (by decide)).trans hs
  unfold Hw.ftSync
  simp only [hb, hread, hbusy, hstale, hgo, hsrc, hc, Bool.not_true, Bool.or_self, Bool.false_eq_true, or_self, ne_eq,
    not_true_eq_false, if_false]

/-! ### Scrubbing out of reach (R186) -/

theorem Hw.ftScrub_of_idle (ha : h.stackActive (h.rd .FT_SHADOW_BASE_base 0 n) = false) : h.ftScrub n = h.raise 0x405 n :=
  if_neg (by rw [ha]; exact Bool.false_ne_true)

/-! ### Banked registers (R190, R200) -/

theorem Hw.lpProfileWrite_of_accepted {f v : Nat} (hb : h.bankBusy = false) (hc : profileCause f (v % 2 ^ 44) = 0) :
    h.lpProfileWrite n f v = h.setVal .FT_LP_PROFILE (v % 2 ^ 44) f 0 h.next := by
  unfold Hw.lpProfileWrite
  simp only [hb, hc, Bool.false_eq_true, ne_eq, not_true_eq_false, if_false]

theorem Hw.hxDescWrite_of_accepted {t v : Nat} (hb : h.bankBusy = false) (hlo : 10 ≤ bits v 60 56) (hhi : bits v 60 56 ≤ 22) :
    h.hxDescWrite n t v = h.setVal .FT_HX_DESC ((bits v 63 63 <<< 63) + (bits v 60 56 <<< 56) +
      bits v 39 0 / 2 ^ (7 + bits v 60 56) * 2 ^ (7 + bits v 60 56)) t 0 h.next := by
  have hsize : ¬(bits v 60 56 < 10 ∨ 22 < bits v 60 56) := by omega
  unfold Hw.hxDescWrite
  simp only [hb, hsize, Bool.false_eq_true, if_false]

end

/-! ### What reading memory leaves of it (R345, R354) -/

section
variable (h : Hw) (cls a n : Nat)

@[simp] theorem Hw.shareSpend_mem (s sectors : Nat) : (h.shareSpend s cls sectors).mem = h.mem := by
  unfold Hw.shareSpend
  split <;> rfl

@[simp] theorem Hw.requests_mem : (h.requests cls a n).mem = h.mem := by
  unfold Hw.requests
  split <;> rfl

@[simp] theorem Hw.activate_mem (as : List Nat) : (h.activate as).mem = h.mem := (rfl)

@[simp] theorem Hw.granules_mem : (h.granules cls a n).mem = h.mem := by
  unfold Hw.granules
  split
  · rw [Hw.activate_mem, Hw.shareSpend_mem, Hw.requests_mem]
  · rfl

@[simp] theorem Hw.poisonedRead_mem (s : Nat) : (h.poisonedRead cls s).mem = h.mem := by
  unfold Hw.poisonedRead
  dsimp only
  split
  · rw [Hw.setBit_mem, Hw.count_mem, Hw.raise_mem]
  · rw [Hw.wr_mem, Hw.wr_mem, Hw.wr_mem, Hw.wr_mem, Hw.setBit_mem, Hw.count_mem, Hw.raise_mem]

/-- A read changes no byte of memory, poisoned sectors or not. -/
@[simp] theorem Hw.fetch_mem : (h.fetch cls a n).2.mem = h.mem :=
  (Hw.granules_mem _ _ _ _).trans
    (Hw.over_keeps (fun k => k.mem = h.mem) _ _ (fun k s hk => (k.poisonedRead_mem cls s).trans hk) h rfl)

end

/-- The words of memory are told by its bytes alone. -/
theorem Hw.loadWords_congr {h k : Hw} (hm : k.mem = h.mem) (a m : Nat) : k.loadWords a m = h.loadWords a m := by
  induction m generalizing a with
  | zero => rfl
  | succ m ih => simp only [Hw.loadWords, Hw.load64, Hw.load, hm, ih]

/-! ### HX commands (R202) -/

section
variable {h : Hw} {n : Nat}

theorem Hw.hxRead_of_accepted (hc : h.hxCause n = 0) :
    h.hxRead n = (((h.fetch 1 (h.hxTarget n).1 32).2.each 4 (fun k w =>
      k.setVal .FT_HX_ENTRY (nth (h.loadWords (h.hxTarget n).1 4) w 0) w n))).count .FT_CNT_count 14 n := by
  have hwords := Hw.loadWords_congr (h.fetch_mem 1 (h.hxTarget n).1 32) (h.hxTarget n).1 4
  unfold Hw.hxRead
  simp only [hc, hwords, ne_eq, not_true_eq_false, if_false]

/-- The four words staged for an HX entry. -/
def Hw.hxStaged (h : Hw) (n : Nat) : List Nat := (List.range 4).map (fun w => h.val .FT_HX_ENTRY w n)

theorem Hw.hxWrite_of_accepted (hc : h.hxCause n = 0) (hr : bits (h.val .FT_HX_ENTRY 3 n) 60 16 = 0) :
    h.hxWrite n = (h.storeWords 1 (h.hxTarget n).1 (setNth (h.hxStaged n) 3
      (setBits (nth (h.hxStaged n) 3 0) 15 0 (hxCheck (h.hxTarget n).1 (h.hxStaged n))))).count .FT_CNT_count 14 n := by
  unfold Hw.hxWrite Hw.hxStaged
  simp only [hc, hr, ne_eq, not_true_eq_false, if_false]

theorem Hw.hxWrite_of_reserved (hr : bits (h.val .FT_HX_ENTRY 3 n) 60 16 ≠ 0) : h.hxWrite n = h.ftRefuse n 4 := by
  unfold Hw.hxWrite
  simp only [if_pos hr, ne_eq, OfNat.ofNat_ne_zero, not_false_eq_true, if_true]

end

/-! ### The commands -/

section
variable {n : Slice} {s : State}

theorem exec_ftCmdDone_of_busy (hb : s.hw.on .FT_CMD_busy 0 n = true) :
    exec (.ftCmdDone n) s = .next (s.setHw ((s.hw.wr .FT_CMD_busy 0 0 n).count .FT_CNT_count 14 n)) := by
  rw [exec_ftCmdDone]
  exact onHw_eq (if_pos hb)

theorem exec_ftSyncDone_of_busy (hb : s.hw.on .FT_SYNC_busy 0 n = true) :
    exec (.ftSyncDone n) s = .next (s.setHw
      (((s.hw.wr .FT_SYNC_busy 0 0 n).wr .FT_STATUS_stale 0 0 n).wr .FT_STATUS_sync_done 1 0 n)) := by
  rw [exec_ftSyncDone]
  exact onHw_eq (if_pos hb)

theorem exec_lpFence_next (mask : BitVec 8) : exec (.lpFence n mask) s = .next (s.setHw (s.hw.lpFence n mask.toNat)) := by
  rw [exec_lpFence]
  exact onHw_next _ s

theorem exec_lpFenceDone_of_landed (hf : s.hw.fenced n = false) :
    exec (.lpFenceDone n) s = .next (s.setHw { s.hw.wr .FT_LP_FENCE_busy 0 0 n with
      fences := s.hw.fences.filter (fun f => f.1 != n.val) }) := by
  rw [exec_lpFenceDone]
  exact onHw_eq (if_neg (by rw [hf]; exact Bool.false_ne_true))

theorem exec_lpFenceDone_of_flying (hf : s.hw.fenced n = true) : exec (.lpFenceDone n) s = .next s := by
  rw [exec_lpFenceDone]
  exact onHw_stands (if_pos hf)

theorem exec_ftScrub_next : exec (.ftScrub n) s = .next (s.setHw (s.hw.ftScrub n)) := by
  rw [exec_ftScrub]
  exact onHw_next _ s

variable {off : BitVec 20} (h8 : off.toNat % 8 = 0) (v : Word)
include h8

theorem exec_ftBankedWrite_profile {f : Nat} (ho : off.toNat = 0x300 + 8 * f) (hf : f < 2) :
    exec (.ftBankedWrite n off v) s = .next (s.setHw (s.hw.lpProfileWrite n f v.toNat)) := by
  have hin : 0x300 ≤ off.toNat ∧ off.toNat < 0x310 := by omega
  have hix : (off.toNat - 0x300) / 8 = f := by omega
  rw [exec_ftBankedWrite]
  refine onHw_eq ?_
  simp only [h8, hin, hix, and_self, ne_eq, not_true_eq_false, if_false, if_true]

theorem exec_ftBankedWrite_desc {t : Nat} (ho : off.toNat = 0x400 + 8 * t) (ht : t < 8) :
    exec (.ftBankedWrite n off v) s = .next (s.setHw (s.hw.hxDescWrite n t v.toNat)) := by
  have hout : ¬(0x300 ≤ off.toNat ∧ off.toNat < 0x310) := by omega
  have hin : 0x400 ≤ off.toNat ∧ off.toNat < 0x440 := by omega
  have hix : (off.toNat - 0x400) / 8 = t := by omega
  rw [exec_ftBankedWrite]
  refine onHw_eq ?_
  simp only [h8, hout, hin, hix, and_self, ne_eq, not_true_eq_false, if_false, if_true]

end

/-- Settles O12: each command by its lemma, and each banked write by the register at its offset; an HX read finds the words that
memory held before it, for fetching changes none. -/
theorem forwardingTableCommands : Obligations.ForwardingTableCommands := by
  refine ⟨fun n s hb => ⟨fun ht hi => ?_, fun hi => ?_, fun mask ht hi hr hc => ?_⟩, fun n s hb => exec_ftCmdDone_of_busy hb,
    fun n v s hb hgo hsrc hs hc => ?_, fun n s hb => exec_ftSyncDone_of_busy hb,
    fun n mask s => ⟨exec_lpFence_next mask, exec_lpFenceDone_of_landed, exec_lpFenceDone_of_flying⟩,
    fun n s => ⟨exec_ftScrub_next, Hw.ftScrub_of_idle⟩,
    fun n off v s h8 hb => ⟨fun f ho hf hc => ?_, fun t ho ht hlo hhi => ?_⟩,
    fun n s hc => ⟨?_, fun hr => ?_⟩, fun n s hr => ?_⟩
  · rw [exec_ftRead]
    exact onHw_eq (Hw.ftRead_of_tc hb ht hi)
  · rw [exec_ftRead]
    exact onHw_eq (Hw.ftRead_of_outside hb hi)
  · rw [exec_ftWrite]
    exact onHw_eq (Hw.ftWrite_of_tc mask.toNat hb ht hi hr hc)
  · rw [exec_ftSync]
    exact onHw_eq (Hw.ftSync_of_go hb hgo hsrc hs hc)
  · rw [exec_ftBankedWrite_profile h8 v ho hf, Hw.lpProfileWrite_of_accepted hb hc]
  · rw [exec_ftBankedWrite_desc h8 v ho ht, Hw.hxDescWrite_of_accepted hb hlo hhi]
  · rw [exec_hxRead]
    exact onHw_eq (Hw.hxRead_of_accepted hc)
  · rw [exec_hxWrite]
    exact onHw_eq (Hw.hxWrite_of_accepted hc hr)
  · rw [exec_hxWrite]
    exact onHw_eq (Hw.hxWrite_of_reserved hr)

end Sys2Proof.Machine
end

section
/-! The clearing house (R203 to R210): requests that reach it and are applied, its commands on the entry of a key, the aging scanner,
and the place of its ring. -/

namespace Sys2Proof.Machine

/-! ### Requests (R203, R205) -/

section
variable {s : State}

theorem exec_learnRequest_of_some {w : Option Nat × ChReq} (hw : s.hw.ch.coming.find? (fun c => c.1.isNone) = some w) :
    exec .learnRequest s = .next (s.setHw
      (({ s.hw with ch := { s.hw.ch with coming := delFirst (fun c => c.1.isNone) s.hw.ch.coming } } : Hw).chArrive w.2)) := by
  rw [exec_learnRequest]
  refine onHw_eq ?_
  simp only [hw]

theorem exec_chRequestProcess_of_cons {r : ChReq} {q : List ChReq} (hq : s.hw.ch.queue = r :: q) :
    exec .chRequestProcess s = .next (s.setHw (({ s.hw with ch := { s.hw.ch with queue := q } } : Hw).chApply r)) := by
  rw [exec_chRequestProcess]
  refine onHw_eq ?_
  simp only [hq]

end

/-! ### A command processed (R209) -/

/-- A command begun: busy cleared and the command counted. -/
def Hw.chBegun (h : Hw) : Hw := (h.wr .FT_CH_CMD_busy 0).count .FT_CH_CNT_count 13

/-- What INSERT (2), DELETE (3), CLEAR_CONTESTED (4) and SET_ED (5) make of the entry that holds their key. -/
def Hw.chEntryOp (h : Hw) (op sub key data i : Nat) : Hw :=
  match op with
  | 2 => (h.chPut i key (exWord1 (bits data 62 61) false (bit data 63) false sub data)).setStamp i (h.freshStamp true 0)
  | 3 => (h.chPut i key (setBits (h.chWord1 i) 63 63 0)).setStamp i ⟨0, 0, false, 0⟩
  | 4 => ((h.stamp i).2.chPut i key (setBits (h.chWord1 i) 57 57 0)).setStamp i { (h.stamp i).1 with settled := true }
  | _ => h.chPut i key (setBits (h.chWord1 i) 62 61 (bits data 62 61))

section
variable {h : Hw} {sub key : Nat} (data : Nat)

theorem Hw.chCommand_lookup_of_none (hf : h.chBegun.chFind sub key = none) :
    h.chCommand 1 sub key data = h.chBegun.setVal .FT_CH_RESULT 0 := by
  unfold Hw.chBegun at hf ⊢
  simp [Hw.chCommand, hf]

/-- An operation on an entry, with a key in use and nothing that refuses the change. -/
theorem Hw.chCommand_of_found {op i : Nat} (hlo : 2 ≤ op) (hhi : op ≤ 5) (hf : h.chBegun.chFind sub key = some i)
    (hc : h.chBegun.chCause = 0) : h.chCommand op sub key data = h.chBegun.chEntryOp op sub key data i := by
  unfold Hw.chBegun at hf hc ⊢
  interval_cases op <;> simp [Hw.chCommand, Hw.chEntryOp, hf, hc]

/-! ### A command written (R203, R209) -/

variable {op : Nat} (hb : h.on .FT_CH_CMD_busy = false)
include hb

theorem Hw.chCmdWrite_of_idle (hq : h.ch.queue = []) :
    h.chCmdWrite op sub =
      (h.count .FT_CH_CNT_count 0).chCommand op sub (h.val .FT_CH_KEY) (h.val .FT_CH_DATA) := by
  unfold Hw.chCmdWrite
  simp [hb, hq, Hw.chApply]

theorem Hw.chCmdWrite_of_waiting (hq : h.ch.queue ≠ []) :
    h.chCmdWrite op sub = ((h.count .FT_CH_CNT_count 0).chEnqueue
      (.cmd op sub (h.val .FT_CH_KEY) (h.val .FT_CH_DATA))).wr .FT_CH_CMD_busy 1 := by
  unfold Hw.chCmdWrite
  simp [hb, hq]

end

/-- The commands of a sub-table, each with its code in FT_CH_CMD.op. -/
def chCommands (sub : Fin 64) : List (Instr × Nat) :=
  [(.chLookup sub, 1), (.chInsert sub, 2), (.chDelete sub, 3), (.chClearContested sub, 4), (.chSetEd sub, 5)]

/-- Each of them is a write of its code to FT_CH_CMD. -/
theorem exec_of_mem_chCommands {sub : Fin 64} {c : Instr} {op : Nat} (hc : (c, op) ∈ chCommands sub) (s : State) :
    exec c s = .next (s.setHw (s.hw.chCmdWrite op sub)) := by
  simp only [chCommands, List.mem_cons, List.not_mem_nil, or_false, Prod.mk.injEq] at hc
  rcases hc with ⟨rfl, rfl⟩ | ⟨rfl, rfl⟩ | ⟨rfl, rfl⟩ | ⟨rfl, rfl⟩ | ⟨rfl, rfl⟩
  · exact exec_chLookup sub s
  · exact exec_chInsert sub s
  · exact exec_chDelete sub s
  · exact exec_chClearContested sub s
  · exact exec_chSetEd sub s

/-- An operation on the entry of a key, written to an idle clearing house. -/
theorem exec_chCommand_of_found {sub : Fin 64} {c : Instr} {op i : Nat} {s : State} (hm : (c, op) ∈ chCommands sub)
    (hop : 2 ≤ op) (hb : s.hw.on .FT_CH_CMD_busy = false) (hq : s.hw.ch.queue = [])
    (hf : (s.hw.count .FT_CH_CNT_count 0).chBegun.chFind sub (s.hw.val .FT_CH_KEY) = some i)
    (hc : (s.hw.count .FT_CH_CNT_count 0).chBegun.chCause = 0) :
    exec c s = .next (s.setHw
      ((s.hw.count .FT_CH_CNT_count 0).chBegun.chEntryOp op sub (s.hw.val .FT_CH_KEY) (s.hw.val .FT_CH_DATA) i)) := by
  have hhi : op ≤ 5 := by
    simp only [chCommands, List.mem_cons, List.not_mem_nil, or_false, Prod.mk.injEq] at hm
    omega
  rw [exec_of_mem_chCommands hm, Hw.chCmdWrite_of_idle hb hq, Hw.chCommand_of_found _ hop hhi hf hc]

/-! ### The aging scanner (R207, R208) -/

section
variable (h : Hw) (i : Nat)

@[simp] theorem Hw.stamp_ch : (h.stamp i).2.ch = h.ch := by
  unfold Hw.stamp
  dsimp only
  split
  · rfl
  · rw [Hw.raise_ch, Hw.mark_ch, Hw.setVal_ch]

/-- Reading a stamp record rewrites no register but its own. -/
theorem Hw.stamp_val {m : RegName} (hm : RegName.A_STAMP ≠ m) (ix sl bank : Nat) :
    (h.stamp i).2.val m ix sl bank = h.val m ix sl bank := by
  unfold Hw.stamp
  dsimp only
  split
  · rfl
  · rw [Hw.raise_val, Hw.mark_val, Hw.val_setVal_other _ _ _ _ _ _ _ _ _ _ hm]

@[simp] theorem Hw.setStamp_ch (s : Stamp) : (h.setStamp i s).ch = h.ch := by
  unfold Hw.setStamp
  rw [Hw.mark_ch, Hw.setVal_ch]

theorem Hw.setStamp_val (s : Stamp) {m : RegName} (hm : RegName.A_STAMP ≠ m) (ix sl bank : Nat) :
    (h.setStamp i s).val m ix sl bank = h.val m ix sl bank := by
  unfold Hw.setStamp
  rw [Hw.mark_val, Hw.val_setVal_other _ _ _ _ _ _ _ _ _ _ hm]

/-- All that a scan of an entry in use does to the requests: none is added, or, with age_en set, the AGE request of that entry at
the end of the queue. -/
theorem Hw.agingScan_ch (hv : h.chValid i = true) :
    (h.agingScan i).ch = h.ch ∨
      h.on .FT_CH_CTRL_age_en = true ∧ ∃ seen, (h.agingScan i).ch = { h.ch with queue := h.ch.queue ++
        [.age i (bits (h.chWord1 i) 55 50) (h.val .A_EX (2 * i) chView) seen] } := by
  have hch := h.stamp_ch i
  have hval {m : RegName} (hm : RegName.A_STAMP ≠ m) := h.stamp_val i hm
  unfold Hw.agingScan
  rw [if_pos hv]
  generalize h.stamp i = p at hch hval ⊢
  obtain ⟨old, k⟩ := p
  dsimp only at hch hval ⊢
  generalize (if 32768 ≤ (k.now8 + 65536 - old.changed) % 65536 then { old with settled := true } else old) = st
  have hstamped {m : RegName} (hm : RegName.A_STAMP ≠ m) (ix sl bank : Nat) :
      (k.setStamp i st).val m ix sl bank = h.val m ix sl bank := (k.setStamp_val i st hm _ _ _).trans (hval hm _ _ _)
  have hqueue : (k.setStamp i st).ch = h.ch := (k.setStamp_ch i st).trans hch
  generalize k.setStamp i st = r at hstamped hqueue ⊢
  by_cases hen : r.on .FT_CH_CTRL_age_en = true
  · split
    · refine .inr ⟨?_, st.seen, ?_⟩
      · rw [← hen, Hw.on, Hw.on, Hw.rd, Hw.rd, hstamped (by decide)]
      · rw [Hw.chEnqueue, Hw.count_ch, hqueue, hstamped (by decide)]
    · exact .inl hqueue
  · rw [Bool.not_eq_true] at hen
    rw [hen, Bool.false_and, Bool.false_and, Bool.false_and, Bool.false_and, if_neg Bool.false_ne_true]
    exact .inl hqueue

end

theorem exec_agingScan_next (i : Fin 1048576) (s : State) : exec (.agingScan i) s = .next (s.setHw (s.hw.agingScan i)) := by
  rw [exec_agingScan]
  exact onHw_next _ s

/-! ### The ring (R210) -/

/-- The base of a ring as it is stored: aligned to the ring's size. -/
def ringBase (v : Nat) : Nat := bits v 39 0 / 2 ^ (5 + bits v 63 60) * 2 ^ (5 + bits v 63 60)

section
variable {h : Hw} {v : Nat}

theorem Hw.chRingWrite_of_placed (hk : 6 ≤ bits v 63 60)
    (hp : ringBase v = 0 ∨ inShared (ringBase v) (2 ^ (5 + bits v 63 60)) = true) :
    h.chRingWrite v = h.setVal .FT_CH_RING ((bits v 63 60 <<< 60) + ringBase v) := by
  refine if_neg (not_or.mpr ⟨Nat.not_lt.mpr hk, fun ⟨hne, hout⟩ => ?_⟩)
  rcases hp with h0 | hin
  · exact hne h0
  · exact absurd hin (Bool.eq_false_iff.mp ((Bool.not_eq_true' _).mp hout))

theorem Hw.chRingWrite_of_not_placed
    (hp : bits v 63 60 < 6 ∨ (ringBase v ≠ 0 ∧ inShared (ringBase v) (2 ^ (5 + bits v 63 60)) = false)) :
    h.chRingWrite v = h :=
  if_pos (hp.imp_right (And.imp_right (Bool.not_eq_true' _).mpr))

end

/-- Settles O13: each request by its lemma, the commands as writes of their code, the scan by all that it can do to the requests, and
the ring by where its base lies. -/
theorem clearingHouse : Obligations.ClearingHouse := by
  refine ⟨fun w s => exec_learnRequest_of_some, fun r q s => exec_chRequestProcess_of_cons, fun sub s hb hq => ⟨fun hf => ?_,
    fun i hf hc => ?_⟩, fun sub c op s hb hq hm => ?_, fun i s hv => ⟨_, exec_agingScan_next i s, ?_, s.sameOutside_setHw _, ?_⟩,
    fun v s => ⟨fun hk hp => ?_, fun hp => ?_⟩⟩
  · rw [exec_of_mem_chCommands (sub := sub) (op := 1) (by simp [chCommands]), Hw.chCmdWrite_of_idle hb hq,
      Hw.chCommand_lookup_of_none _ hf]
    rfl
  · exact ⟨exec_chCommand_of_found (op := 2) (by simp [chCommands]) (by decide) hb hq hf hc,
      exec_chCommand_of_found (op := 3) (by simp [chCommands]) (by decide) hb hq hf hc,
      exec_chCommand_of_found (op := 4) (by simp [chCommands]) (by decide) hb hq hf hc,
      exec_chCommand_of_found (op := 5) (by simp [chCommands]) (by decide) hb hq hf hc⟩
  · rw [exec_of_mem_chCommands hm, Hw.chCmdWrite_of_waiting hb hq]
  · rcases s.hw.agingScan_ch i hv with hch | ⟨-, seen, hch⟩ <;> rw [State.setHw_hw, hch]
  · intro hoff
    rcases s.hw.agingScan_ch i hv with hch | ⟨hen, -⟩
    · rw [State.setHw_hw, hch]
    · exact absurd hen (Bool.eq_false_iff.mp hoff)
  · rw [exec_chRingWrite]
    exact onHw_eq (Hw.chRingWrite_of_placed hk hp)
  · rw [exec_chRingWrite]
    exact onHw_stands (Hw.chRingWrite_of_not_placed hp)

end Sys2Proof.Machine
end

section
/-! The edition controller (R217 to R225): a flip accepted or refused, the closing of the old bit and its markers, its retirement,
and forced closing. -/

namespace Sys2Proof.Machine

/-! ### Events and counts -/

section
variable (h : Hw)

@[simp] theorem Hw.edEvent_ed (e : Nat) : (h.edEvent e).ed = h.ed := h.setBit_ed .ED_EVENT_events e 0 0

@[simp] theorem Hw.edCount_ed (c : Nat) : (h.edCount c).ed = h.ed := h.count_ed .ED_CNT_count c 0 1

@[simp] theorem Hw.edCount_next (c : Nat) : (h.edCount c).next = h.next :=
  congrArg (1 - ·) (h.rd_count_other .ED_CNT_count .ED_STATUS_current c 0 1 0 0 0 (by decide))

@[simp] theorem Hw.edCount_otherState (c : Nat) : (h.edCount c).otherState = h.otherState :=
  h.rd_count_other .ED_CNT_count .ED_STATUS_other_state c 0 1 0 0 0 (by decide)

end

section
variable {h : Hw}

/-! ### The flip (R219, R220) -/

theorem Hw.edFlip_of_no_cause (hc : h.flipCause = 0) : h.edFlip =
    (let k := (((((h.wr .ED_STATUS_current h.next).wr .ED_STATUS_other_state 1).setVal .ED_FLIPTIME h.now).count
      .ED_FLIPS_flips).edEvent 0).edCount 0
     { k with ed := { h.ed with permit := false, slow := false, forced := none } }) := by
  unfold Hw.edFlip
  dsimp only
  rw [if_neg (not_not_intro hc)]
  simp only [Hw.edCount_ed, Hw.edEvent_ed, Hw.count_ed, Hw.setVal_ed, Hw.wr_ed, Hw.now, Hw.wr_time]

/-- A refusal whose cause is not a missing nano-word. -/
theorem Hw.edFlip_of_cause (hc : h.flipCause ≠ 0) (hnano : h.flipCause ≠ 3) : h.edFlip =
    (((h.wr .ED_STATUS_flip_refused 1).wr .ED_STATUS_cause h.flipCause).edEvent 5).edCount 1 := by
  unfold Hw.edFlip
  dsimp only
  rw [if_pos hc, if_neg hnano]

/-! ### Closing, and the markers awaited (R222) -/

theorem Hw.edClose_of_idle (hb : h.on .ED_CMD_busy = false) : h.edClose = { h with ed := { h.ed with permit := true } } :=
  if_neg (Bool.eq_false_iff.mp hb)

/-- With no copy of a partial count that disagrees with its other copy, a drained bit whose closing is permitted closes. -/
theorem Hw.editionClose_of_drained (ho : h.otherState = 1) (hnext : h.drainCopies h.next = h)
    (hcur : h.drainCopies h.current = h) (hd : h.drainCount h.next = 0) (hp : h.closePermitted = true) : h.editionClose =
    (let k := ((h.wr .ED_STATUS_other_state 2).edEvent 1).sendMarkers h.next
     k.awaitMarkers k.fabricUp) := by
  unfold Hw.editionClose
  rw [if_neg (not_not_intro ho)]
  dsimp only
  rw [hnext, hcur, if_pos ⟨hd, hp⟩]

theorem Hw.drainMarker_of_awaited {p b : Nat} (hb : b = h.next) (ho : h.otherState = 2) (ha : h.ed.await.contains p = true) :
    h.drainMarker p b = (h.edCount 5).awaitMarkers (h.ed.await.filter (· != p)) := by
  have hbit : b = (h.edCount 5).next := hb.trans (h.edCount_next 5).symm
  unfold Hw.drainMarker Hw.edPortDone
  dsimp only
  rw [if_pos hbit, Hw.edCount_otherState, Hw.edCount_ed, if_pos ⟨ho, ha⟩]

/-! ### Forced closing (R225) -/

theorem Hw.forceClose_of_old_bit (hb : h.on .ED_CMD_busy = false) (ho : h.otherState ≠ 0) : h.forceClose =
    (let k := h.each 8 (fun k n => k.over (k.busyQueues n) (fun k q => k.flushQueue n q 0x7F (some h.next)))
     let ids := k.ctxs.map (·.id) ++ k.formers.filterMap (·.ctx)
     { k with ed := { k.ed with permit := true, forced := if k.otherState = 1 then some ids else none } }) := by
  unfold Hw.forceClose
  rw [hb, Bool.false_or, if_neg (fun h0 => ho (beq_iff_eq.mp h0))]

/-- The partial counts with both copies of a bit's counts zeroed in every slice. -/
def zeroParts (b : Nat) (parts : List Nat) : List Nat :=
  (List.range 8).foldl (fun p n => setNth (setNth p (drainIx n b 0) 0) (drainIx n b 1) 0) parts

end

/-! ### The commands -/

section
variable {s : State}

theorem exec_drainMarkerRx_next (p : Port) (b : Fin 2) : exec (.drainMarkerRx p b) s = .next (s.setHw (s.hw.drainMarker p b)) := by
  rw [exec_drainMarkerRx]
  exact onHw_next _ s

theorem exec_markerWaitTimeout_of_closed (ho : s.hw.otherState = 2) :
    exec .markerWaitTimeout s = .next (s.setHw (s.hw.edEvent 4).retire) := by
  rw [exec_markerWaitTimeout]
  exact onHw_eq (if_pos ho)

theorem exec_drainSlow_of_draining (ho : s.hw.otherState = 1) (hs : s.hw.ed.slow = false) :
    exec .drainSlow s = .next (s.setHw (({ s.hw with ed := { s.hw.ed with slow := true } } : Hw).edEvent 3)) := by
  rw [exec_drainSlow]
  exact onHw_eq (if_pos ⟨ho, hs⟩)

theorem exec_forceCloseZeroCounts_of_released {ids : List Nat} (hf : s.hw.ed.forced = some ids)
    (hr : ids.any (fun c => s.hw.ctxs.any (fun x => x.id == c) || s.hw.formers.any (fun f => f.ctx == some c)) = false) :
    exec .forceCloseZeroCounts s = .next (s.setHw { s.hw with ed := { s.hw.ed with
      parts := zeroParts s.hw.next s.hw.ed.parts, forced := none } }) := by
  rw [exec_forceCloseZeroCounts]
  refine onHw_eq ?_
  simp only [hf]
  exact if_neg (Bool.eq_false_iff.mp hr)

end

/-- Settles O14: each command by its lemma; a marker finds the closed bit and the awaited ports as they stood, for counting it
changes neither. -/
theorem editionLifecycle : Obligations.EditionLifecycle := by
  refine ⟨fun s hc => ?_, fun s hc hnano => ?_, fun s hb => ?_, fun s ho hnext hcur hd hp => ?_, fun p b s hb ho ha => ?_,
    fun s => exec_markerWaitTimeout_of_closed, fun s => exec_drainSlow_of_draining, fun s hb ho => ?_,
    fun ids s hf hr => ⟨_, exec_forceCloseZeroCounts_of_released hf hr, rfl, ?_, rfl, s.sameOutside_setHw _⟩⟩
  · rw [exec_edFlip]
    exact onHw_eq (Hw.edFlip_of_no_cause hc)
  · rw [exec_edFlip]
    exact onHw_eq (Hw.edFlip_of_cause hc hnano)
  · rw [exec_edClose]
    exact onHw_eq (Hw.edClose_of_idle hb)
  · rw [exec_editionClose]
    exact onTx_eq (Hw.editionClose_of_drained ho hnext hcur hd hp)
  · rw [exec_drainMarkerRx_next, Hw.drainMarker_of_awaited hb ho ha]
  · rw [exec_edForceClose]
    exact onTx_eq (Hw.forceClose_of_old_bit hb ho)
  · rw [State.setHw_hw, zeroParts]

end Sys2Proof.Machine
end

section
/-! The crossbar (R232 to R241): places granted or given up, filler, a cell that arrives in order, ahead or failing, loss, the notices
to the source, and the test of a removed plane. -/

namespace Sys2Proof.Machine

section
variable {h : Hw}

/-! ### Places (R234) -/

theorem Hw.grantPlaces_of_fit {f : Former} (hf : h.former? f.id = some f) (hg : f.granted = false)
    (hfit : h.placesFit f.src f.dst (placesFor (extBound f.ext)) = true) : h.grantPlaces f.id =
    (let k := h.setFormer { f with granted := true }
     k.runStream f.stream k.formers.length) := by
  unfold Hw.grantPlaces
  simp only [hf]
  rw [hg, hfit, if_neg (by decide)]

/-! ### A cell arrives (R237)

A cell's distance ahead of the expected one, `E`, is taken modulo 65,536, the range of sequence numbers. -/

/-- A cell whose stored check fails, or that its plane has changed. -/
theorem Hw.cellArrives_of_failing {k : StreamKey} {c : Cell} {intact : Bool}
    (hbad : intact = false ∨ c.check ≠ c.crc k.2.2 c.seq) :
    h.cellArrives k c intact = ((h.raise 0x601 k.2.2).planeFail k.2.2 c.plane).noteCheckFail k.2.2 := by
  refine if_pos (Bool.or_eq_true_iff.mpr (hbad.imp ?_ bne_iff_ne.mpr))
  rintro rfl
  rfl

variable {k : StreamKey} {c : Cell} (hcheck : c.check = c.crc k.2.2 c.seq)
include hcheck

/-- A cell that arrives as it was sent is placed by its distance ahead of `E`. -/
theorem Hw.cellArrives_of_intact : h.cellArrives k c true =
    (let x := h.stream k
     let ahead := (c.seq + 65536 - x.exp) % 65536
     if ahead = 0 then
       ((h.setStream k { x with exp := (x.exp + 1) % 65536, checkFail := false }).reassemble k c).releaseHeld k x.held.length
     else if ahead < 2048 && !x.held.any (fun y => y.seq == c.seq) then h.setStream k { x with held := x.held ++ [c] }
     else (h.raise 0x604 k.2.2).bump .XB_CNT 10) :=
  if_neg (by simp [← hcheck])

theorem Hw.cellArrives_of_expected (hseq : c.seq = (h.stream k).exp) : h.cellArrives k c true =
    ((h.setStream k { h.stream k with exp := ((h.stream k).exp + 1) % 65536, checkFail := false }).reassemble k c).releaseHeld k
      (h.stream k).held.length := by
  have hahead : (c.seq + 65536 - (h.stream k).exp) % 65536 = 0 := by omega
  rw [Hw.cellArrives_of_intact hcheck]
  exact if_pos hahead

theorem Hw.cellArrives_of_ahead (hne : (c.seq + 65536 - (h.stream k).exp) % 65536 ≠ 0)
    (hwin : (c.seq + 65536 - (h.stream k).exp) % 65536 < 2048)
    (hnew : (h.stream k).held.any (fun y => y.seq == c.seq) = false) :
    h.cellArrives k c true = h.setStream k { h.stream k with held := (h.stream k).held ++ [c] } := by
  rw [Hw.cellArrives_of_intact hcheck]
  dsimp only
  rw [if_neg hne, if_pos (by rw [hnew, decide_eq_true hwin]; rfl)]

end

section
variable {h : Hw}

/-! ### Loss, and the notices to the source (R238, R241) -/

/-- A stream that holds no cell and has no frame in reassembly has nothing to declare lost. -/
theorem Hw.declareLost_of_nothing_open {k : StreamKey} (hheld : (h.stream k).held = []) (hreasm : (h.stream k).reasm = none) :
    h.declareLost k = h :=
  if_pos ⟨List.isEmpty_iff.mpr hheld, Option.isNone_iff_eq_none.mpr hreasm⟩

theorem Hw.takeNotice_of_some {src : Nat} {loss : Bool} {x : Notice}
    (hx : h.notices.find? (fun x => x.key.1 == src && x.loss == loss) = some x) : h.takeNotice src loss =
    ({ h with notices := delFirst (fun x => x.key.1 == src && x.loss == loss) h.notices } : Hw).countOut x := by
  unfold Hw.takeNotice
  simp only [hx]

end

/-! ### The commands -/

section
variable {s : State}

theorem exec_xbHold_of_waiting {f : Former} (hf : s.hw.former? f.id = some f) (hg : f.granted = false) :
    exec (.xbHold f.id) s = .next (s.setHw
      (let k := s.hw.dropFormer f 0x62
       k.runStream f.stream k.formers.length)) := by
  rw [exec_xbHold]
  refine onHw_eq ?_
  simp only [hf]
  exact if_neg (Bool.eq_false_iff.mp hg)

theorem exec_fillerCell_of_begun {src dst : Slice} {pipe : Fin 9} {f : Former}
    (hf : s.hw.formers.find? (fun f => f.src == src.val && f.pipe == pipe.val && f.dst == dst.val && f.granted) = some f)
    (hc : f.cells ≠ 0) (hup : s.hw.planesUp.isEmpty = false) :
    exec (.fillerCell src pipe dst) s = .next (s.setHw
      ((s.hw.sendCell ⟨src, pipe, dst, 0, false, false, true, 0, 0, false, f.ext, [], f.info, 0, 0⟩).bump .XB_CNT 11)) := by
  rw [exec_fillerCell]
  refine onHw_eq ?_
  simp only [hf]
  exact if_neg (not_or.mpr ⟨hc, Bool.eq_false_iff.mp hup⟩)

/-- The cell that a position of a stream names arrives, taken off its plane. -/
theorem exec_cellArrival_eq {src dst : Slice} {pipe : Fin 9} {seq : Fin 65536} {c : Cell} {intact : Bool} {h : Hw}
    (hc : s.hw.flight.find? (fun c => c.src == src.val && c.pipe == pipe.val && c.dst == dst.val && c.seq == seq.val) = some c)
    (hh : ({ s.hw with
        flight := delFirst (fun c => c.src == src.val && c.pipe == pipe.val && c.dst == dst.val && c.seq == seq.val)
          s.hw.flight } : Hw).cellArrives (src.val, pipe.val, dst.val) c intact = h) :
    exec (.cellArrival src pipe dst seq intact) s = .next (s.setHw h).settle := by
  rw [exec_cellArrival]
  refine onTx_eq ?_
  simp only [hc]
  exact hh

section
variable {plane : Fin 4} (hr : s.hw.restoring.contains plane.val = true)
include hr

theorem exec_planeRestoreDone_of_pass :
    let k := ({ s.hw with restoring := s.hw.restoring.filter (· != plane.val) } : Hw).setBit .XB_STATUS_plane_up plane
    exec (.planeRestoreDone plane true) s = .next (s.setHw
      (k.over (k.formers.map (·.stream)) (fun h k => h.runStream k h.formers.length))) := by
  rw [exec_planeRestoreDone]
  exact onHw_eq (if_pos hr)

theorem exec_planeRestoreDone_of_fail : exec (.planeRestoreDone plane false) s = .next (s.setHw
    (({ s.hw with restoring := s.hw.restoring.filter (· != plane.val) } : Hw).setBit .XB_STATUS_restore_failed plane)) := by
  rw [exec_planeRestoreDone]
  exact onHw_eq (if_pos hr)

end

end

/-- Settles O15: each command by its lemma; a cell that arrives finds its stream as it stood, for taking it off its plane changes the
cells in flight alone. -/
theorem crossbarTraffic : Obligations.CrossbarTraffic := by
  refine ⟨fun f s hf hg hfit => ?_, fun f s => exec_xbHold_of_waiting, fun src dst pipe f s => exec_fillerCell_of_begun,
    fun src dst pipe seq c s hc => ⟨fun hcheck hseq _ => ?_, fun hcheck hne hwin hnew => ?_, fun intact hbad => ?_⟩,
    fun src dst pipe s => ⟨?_, Hw.declareLost_of_nothing_open⟩, fun src x s => ⟨fun hx => ?_, fun hx => ?_⟩, fun v s => ?_,
    fun plane s hr => ⟨exec_planeRestoreDone_of_pass hr, exec_planeRestoreDone_of_fail hr⟩⟩
  · rw [exec_placesGrant]
    exact onHw_eq (Hw.grantPlaces_of_fit hf hg hfit)
  · exact exec_cellArrival_eq hc (Hw.cellArrives_of_expected hcheck hseq)
  · exact exec_cellArrival_eq hc (Hw.cellArrives_of_ahead hcheck hne hwin hnew)
  · exact exec_cellArrival_eq hc (Hw.cellArrives_of_failing hbad)
  · rw [exec_reseqTimeout]
    exact onTx_settle _ s
  · rw [exec_lossNotice]
    exact onHw_eq (Hw.takeNotice_of_some hx)
  · rw [exec_releaseAck]
    exact onHw_eq (Hw.takeNotice_of_some hx)
  · rw [exec_planeRestore]
    exact onHw_next _ s

end Sys2Proof.Machine
end

section
/-! A slice's buffer pool (R244 to R254): what a free request does by what its buffer's record holds, a carve word stored or refused,
and the account of a pool. -/

namespace Sys2Proof.Machine

section
variable {h : Hw}

/-! ### Frees (R250) -/

section
variable {f : FreeReq}

/-- A free of a buffer that is not allocated. -/
theorem Hw.applyFree_of_none (hb : (h.pool f.sl).bufs.find? (fun e => e.1 == f.buffer) = none) :
    h.applyFree f = h.freeRefused f 0 (FMap.get (fun _ => 0) (h.pool f.sl).tags f.buffer) := by
  unfold Hw.applyFree
  simp only [hb]

variable {b : Buf} (hb : (h.pool f.sl).bufs.find? (fun e => e.1 == f.buffer) = some (f.buffer, b)) (htag : b.tag = f.tag)
include hb htag

/-- A free of a buffer that has another reference. -/
theorem Hw.applyFree_of_shared (hrefs : 1 < b.refs) :
    h.applyFree f = h.setBuf f.sl f.buffer f.tag (fun b => { b with refs := b.refs - 1 }) := by
  unfold Hw.applyFree
  simp only [hb]
  rw [if_neg (not_not_intro htag), if_pos hrefs]

/-- A free of a buffer's last reference: the requester gets back the buffer's units. -/
theorem Hw.applyFree_of_last (hrefs : b.refs ≤ 1) : h.applyFree f =
    (h.setPool f.sl { h.pool f.sl with
      bufs := (h.pool f.sl).bufs.filter (fun e => e.1 != f.buffer),
      taken := (h.pool f.sl).taken.filter (· != f.buffer) }).wr .BP_ALLOW_used
      (h.rd .BP_ALLOW_used (f.tag / 512) f.sl - units (bufDenom f.buffer)) (f.tag / 512) f.sl := by
  unfold Hw.applyFree
  simp only [hb]
  rw [if_neg (not_not_intro htag), if_neg (Nat.not_lt.mpr hrefs), Hw.setPool_rd]

end

/-! ### Carving (R245) -/

section
variable {n v : Nat}

theorem Hw.carveWrite_of_admitted (hpow : h.slicePower n ≠ 3) (hbufs : (h.pool n).bufs = []) (hv : carveOk v = true) :
    h.carveWrite n v = h.setVal .BP_CARVE v 0 n :=
  if_pos ⟨hpow, List.isEmpty_iff.mpr hbufs, hv⟩

theorem Hw.carveWrite_of_refused (hno : h.slicePower n = 3 ∨ (h.pool n).bufs ≠ [] ∨ carveOk v = false) :
    h.carveWrite n v = h.wr .BP_STATUS_carve_refused 1 0 n := by
  refine if_neg fun ⟨hpow, hbufs, hv⟩ => ?_
  rcases hno with hactive | hheld | hbad
  · exact hpow hactive
  · exact hheld (List.isEmpty_iff.mp hbufs)
  · exact Bool.eq_false_iff.mp hbad hv

end

end

/-! ### The account (R254) -/

/-- The units that the requesters of a slice have in use (R247). -/
def Hw.usedUnits (h : Hw) (n : Nat) : Nat := ((List.range 104).map (fun r => h.rd .BP_ALLOW_used r n)).foldl (· + ·) 0

/-! ### The commands -/

section
variable {s : State} {n : Slice}

theorem exec_bufferFree_of_some {f : FreeReq} (hf : s.hw.frees.find? (fun f => f.sl == n.val) = some f) :
    exec (.bufferFree n) s = .next (s.setHw
      (({ s.hw with frees := delFirst (fun f => f.sl == n.val) s.hw.frees } : Hw).applyFree f)) := by
  rw [exec_bufferFree]
  refine onHw_eq ?_
  simp only [hf]

/-- In a pool with no buffer allocated the bitmaps agree with the records, and the account (R254) turns on the units in use alone. -/
theorem exec_poolAccountCheck_of_empty (htaken : (s.hw.pool n).taken = []) (hbufs : (s.hw.pool n).bufs = []) :
    exec (.poolAccountCheck n) s = onHw (fun h =>
      if h.usedUnits n = 0 then h else (h.raise 0x615 n).wr .BP_STATUS_account_fault 1 0 n) s := by
  rw [exec_poolAccountCheck]
  exact onHw_eq (if_congr (by simp [htaken, hbufs, Hw.usedUnits]) rfl rfl)

end

/-- Settles O16: a free by what the record of its buffer holds, a carve word by whether R245 admits it, and the account of an empty
pool by its units in use. -/
theorem bufferPools : Obligations.BufferPools := by
  refine ⟨fun n t s => ?_, fun n f b s hf => ⟨fun hb htag hrefs => ?_, fun hb htag hrefs => ?_, fun hb => ?_⟩,
    fun n v s => ⟨fun hpow hbufs hv => ?_, fun hno => ?_⟩, fun n s htaken hbufs => ⟨fun hused => ?_, fun hused => ?_⟩⟩
  · rw [exec_allocRequest]
    exact onTx_settle _ s
  · rw [exec_bufferFree_of_some hf, Hw.applyFree_of_shared hb htag hrefs]
  · rw [exec_bufferFree_of_some hf, Hw.applyFree_of_last hb htag hrefs]
  · rw [exec_bufferFree_of_some hf, Hw.applyFree_of_none hb]
  · rw [exec_bpCarveWrite]
    exact onHw_eq (Hw.carveWrite_of_admitted hpow hbufs hv)
  · rw [exec_bpCarveWrite]
    exact onHw_eq (Hw.carveWrite_of_refused hno)
  · rw [exec_poolAccountCheck_of_empty htaken hbufs]
    exact onHw_stands (if_pos hused)
  · rw [exec_poolAccountCheck_of_empty htaken hbufs]
    exact onHw_eq (if_neg hused)

end Sys2Proof.Machine
end

section
/-! A slice's queues and the schedulers (R258 to R281): a copy becomes visible, a head is picked, a scan that finds nothing to do
leaves the hardware, and a gate list waits and takes force. -/

namespace Sys2Proof.Machine

/-! ### Lists and runs of changes -/

theorem updFirst_congr {α : Type} {p : α → Bool} {f g : α → α} {l : List α} (hfg : ∀ x ∈ l, p x = true → f x = g x) :
    updFirst p f l = updFirst p g l := by
  induction l with
  | nil => rfl
  | cons a r ih =>
    obtain ⟨ha, hr⟩ := List.forall_mem_cons.mp hfg
    unfold updFirst
    split
    · rename_i hp
      rw [ha hp]
    · rw [ih hr]

theorem QueueSt.upd_congr {q : QueueSt} {c : Nat} {f g : QCopy → QCopy} (hfg : ∀ x ∈ q.copies, x.id = c → f x = g x) :
    q.upd c f = q.upd c g := by
  unfold QueueSt.upd
  rw [updFirst_congr (fun x hx hid => hfg x (List.mem_append_left _ hx) (beq_iff_eq.mp hid)),
    updFirst_congr (fun x hx hid => hfg x (List.mem_append_right _ hx) (beq_iff_eq.mp hid))]

/-- A run of changes of which none changes the hardware. -/
theorem Hw.over_stands {α : Type} {h : Hw} {l : List α} {f : Hw → α → Hw} (hf : ∀ a ∈ l, f h a = h) : h.over l f = h := by
  induction l with
  | nil => rfl
  | cons a r ih =>
    obtain ⟨ha, hr⟩ := List.forall_mem_cons.mp hf
    change (f h a).over r f = h
    rw [ha, ih hr]

/-! ### A copy becomes visible (R262) -/

/-- A copy that its queue holds whole becomes visible, whatever of it is on die. -/
theorem exec_copyVisible_of_whole {n : Slice} {c q : Nat} {s : State} (hq : s.hw.copyQueue n c = some q)
    (hwhole : ∀ x ∈ (s.hw.queue n q).copies, x.id = c → x.whole = true) :
    exec (.copyVisible n c) s = .next (s.setHw
      (s.hw.setQueue n q ((s.hw.queue n q).upd c (fun c => { c with visible := true })))) := by
  rw [exec_copyVisible]
  refine onHw_eq ?_
  simp only [hq]
  exact congrArg (s.hw.setQueue n q) (QueueSt.upd_congr fun x hx hid => if_pos (by rw [hwhole x hx hid, Bool.true_or]))

/-! ### Picks (R253, R266) -/

/-- What a pick finds: the links of the heads checked, and the queues that are deferred counted. -/
def Hw.surveyed (h : Hw) (p : Port) : Hw :=
  let l := h.each 16 (fun h q => h.checkLink (portSl p) (portQ p q))
  l.over ((List.range 16).filter (l.deferred? p)) (fun h q => (h.qCount (portSl p) (portQ p q) 6).pm (portSl p) 0x54)

/-- The head copy of a picked queue taken from it and sent into the egress half, with its window if the queue is gated. -/
def Hw.sendHead (h : Hw) (p : Port) (pipe : Fin 9) (q : Nat) (c : QCopy) : Hw :=
  (h.dequeue (portSl p) (portQ p q) c).sendCopy (portSl p) pipe (portQ p q) c
    (h.on .TM_QCFG_purchased (portQ p q) (portSl p) && bit (h.sched p).slots q)
    (if h.gated p q then some (h.counted (portSl p) (portQ p q) c.size, h.gateEnd p q h.now) else none)

section
variable {p : Port} {pipe : Fin 9} {s : State} {h : Hw} (ht : s.hw.takesEgress (portSl p) pipe = true)
include ht

theorem exec_schedulerPick_of_none (hp : (s.hw.surveyed p).pick p = (none, h)) :
    exec (.schedulerPick p pipe) s = .next (s.setHw h) := by
  simp only [Hw.surveyed] at hp
  rw [exec_schedulerPick]
  refine onHw_eq ?_
  simp only [ht, Bool.not_true, Bool.false_eq_true, if_false, hp]

theorem exec_schedulerPick_of_some {q : Nat} {c : QCopy} {r : List QCopy} (hp : (s.hw.surveyed p).pick p = (some q, h))
    (hd : (h.queue (portSl p) (portQ p q)).die = c :: r) :
    exec (.schedulerPick p pipe) s = .next (s.setHw (h.sendHead p pipe q c)) := by
  simp only [Hw.surveyed] at hp
  rw [exec_schedulerPick]
  refine onHw_eq ?_
  simp only [ht, Bool.not_true, Bool.false_eq_true, if_false, hp, hd]
  rfl

end

/-! ### Scans that find nothing to do (R279, R281) -/

section
variable {n : Slice} {s : State}

theorem exec_queueAgeScan_of_no_limit (hage : ∀ q ∈ s.hw.busyQueues n, s.hw.rd .TM_QCFG2_age_ms q n = 0) :
    exec (.queueAgeScan n) s = .next s := by
  rw [exec_queueAgeScan]
  exact onHw_stands (Hw.over_stands fun q hq => if_pos (hage q (List.mem_of_mem_filter hq)))

theorem exec_queueAccountCheck_of_agree
    (hagree : ∀ q ∈ (s.hw.queues.filter (fun e => e.1 / 2048 == n.val)).map (fun e => e.1 % 2048),
      (s.hw.heldLengths n (s.hw.queue n q)).foldl (· + ·) 0 = (s.hw.queue n q).occ ∧
        (s.hw.heldLengths n (s.hw.queue n q)).length = (s.hw.queue n q).cnt) :
    exec (.queueAccountCheck n) s = .next s := by
  rw [exec_queueAccountCheck]
  exact onHw_stands (Hw.over_stands fun q hq => if_pos (hagree q hq))

end

/-! ### Gate lists (R273) -/

@[simp] theorem Hw.now_wr (h : Hw) (f : Fld) (v ix sl bank : Nat) : (h.wr f v ix sl bank).now = h.now := (rfl)
@[simp] theorem Hw.sched_wr (h : Hw) (f : Fld) (v ix sl bank q : Nat) : (h.wr f v ix sl bank).sched q = h.sched q := (rfl)

/-- A list of an admitted length, none waiting, whose base instant is not earlier than 10 us from now, waits for that instant. -/
theorem Hw.gclGo_of_base {h : Hw} {p v : Nat} (hv : bit v 63 = true)
    (hidle : h.on .TM_GCLCMD_pending (portIx p) (portSl p) = false) (hlo : 0 < bits v 42 32) (hhi : bits v 42 32 ≤ 1024)
    (hbase : h.now + usUnits 10 ≤ h.val .TM_GCLBASE (portIx p) (portSl p)) :
    h.gclGo p v = ((h.wr .TM_GCLCMD_admin_len (bits v 42 32) (portIx p) (portSl p)).setSched p
      { h.sched p with newLen := bits v 42 32, newStart := h.val .TM_GCLBASE (portIx p) (portSl p) }).wr
      .TM_GCLCMD_pending 1 (portIx p) (portSl p) := by
  have hlen : ¬(bits v 42 32 = 0 ∨ 1024 < bits v 42 32) := by omega
  have hval : (h.wr .TM_GCLCMD_admin_len (bits v 42 32) (portIx p) (portSl p)).val .TM_GCLBASE (portIx p) (portSl p) =
      h.val .TM_GCLBASE (portIx p) (portSl p) := Hw.val_wr_other _ _ _ _ _ _ _ _ _ _ (by decide)
  unfold Hw.gclGo
  simp only [hv, hidle, hval, Hw.now_wr, Hw.sched_wr, Bool.not_true, Bool.false_eq_true, and_false, if_false, if_neg hlen,
    if_pos hbase]

theorem Hw.gclSwitch_of_pending {h : Hw} {p : Nat} (hwaits : h.on .TM_GCLCMD_pending (portIx p) (portSl p) = true) :
    h.gclSwitch p = (h.reachTime (h.sched p).newStart).regate p (fun h =>
      let x := h.sched p
      let b := 1 - h.operBank p
      let k := (h.wr .TM_GCLCMD_pending 0 (portIx p) (portSl p)).wr .TM_GCLCMD_oper_bank b (portIx p) (portSl p)
      let k := k.wr .TM_GCLCMD_cycle_us (k.cycle p b x.newLen / 800) (portIx p) (portSl p)
      (k.setSched p { x with len := x.newLen, base := x.newStart, newLen := 0, newStart := 0 }).syncEntry p) :=
  if_pos hwaits

/-- Settles O17: a pick by what the scheduler picks, the two scans as runs of changes that change nothing, and the gate lists by
their lemmas. -/
theorem queuesAndPicks : Obligations.QueuesAndPicks := by
  refine ⟨fun n c q s hq hwhole => exec_copyVisible_of_whole hq hwhole,
    fun p pipe q c r h s ht => ⟨fun hp => exec_schedulerPick_of_none ht hp, fun hp hd => exec_schedulerPick_of_some ht hp hd⟩,
    fun n s hage => exec_queueAgeScan_of_no_limit hage, fun n s hagree => exec_queueAccountCheck_of_agree hagree,
    fun p v s hv hidle hlo hhi hbase => ?_, fun p s hwaits => ?_, fun p s => ?_⟩
  · rw [exec_gclGo]
    exact onHw_eq (Hw.gclGo_of_base hv hidle hlo hhi hbase)
  · rw [exec_gclSwitch]
    exact onTx_eq (Hw.gclSwitch_of_pending hwaits)
  · rw [exec_gateEntryAdvance]
    exact onTx_settle _ s

end Sys2Proof.Machine
end

section
/-! The policers' commands (R268, R270) and the ledger's (R288 to R310): each operation by the case its guard selects, then the
commands by their operations. -/

namespace Sys2Proof.Machine

section
variable {h : Hw}

/-! ### Policers (R268) -/

/-- The indexed policer accessed, with its configuration and its buckets in whole bytes shown in the staging registers. -/
theorem Hw.polRead_of_idle (hb : h.on .TM_POL_CMD_busy = false) :
    let i := h.rd .TM_POL_INDEX_index
    let a := h.polAccess i
    h.polRead = ((((a.setVal .TM_POL_CFG0 (a.val .A_POL0 i)).setVal .TM_POL_CFG1 (a.val .A_POL1 i)).setVal .TM_POL_CFG2
      (a.val .A_POL2 i)).setVal .TM_POL_STATE0 (wholeBytes (a.polBuckets i).tc)).setVal .TM_POL_STATE1
      (wholeBytes (a.polBuckets i).te) :=
  if_neg (Bool.eq_false_iff.mp hb)

/-- The staged configuration, which R268 accepts, stored in the indexed policer with its buckets clipped or filled. -/
theorem Hw.polWrite_of_accepted (hb : h.on .TM_POL_CMD_busy = false) (n : Nat) (fill : Bool) :
    let i := h.rd .TM_POL_INDEX_index
    let c := Machine.polCfg (h.val .TM_POL_CFG0) (h.val .TM_POL_CFG1) (h.val .TM_POL_CFG2)
    let a := h.polAccess i
    ¬(c.mode = 2 ∧ c.pir < c.cir) → c.mode ≠ 3 →
    h.polWrite n fill = (((a.setVal .A_POL0 (h.val .TM_POL_CFG0) i).setVal .A_POL1 (h.val .TM_POL_CFG1) i).setVal .A_POL2
      (h.val .TM_POL_CFG2) i).setBuckets i
        (if fill then c.full else ⟨min (a.polBuckets i).tc c.full.tc, min (a.polBuckets i).te c.full.te⟩) := by
  intro i c a hrates hmode
  exact (if_neg (Bool.eq_false_iff.mp hb)).trans ((if_neg hrates).trans (if_neg hmode))

/-! ### LG_CTRL (R291, R308) -/

/-- The fields of a word of LG_CTRL that have a range lie in it. -/
def lgCtrlInRange (v : Nat) : Prop :=
  (1100 ≤ bits v 47 32 ∧ bits v 47 32 ≤ 10000) ∧ (5 ≤ bits v 31 24 ∧ bits v 31 24 ≤ 200) ∧
    (100 ≤ bits v 15 0 ∧ bits v 15 0 ≤ 30000)

/-- The fields of a word of LG_CTRL that are stored whether or not a chain runs. -/
def Hw.lgTimes (h : Hw) (v : Nat) : Hw :=
  (((h.wr .LG_CTRL_twin_en (bits v 61 61)).wr .LG_CTRL_settle_us (bits v 47 32)).wr .LG_CTRL_lg_settle_us (bits v 31 24)).wr
    .LG_CTRL_witness_wait_ms (bits v 15 0)

/-- A register other than LG_CTRL reads the same. -/
theorem Hw.rd_lgTimes_other {f : Fld} (hf : RegName.LG_CTRL ≠ f.reg) (v ix sl : Nat) :
    (h.lgTimes v).rd f ix sl = h.rd f ix sl := by
  simp (disch := exact hf) only [Hw.lgTimes, Hw.rd_wr_other]

theorem Hw.on_lgTimes_enable (v : Nat) : (h.lgTimes v).on .LG_CTRL_enable = h.on .LG_CTRL_enable := by
  simp (disch := decide) only [Hw.lgTimes, Hw.on_wr_beside]

theorem Hw.chain_lgTimes (v : Nat) : (h.lgTimes v).chain = h.chain :=
  congrArg (· == 1) (Hw.rd_lgTimes_other (by decide) v 0 0)

section
variable {v : Nat}

theorem Hw.lgCtrlWrite_of_out_of_range (hv : ¬lgCtrlInRange v) : h.lgCtrlWrite v = h :=
  if_pos (by unfold lgCtrlInRange at hv; omega)

/-- What is left of a word in range once its ranges are tested: the seal slot where no chain runs, then its two enables. -/
theorem Hw.lgCtrlWrite_of_range (hv : lgCtrlInRange v) : h.lgCtrlWrite v =
    (let k := if (h.lgTimes v).chain then h.lgTimes v else (h.lgTimes v).wr .LG_CTRL_seal_slot (bits v 19 16)
     let k := if !bit v 63 then k.wr .LG_CTRL_enable 0
       else if k.on .LG_CTRL_enable then k
       else if k.rd .LG_BOOK_BASE_base = 0 ∨ k.rd .LG_RING_base = 0 ∨
           k.rd .CX_SEALSLOT_state (k.rd .LG_CTRL_seal_slot) ≠ 1 ∨ k.on .CX_SEALSLOT_spent (k.rd .LG_CTRL_seal_slot) = true
       then k.wr .LG_STATUS_enable_refused 1
       else k.wr .LG_CTRL_enable 1
     if !bit v 62 then k.wr .LG_CTRL_lg_arm 0
     else if k.on .LG_CTRL_lg_arm then k
     else if k.canArm then k.wr .LG_CTRL_lg_arm 1 else k.wr .LG_STATUS_arm_refused 1) :=
  if_neg (by unfold lgCtrlInRange at hv; omega)

/-- A chain enabled whose books, ring and seal slot are set. -/
theorem Hw.lgCtrlWrite_of_enable (hv : lgCtrlInRange v) (hen : bit v 63 = true) (harm : bit v 62 = false)
    (hchain : h.chain = false) (hoff : h.on .LG_CTRL_enable = false) (hbook : h.rd .LG_BOOK_BASE_base ≠ 0)
    (hring : h.rd .LG_RING_base ≠ 0) (hslot : h.rd .CX_SEALSLOT_state (bits v 19 16) = 1)
    (hspent : h.on .CX_SEALSLOT_spent (bits v 19 16) = false) :
    h.lgCtrlWrite v = (((h.lgTimes v).wr .LG_CTRL_seal_slot (bits v 19 16)).wr .LG_CTRL_enable 1).wr .LG_CTRL_lg_arm 0 := by
  let g := (h.lgTimes v).wr .LG_CTRL_seal_slot (bits v 19 16)
  have hstand {f : Fld} (hf : RegName.LG_CTRL ≠ f.reg) (ix : Nat) : g.rd f ix = h.rd f ix :=
    (Hw.rd_wr_other _ _ _ _ _ _ _ _ _ _ hf).trans (Hw.rd_lgTimes_other hf v ix 0)
  have hseal : g.rd .LG_CTRL_seal_slot = bits v 19 16 :=
    (Hw.rd_wr_same _ _ _ _ _ _ (by decide)).trans (Nat.mod_mod _ _)
  have hgoff : ¬g.on .LG_CTRL_enable = true := by
    rw [Hw.on_wr_beside _ _ _ _ _ _ _ _ _ _ (by decide) (by decide) (by decide), Hw.on_lgTimes_enable, hoff]
    decide
  have hset : ¬(g.rd .LG_BOOK_BASE_base = 0 ∨ g.rd .LG_RING_base = 0 ∨
      g.rd .CX_SEALSLOT_state (g.rd .LG_CTRL_seal_slot) ≠ 1 ∨ g.on .CX_SEALSLOT_spent (g.rd .LG_CTRL_seal_slot) = true) := by
    rw [hseal, hstand (by decide), hstand (by decide), hstand (by decide), Hw.on, hstand (by decide), ← Hw.on, hspent]
    simp [hbook, hring, hslot]
  rw [Hw.lgCtrlWrite_of_range hv, Hw.chain_lgTimes]
  simp only [hchain, hen, harm, Bool.not_true, Bool.not_false, Bool.false_eq_true, if_true, if_false]
  rw [if_neg hgoff, if_neg hset]

section
variable (hv : lgCtrlInRange v) (hchain : h.chain = true)
include hv hchain

theorem Hw.lgCtrlWrite_of_disable (hen : bit v 63 = false) (harm : bit v 62 = false) :
    h.lgCtrlWrite v = ((h.lgTimes v).wr .LG_CTRL_enable 0).wr .LG_CTRL_lg_arm 0 := by
  rw [Hw.lgCtrlWrite_of_range hv, Hw.chain_lgTimes]
  simp only [hchain, hen, harm, Bool.not_false, if_true]

/-- Last-gasp armed where it can be, the chain enabled before. -/
theorem Hw.lgCtrlWrite_of_arm (hen : bit v 63 = true) (harm : bit v 62 = true) (hon : h.on .LG_CTRL_enable = true)
    (hfree : (h.lgTimes v).on .LG_CTRL_lg_arm = false) (hcan : (h.lgTimes v).canArm = true) :
    h.lgCtrlWrite v = (h.lgTimes v).wr .LG_CTRL_lg_arm 1 := by
  rw [Hw.lgCtrlWrite_of_range hv, Hw.chain_lgTimes]
  simp only [hchain, hen, harm, Hw.on_lgTimes_enable, hon, hfree, hcan, Bool.not_true, Bool.false_eq_true, if_true, if_false]

end

end

/-! ### Last-gasp (R309, R310) -/

section
variable {k : Nat} {d : List Byte} (hg : h.lg.gasp = some d) (hheld : h.held = false)
  (hdone : h.lg.gaspDone.contains k = false) (hvalid : h.on .LG_LGPORT_valid k = true) (hok : h.lgPortOk k = true)
include hg hheld hdone hvalid hok

/-- A designated port that is UP sends the LAST_GASP folio and the folios not yet released. -/
theorem Hw.lastGasp_of_up (hup : h.link (h.rd .LG_LGPORT_port k) = 5) : h.lastGasp k =
    (let f := h.gaspFolio k d
     (f.over f.unreleased (fun h x => (h.fetch 5 x.1 x.2).2.gaspFolio k (h.load x.1 x.2))).gaspEnd k) := by
  unfold Hw.lastGasp
  simp only [hg, hheld, hdone, hvalid, hok, hup, Bool.not_true, Bool.or_self, Bool.false_eq_true, if_false, ne_eq, not_true]

theorem Hw.lastGasp_of_not_up (hdown : h.link (h.rd .LG_LGPORT_port k) ≠ 5) : h.lastGasp k = h.gaspEnd k := by
  unfold Hw.lastGasp
  simp only [hg, hheld, hdone, hvalid, hok, Bool.not_true, Bool.or_self, Bool.false_eq_true, if_false]
  exact if_pos hdown

end

end

/-! ### The commands -/

section
variable {s : State}

theorem exec_ledgerUpdate_of_cons {u : LgUpdate} {r : List LgUpdate} (hq : s.hw.lgq = u :: r) (ok : Bool) :
    exec (.ledgerUpdate ok) s = .next (s.setHw (({ s.hw with lgq := r } : Hw).applyUpdate u ok)) := by
  rw [exec_ledgerUpdate]
  refine onHw_eq ?_
  simp only [hq]

section
variable {c : Closing} (hc : s.hw.lg.closing = some c)
include hc

theorem exec_settleEnd_of_chain (hon : c.on = true) :
    exec .settleEnd s = .next (s.setHw (s.hw.setLg (fun l => { l with closing := some { c with settling := false } }))) := by
  rw [exec_settleEnd]
  refine onHw_eq ?_
  simp only [hc, hon, if_true]

theorem exec_bookClose_of_settled (hset : c.settling = false) :
    exec .bookClose s = .next (s.setHw (s.hw.flushAccum.wr .LG_STATUS_walking 1)) := by
  rw [exec_bookClose]
  refine onHw_eq ?_
  simp only [hc, hset, Bool.false_eq_true, if_false]

end

theorem exec_folioPlace_of_walking (hw : s.hw.on .LG_STATUS_walking = true) :
    exec .folioPlace s = .next (s.setHw s.hw.finishClose) := by
  rw [exec_folioPlace]
  exact onHw_eq (if_pos hw)

theorem exec_witnessWaitTimeout_of_awaiting (ha : s.hw.lg.awaiting = true) :
    exec .witnessWaitTimeout s = .next (s.setHw
      (((s.hw.setLg (fun l => { l with awaiting := false, witness := none })).lgEvent 4).raise 0xB09 8)) := by
  rw [exec_witnessWaitTimeout]
  exact onHw_eq (if_pos ha)

/-- The three commands on LG_CTRL are one write. -/
theorem exec_lgCtrl {v : Word} {c : Instr} (hc : c ∈ [Instr.lgEnable v, .lgDisable v, .lgArm v]) {h : Hw}
    (hw : s.hw.lgCtrlWrite v.toNat = h) : exec c s = .next (s.setHw h) := by
  simp only [List.mem_cons, List.not_mem_nil, or_false] at hc
  rcases hc with rfl | rfl | rfl <;> exact onHw_eq (f := fun h => h.lgCtrlWrite v.toNat) hw

/-- After the cut the open book of a chain, the closing one walked before it, goes into the LAST_GASP folio. -/
theorem exec_lgSettleEnd_of_open_book (hcut : s.hw.on .LG_STATUS_lastgasp = true) (hg : s.hw.lg.gasp = none) :
    let h := s.hw.flushAccum.finishClose
    nth h.lg.bookOn h.openParity false = true →
    exec .lgSettleEnd s = .next (s.setHw
      (let f := h.makeFolio 2 h.openParity (h.lg.openStart / (60 * unitsPerSecond)) h.lg.openStart h.lg.cut h.lg.postCut
       (((f.2.2.setLg (fun l => { l with gasp := some f.1 })).wr .LG_STATUS_chain 0).wr .LG_CTRL_lg_arm 0).lgEvent 5)) := by
  intro h hopen
  rw [exec_lgSettleEnd]
  exact onHw_eq ((if_pos (by rw [hcut, hg]; rfl)).trans (if_pos hopen))

end

/-- Settles O19: the policers and LG_CTRL by whether the written word is accepted, the books by the state of the close, and
last-gasp by the link of the designated port. -/
theorem policersAndLedger : Obligations.PolicersAndLedger := by
  refine ⟨fun n s hb => ⟨?_, fun hrates hmode => ⟨?_, ?_⟩⟩, fun s => ?_, fun u r ok s hq => exec_ledgerUpdate_of_cons hq ok,
    fun c s hc => ⟨exec_settleEnd_of_chain hc, exec_bookClose_of_settled hc⟩, fun s => exec_folioPlace_of_walking,
    fun v s => ⟨fun hout => ?_, fun h1 h2 h3 h4 h5 h6 => ?_⟩, fun s => exec_witnessWaitTimeout_of_awaiting,
    fun s => exec_lgSettleEnd_of_open_book, fun k d s hg hheld hdone hvalid hok => ⟨fun hup => ?_, fun hdown => ?_⟩⟩
  · rw [exec_polRead]
    exact onHw_eq (Hw.polRead_of_idle hb)
  · rw [exec_polWrite]
    exact onHw_eq (Hw.polWrite_of_accepted hb n false hrates hmode)
  · rw [exec_polReset]
    exact onHw_eq (Hw.polWrite_of_accepted hb n true hrates hmode)
  · rw [exec_minuteMark]
    exact onTx_settle _ s
  · have hstands : s.hw.lgCtrlWrite v.toNat = s.hw :=
      Hw.lgCtrlWrite_of_out_of_range (by unfold lgCtrlInRange; omega)
    exact ⟨exec_lgCtrl (by simp) hstands, exec_lgCtrl (by simp) hstands, exec_lgCtrl (by simp) hstands⟩
  · have hv : lgCtrlInRange v.toNat := ⟨⟨h1, h2⟩, ⟨h3, h4⟩, h5, h6⟩
    refine ⟨fun hen harm hchain hoff hbook hring hslot hspent => ?_, fun hchain hen harm => ?_,
      fun hchain hen harm hon hfree hcan => ?_⟩
    · exact exec_lgCtrl (by simp) (Hw.lgCtrlWrite_of_enable hv hen harm hchain hoff hbook hring hslot hspent)
    · exact exec_lgCtrl (by simp) (Hw.lgCtrlWrite_of_disable hv hchain hen harm)
    · exact exec_lgCtrl (by simp) (Hw.lgCtrlWrite_of_arm hv hchain hen harm hon hfree hcan)
  · rw [exec_lastGaspSend]
    exact onTx_eq (Hw.lastGasp_of_up hg hheld hdone hvalid hok hup)
  · rw [exec_lastGaspSend]
    exact onTx_eq (Hw.lastGasp_of_not_up hg hheld hdone hvalid hok hdown)

end Sys2Proof.Machine
end

section
/-! The keys of the cipher engine (R314 to R322): a map word stored or refused, a packet number that rises or not, an import by
what its checks and its unwrapping answer, and a shadow by whether a frame still needs it. -/

namespace Sys2Proof.Machine

section
variable {h : Hw}

/-! ### SA maps (R314) -/

section
variable {p v : Nat} {rx : Bool}

/-- A map word over an empty one that names only slots no entry has. -/
theorem Hw.saMapWrite_of_free
    (hres : (List.range 4).any (fun a => bits v (16 * a + 14) (16 * a + 13) != 0) = false)
    (hfree : (mapSlots v).any (fun x => h.on .CX_SA_mapped x) = false) (hrep : hasRepeat (mapSlots v) = false)
    (hold : h.val (if rx then RegName.CX_RXMAP else .CX_TXMAP) p = 0) : h.saMapWrite p rx v =
      (h.setVal (if rx then RegName.CX_RXMAP else .CX_TXMAP) v p).over (mapSlots v) (fun h x =>
        ((h.wr .CX_SA_mapped 1 x).wr .CX_SA_dir (ofBool rx) x).wr .CX_SA_port p x) := by
  have helse : (mapSlots v).any (fun x => h.on .CX_SA_mapped x &&
      !(h.rd .CX_SA_dir x == ofBool rx && h.rd .CX_SA_port x == p)) = false := by
    rw [List.any_eq_false] at hfree ⊢
    intro x hx hand
    exact hfree x hx (Bool.and_eq_true_iff.mp hand).1
  have hnone : mapSlots 0 = [] := by decide
  unfold Hw.saMapWrite
  simp only [hres, helse, hrep, hold, hnone, Hw.over_nil, Bool.or_self, Bool.false_eq_true, if_false]

theorem Hw.saMapWrite_of_reserved
    (hres : (List.range 4).any (fun a => bits v (16 * a + 14) (16 * a + 13) != 0) = true) :
    h.saMapWrite p rx v = (h.wr .CX_STATUS_refused 1).wr .CX_STATUS_cause 3 :=
  if_pos hres

end

/-! ### Packet numbers (R316) -/

section
variable {slot v : Nat}

/-- A packet number of a receive slot set below the warning: neither the warning nor the stop is reached. -/
theorem Hw.setPn_of_quiet (old : Nat) (hw : v < h.val .CX_PNWARN (h.rd .CX_SA_suite slot)) (hd : h.rd .CX_SA_dir slot = 1) :
    h.setPn slot old v = h.setVal .CX_PN v slot := by
  have hbelow : ¬(old < (h.setVal .CX_PN v slot).val .CX_PNWARN (h.rd .CX_SA_suite slot) ∧
      (h.setVal .CX_PN v slot).val .CX_PNWARN (h.rd .CX_SA_suite slot) ≤ v) := by
    rw [Hw.val_setVal_other _ _ _ _ _ _ _ _ _ _ (by decide)]
    exact fun hreach => Nat.not_le.mpr hw hreach.2
  have hrx : (h.setVal .CX_PN v slot).rd .CX_SA_dir slot = 1 := by
    rw [Hw.rd_setVal_other _ _ _ _ _ _ _ _ _ _ (by decide), hd]
  unfold Hw.setPn
  dsimp only
  rw [if_neg hbelow, hrx, if_neg fun hstop => Nat.one_ne_zero hstop.1]

theorem Hw.pnWrite_of_rise (hr : h.val .CX_PN slot < v) : h.pnWrite slot v = h.setPn slot (h.val .CX_PN slot) v :=
  if_pos hr

theorem Hw.pnWrite_of_no_rise (hr : v ≤ h.val .CX_PN slot) :
    h.pnWrite slot v = (h.wr .CX_STATUS_refused 1).wr .CX_STATUS_cause 2 :=
  if_neg (Nat.not_lt.mpr hr)

end

/-! ### Import (R320, R321) -/

theorem Hw.importStart_of_idle {v : Nat} (hb : h.on .CX_IMPORT_CMD_busy = false) (hgo : bit v 63 = true) :
    h.importStart v = h.setVal .CX_IMPORT_CMD (v &&& 0xBE0F1FFF00000000 ||| 0x4000000000000000 ||| 0x8000000000000000) :=
  if_neg (by simp only [hb, hgo, Bool.not_true, Bool.or_self, Bool.false_eq_true, not_false_eq_true])

end

/-- The check of a wrapping key changes its slot's state and may raise a fault: the command stands. -/
theorem Hw.kekCheck_rd (h : Hw) (method kek : Nat) {g : Fld} (hg : RegName.CX_KEKSLOT ≠ g.reg) (ix sl bank : Nat) :
    (h.kekCheck method kek).rd g ix sl bank = h.rd g ix sl bank := by
  unfold Hw.kekCheck
  split
  · change ((h.wr .CX_KEKSLOT_state 2 kek).raise 0xA08 8).rd g ix sl bank = _
    rw [Hw.raise_rd, Hw.rd_wr_other _ _ _ _ _ _ _ _ _ _ hg]
  · rfl

/-- What the checks of R321 say of the command that the import logic holds: 0 if none refuses it. -/
def Hw.heldRefusal (h : Hw) : Nat :=
  h.importRefusal (h.rd .CX_IMPORT_CMD_method) (h.rd .CX_IMPORT_CMD_kind) (h.rd .CX_IMPORT_CMD_slot) (h.rd .CX_IMPORT_CMD_suite)

/-- The hardware with the wrapping key that the held command uses checked. -/
def Hw.heldKekChecked (h : Hw) : Hw := h.kekCheck (h.rd .CX_IMPORT_CMD_method) (h.rd .CX_IMPORT_CMD_kek_slot)

/-- What the held command unwraps, its wrapping key checked before. -/
def Hw.heldKey (h : Hw) : Except Nat (List Byte) :=
  h.heldKekChecked.importKey (h.rd .CX_IMPORT_CMD_method) (h.rd .CX_IMPORT_CMD_kind) (h.rd .CX_IMPORT_CMD_slot)
    (h.rd .CX_IMPORT_CMD_kek_slot)

/-- The held command of a seal or wrapping key performed: the key that it unwraps is loaded, or its result ends it. -/
def Hw.performHeld (h : Hw) : Hw :=
  match h.heldKey with
  | .error e => h.heldKekChecked.importEnd e 0
  | .ok k => h.heldKekChecked.loadKey (h.rd .CX_IMPORT_CMD_kind) (h.rd .CX_IMPORT_CMD_slot) (h.rd .CX_IMPORT_CMD_suite) k

section
variable {d : Dev} (hb : d.hw.on .CX_IMPORT_CMD_busy = true)
include hb

theorem Dev.importDone_of_refused (hr : d.hw.heldRefusal ≠ 0) :
    d.importDone = { d with hw := d.hw.importEnd d.hw.heldRefusal 0 } := by
  unfold Hw.heldRefusal at hr ⊢
  unfold Dev.importDone
  simp only [hb, hr, Bool.not_true, Bool.false_eq_true, if_false, ne_eq, not_false_eq_true, if_true]

/-- A seal or wrapping key has no shadow: what is unwrapped is loaded whether or not the slot is in use. -/
theorem Dev.importDone_of_accepted (hr : d.hw.heldRefusal = 0) (hkind : d.hw.rd .CX_IMPORT_CMD_kind ≠ 0) :
    d.importDone = { d with hw := d.hw.performHeld } := by
  unfold Hw.heldRefusal at hr
  unfold Dev.importDone Hw.performHeld Hw.heldKey Hw.heldKekChecked
  simp only [hb, hr, hkind, d.hw.kekCheck_rd _ _ (g := .CX_IMPORT_CMD_kek_slot) (by decide), Bool.not_true, Bool.false_eq_true,
    if_false, ne_eq, not_true_eq_false, if_true, false_and]
  generalize Hw.importKey _ _ _ _ _ = key
  cases key <;> rfl

end

/-! ### The commands -/

section
variable {s : State}

theorem exec_saMapWrite_eq {p : Port} {rx : Bool} {v : Word} {h : Hw} (hw : s.hw.saMapWrite p rx v.toNat = h) :
    exec (.saMapWrite p rx v) s = .next (s.setHw h) := by
  rw [exec_saMapWrite]
  exact onHw_eq hw

theorem exec_pnWrite_eq {p : Fin 8192} {v : Word} {h : Hw} (hw : s.hw.pnWrite p v.toNat = h) :
    exec (.pnWrite p v) s = .next (s.setHw h) := by
  rw [exec_pnWrite]
  exact onHw_eq hw

theorem exec_keyImport_of_idle {v : Word} (hb : s.hw.on .CX_IMPORT_CMD_busy = false) (hgo : bit v.toNat 63 = true) :
    exec (.keyImport v) s = .next (s.setHw
      (s.hw.setVal .CX_IMPORT_CMD (v.toNat &&& 0xBE0F1FFF00000000 ||| 0x4000000000000000 ||| 0x8000000000000000))) := by
  rw [exec_keyImport]
  exact onHw_eq (Hw.importStart_of_idle hb hgo)

theorem exec_keyImportDone_eq {h : Hw} (hd : s.dev.importDone = { s.dev with hw := h }) :
    exec .keyImportDone s = .next (s.setHw h) := by
  rw [exec_keyImportDone]
  exact onDev_eq hd

/-- A shadow that no frame in flight uses. -/
theorem exec_shadowRelease_of_unused {p : Fin 8192} (hs : s.hw.on .CX_SA_shadow p = true)
    (hf : s.dev.inFlight p (fun b => b.gen != s.hw.rd .CX_SA_generation p) = 0) :
    exec (.shadowRelease p) s = .next (s.setHw ((s.hw.clearKey .A_SAK p 1).wr .CX_SA_shadow 0 p)) := by
  rw [exec_shadowRelease]
  exact onDev_eq (if_pos (by rw [hs, hf]; rfl))

theorem exec_shadowRelease_of_no_shadow {p : Fin 8192} (hs : s.hw.on .CX_SA_shadow p = false) :
    exec (.shadowRelease p) s = .next s := by
  rw [exec_shadowRelease]
  exact onDev_eq (if_neg (by rw [hs]; exact Bool.false_ne_true))

end

/-- Settles O20: a map word by its reserved bits, a packet number by whether it rises, an import by the refusal and then by what
it unwraps, a release by whether there is a shadow. -/
theorem associationKeys : Obligations.AssociationKeys := by
  refine ⟨fun p rx v s => ⟨fun hres hfree hrep hold => ?_, fun hres => ?_⟩, fun p v s => ⟨fun hr hw hd => ?_, fun hr => ?_⟩,
    fun v s => exec_keyImport_of_idle, fun s hb => ⟨fun hr => ?_, fun hr hkind => ?_⟩,
    fun p s => ⟨exec_shadowRelease_of_unused, exec_shadowRelease_of_no_shadow⟩⟩
  · exact exec_saMapWrite_eq (Hw.saMapWrite_of_free hres hfree hrep hold)
  · exact exec_saMapWrite_eq (Hw.saMapWrite_of_reserved hres)
  · exact exec_pnWrite_eq ((Hw.pnWrite_of_rise hr).trans (Hw.setPn_of_quiet _ hw hd))
  · exact exec_pnWrite_eq (Hw.pnWrite_of_no_rise hr)
  · exact exec_keyImportDone_eq (Dev.importDone_of_refused hb hr)
  · exact exec_keyImportDone_eq (Dev.importDone_of_accepted hb hr hkind)

end Sys2Proof.Machine
end

section
/-! The end of keys (R323, R326, R328, R329): an erase that starts and one that is verified, zeroization by a source that counts
or does not, its readback, and a scrub by what it finds of the master copies. -/

namespace Sys2Proof.Machine

section
variable {h : Hw}

/-! ### Erase (R323) -/

theorem Hw.keyErase_of_taken {v : Nat} (hb : h.on .CX_ERASE_busy = false) (hgo : bit v 62 = true) (hkind : bits v 61 60 ≠ 3)
    (hslot : bits v 12 0 < keySlots (bits v 61 60)) :
    let g := (h.setVal .CX_ERASE ((1 <<< 63) + (bits v 61 60 <<< 60) + bits v 12 0)).wipe (bits v 61 60) (bits v 12 0)
    h.keyErase v =
      if bits v 61 60 = 0 then g.note (.keyGone (some (bits v 12 0)) 0xA6 (h.slotKeys (bits v 12 0))) else g := by
  have htaken : (h.on .CX_ERASE_busy || !bit v 62 || bits v 61 60 == 3 || decide (keySlots (bits v 61 60) ≤ bits v 12 0))
      = false := by
    rw [hb, hgo, beq_false_of_ne hkind, decide_eq_false (Nat.not_le.mpr hslot)]
    rfl
  exact if_neg (Bool.eq_false_iff.mp htaken)

/-! ### Zeroization (R329) -/

/-- The host, JTAG and the alarm pin zeroize always, another source where it is enabled. -/
def Hw.zeroizesBy (h : Hw) (src : Nat) : Prop :=
  src = 0 ∨ src = 1 ∨ src = 5 ∨ bit (h.rd .CX_ALARM_EN_enables) src = true

theorem Hw.zeroize_of_source {src : Nat} (hsrc : h.zeroizesBy src) : h.zeroize src =
    (let g := (((h.setBit .CX_ALARM_sources src).wr .CX_STATUS_zeroizing 1).raise 0xA07 8).over [0, 1, 2]
      (fun h k => h.over (h.heldSlots k) (fun h x => (h.wipe k x).emptied k x))
     ({ g with cx := ⟨none, none⟩ } : Hw).note (.keyGone none 0xA6 ((h.heldSlots 0).flatMap h.slotKeys))) :=
  if_pos hsrc

theorem Hw.zeroize_of_no_source {src : Nat} (hsrc : ¬h.zeroizesBy src) : h.zeroize src = h := if_neg hsrc

end

/-! ### The commands -/

section
variable {s : State}

theorem exec_eraseVerified_of_busy (hb : s.hw.on .CX_ERASE_busy = true) :
    exec .eraseVerified s = .next (s.setHw
      ((s.hw.emptied (s.hw.rd .CX_ERASE_kind) (s.hw.rd .CX_ERASE_slot)).wr .CX_ERASE_busy 0)) := by
  rw [exec_eraseVerified]
  exact onHw_eq (if_pos hb)

theorem exec_zeroize_eq {src : Fin 8} {h : Hw} (hz : s.hw.zeroize src = h) :
    exec (.zeroize src) s = .next (s.setHw h).settle := by
  rw [exec_zeroize]
  exact onTx_eq hz

section
variable (hz : s.hw.on .CX_STATUS_zeroizing = true)
include hz

theorem exec_zeroizeVerify_of_fail : exec (.zeroizeVerify false) s = .next (s.setHw
    (({ s.hw.over [0, 1, 2] (fun h k => h.over (h.heldSlots k) (fun h x => h.wipe k x)) with cx := ⟨none, none⟩ } : Hw).raise
      0xA06 8)) := by
  rw [exec_zeroizeVerify]
  exact onHw_eq (if_neg (by rw [hz]; exact Bool.false_ne_true))

/-- A readback that passes: the key store has been zeroized, and a new key-bus key and generator state are drawn. -/
theorem exec_zeroizeVerify_of_pass : exec (.zeroizeVerify true) s = .next (s.setHw
    (((({ s.hw with io := { s.hw.io with zeroized := true } } : Hw).wr .CX_STATUS_zeroizing 0).wr .CX_STATUS_zeroized 1).cxEvent
      2).drawKeys) := by
  rw [exec_zeroizeVerify]
  exact onHw_eq (if_neg (by rw [hz]; exact Bool.false_ne_true))

end

/-! ### The scrub of master copies (R326) -/

/-- A LOADED slot's master copy, or the shadow of an SA slot, fails its check. -/
def Hw.masterFails (h : Hw) (k x : Nat) : Prop :=
  h.rd (keyState k) x = 1 ∧ (!h.good ⟨keyArray k, 0, 0, x⟩
    || (h.rd .CX_SA_shadow x == 1 && k == 0 && !h.good ⟨.A_SAK, 0, 1, x⟩)) = true

theorem Hw.not_masterFails {h : Hw} {k x : Nat} (hg : h.rd (keyState k) x = 1 → h.good ⟨keyArray k, 0, 0, x⟩ = true ∧
    (k = 0 → h.rd .CX_SA_shadow x = 1 → h.good ⟨.A_SAK, 0, 1, x⟩ = true)) : ¬h.masterFails k x := by
  rintro ⟨hloaded, hfails⟩
  obtain ⟨hmaster, hshadow⟩ := hg hloaded
  simp only [hmaster, Bool.not_true, Bool.false_or, Bool.and_eq_true, beq_iff_eq, Bool.not_eq_true'] at hfails
  obtain ⟨⟨hon, hk⟩, hbad⟩ := hfails
  rw [hshadow hk hon] at hbad
  exact Bool.noConfusion hbad

theorem exec_keyScrub_of_good (hg : ∀ k < 3, ∀ x ∈ s.hw.heldSlots k, ¬s.hw.masterFails k x) :
    exec .keyScrub s = .next s.settle := by
  rw [exec_keyScrub]
  refine onTx_eq (h := s.hw) (Hw.over_stands fun k hk => Hw.over_stands fun x hx => if_neg (hg k ?_ x hx))
  simp only [List.mem_cons, List.not_mem_nil, or_false] at hk
  omega

/-- The key store holds one wrapping key alone, and its master copy fails. -/
theorem exec_keyScrub_of_failing_kek {x : Nat} (h0 : s.hw.heldSlots 0 = []) (h1 : s.hw.heldSlots 1 = [])
    (h2 : s.hw.heldSlots 2 = [x]) (hfails : s.hw.masterFails 2 x) :
    exec .keyScrub s = .next (s.setHw (s.hw.keyFailed 2 x)).settle := by
  rw [exec_keyScrub]
  refine onTx_eq ?_
  simp only [Hw.over, List.foldl_cons, List.foldl_nil, h0, h1, h2]
  exact if_pos hfails

end

/-- Settles O21: an erase that is taken, zeroization by whether its source counts, its readback both ways, the scrub by whether a
master copy fails; the generator's health is one change each way. -/
theorem keyErasure : Obligations.KeyErasure := by
  refine ⟨fun v s hb hgo hkind hslot => ?_, fun s => exec_eraseVerified_of_busy,
    fun src s => ⟨fun hsrc => exec_zeroize_eq (Hw.zeroize_of_source hsrc), fun h0 h1 h5 hen => ?_⟩,
    fun s hz => ⟨exec_zeroizeVerify_of_fail hz, _, exec_zeroizeVerify_of_pass hz, ?_, s.sameOutside_setHw _⟩,
    fun s hg => exec_keyScrub_of_good fun k hk x hx => Hw.not_masterFails (hg k hk x hx),
    fun x s h0 h1 h2 hloaded hbad => exec_keyScrub_of_failing_kek h0 h1 h2 ⟨hloaded, ?_⟩, fun s => ⟨?_, ?_⟩⟩
  · rw [exec_keyErase]
    exact onTx_eq (Hw.keyErase_of_taken hb hgo hkind hslot)
  · refine exec_zeroize_eq (Hw.zeroize_of_no_source ?_)
    rintro (hsrc | hsrc | hsrc | hsrc)
    · exact h0 hsrc
    · exact h1 hsrc
    · exact h5 hsrc
    · exact Bool.false_ne_true (hen.symm.trans hsrc)
  · rfl
  · rw [hbad]
    rfl
  · rw [exec_rngHealthFail]
    exact onTx_settle _ s
  · rw [exec_rngHealthPass]
    exact onHw_next _ s

end Sys2Proof.Machine
end

section
/-! The general check units (R332, R333, R338 to R341): a check goes on from where it stands, a unit's result stays within its
check's width, and each write to a unit is judged by who owns it. -/

namespace Sys2Proof.Machine

/-! ### Endings -/

/-- Outcomes that replace the hardware by the same are the same. -/
theorem next_setHw_congr {s : State} {h k : Hw} (hk : h = k) :
    (.next (s.setHw h) : Host.Outcome State Fault Refusal) = .next (s.setHw k) := by
  rw [hk]

/-! ### Checks (R332, R333) -/

theorem crc_append (k : CrcKind) (v : Nat) (a b : List Byte) : crc k v (a ++ b) = crc k (crc k v a) b := by
  unfold crc
  rw [List.foldl_append, Nat.xor_assoc _ k.ones k.ones, Nat.xor_self, Nat.xor_zero]

theorem crc_nil (k : CrcKind) (v : Nat) : crc k v [] = v := by
  unfold crc
  rw [List.foldl_nil, Nat.xor_assoc, Nat.xor_self, Nat.xor_zero]

/-- What a kind of check needs so that its register stays within its width: bytes fit it, and so does its polynomial. -/
structure CrcKind.Fits (k : CrcKind) : Prop where
  byte : 8 ≤ k.width
  word : k.width ≤ 64
  poly : k.poly < 2 ^ k.width

theorem polyKind_fits (p : Nat) : (polyKind p).Fits := by
  match p with
  | 0 => exact (⟨by decide, by decide, by decide⟩ : crc32.Fits)
  | 1 => exact (⟨by decide, by decide, by decide⟩ : crc32c.Fits)
  | 2 => exact (⟨by decide, by decide, by decide⟩ : crc16.Fits)
  | _ + 3 => exact (⟨by decide, by decide, by decide⟩ : crc64.Fits)

section
variable {k : CrcKind} (hk : k.Fits) {r : Nat} (hr : r < 2 ^ k.width)
include hk

section
include hr

theorem CrcKind.Fits.crcBit_lt : crcBit k r < 2 ^ k.width := by
  have hshift : r >>> 1 < 2 ^ k.width := Nat.lt_of_le_of_lt (Nat.shiftRight_le r 1) hr
  unfold crcBit
  split_ifs
  · exact Nat.xor_lt_two_pow hshift hk.poly
  · exact hshift
  · exact Nat.xor_lt_two_pow (Nat.mod_lt _ (Nat.two_pow_pos _)) hk.poly
  next htop =>
    have hbyte := hk.byte
    have hpow : 2 ^ k.width = 2 ^ (k.width - 1) * 2 := by rw [← Nat.pow_succ]; congr 1; omega
    rw [Nat.shiftRight_eq_div_pow] at htop
    have hdiv : r / 2 ^ (k.width - 1) < 2 := Nat.div_lt_of_lt_mul (hpow ▸ hr)
    have hlow : r < 2 ^ (k.width - 1) :=
      (Nat.div_eq_zero_iff_lt (Nat.two_pow_pos _)).mp (Nat.lt_one_iff.mp (Nat.lt_of_le_of_ne (Nat.le_of_lt_succ hdiv) htop))
    rw [Nat.shiftLeft_eq]
    omega

theorem CrcKind.Fits.crcBits_lt (n : Nat) : crcBits k n r < 2 ^ k.width := by
  induction n generalizing r with
  | zero => exact hr
  | succ n ih => exact ih (hk.crcBit_lt hr)

theorem CrcKind.Fits.crcByte_lt (b : Byte) : crcByte k r b < 2 ^ k.width := by
  have hb : b.toNat < 2 ^ 8 := b.isLt
  refine hk.crcBits_lt ?_ 8
  split
  · exact Nat.xor_lt_two_pow hr (hb.trans_le (Nat.pow_le_pow_right (by decide) hk.byte))
  · refine Nat.xor_lt_two_pow hr ?_
    rw [Nat.shiftLeft_eq]
    calc b.toNat * 2 ^ (k.width - 8) < 2 ^ 8 * 2 ^ (k.width - 8) := Nat.mul_lt_mul_of_pos_right hb (Nat.two_pow_pos _)
      _ = 2 ^ k.width := by rw [← Nat.pow_add, Nat.add_sub_cancel' hk.byte]

/-- A check whose initial value fits its width fits it too. -/
theorem CrcKind.Fits.crc_lt (d : List Byte) : crc k r d < 2 ^ k.width := by
  have hones : k.ones < 2 ^ k.width := Nat.sub_lt (Nat.two_pow_pos _) Nat.one_pos
  refine Nat.xor_lt_two_pow ?_ hones
  exact List.foldlRecOn (motive := (· < 2 ^ k.width)) d (crcByte k) (Nat.xor_lt_two_pow hr hones)
    fun _ hv b _ => hk.crcByte_lt hv b

end

end

/-! ### Feeding a unit (R339) -/

section
variable (h : Hw) (u : Nat) (d : List Byte)

@[simp] theorem Hw.ckPoly_ckFeed : (h.ckFeed u d).ckPoly u = h.ckPoly u := by
  unfold Hw.ckPoly Hw.ckFeed
  simp

@[simp] theorem Hw.ckBytes_ckFeed (v : Nat) : (h.ckFeed u d).ckBytes u v = h.ckBytes u v := by
  unfold Hw.ckBytes Hw.ckFeed
  simp

theorem Hw.ckResult_ckFeed (hr : h.val .CK_URESULT u < 2 ^ (h.ckPoly u).width) :
    (h.ckFeed u d).val .CK_URESULT u = crc (h.ckPoly u) (h.val .CK_URESULT u) d := by
  have hk := polyKind_fits (h.rd .CK_UCTRL_poly u 0 1)
  unfold Hw.ckFeed
  rw [Hw.val_countSat_other _ _ _ _ _ _ _ _ _ (by decide), Hw.val_setVal_same]
  exact Nat.mod_eq_of_lt ((hk.crc_lt hr d).trans_le (Nat.pow_le_pow_right (by decide) hk.word))

end

/-- Settles O57: a check goes on from where it stands, and so does a unit's result, by induction on the words fed to it. -/
theorem checkChaining : Obligations.CheckChaining := by
  refine ⟨crc_append, fun u ws => ?_⟩
  induction ws with
  | nil => exact fun h _ => (crc_nil _ _).symm
  | cons v ws ih =>
    intro h hr
    have hfed := h.ckResult_ckFeed u (h.ckBytes u v.toNat) hr
    have hnext : (h.ckFeed u (h.ckBytes u v.toNat)).val .CK_URESULT u <
        2 ^ ((h.ckFeed u (h.ckBytes u v.toNat)).ckPoly u).width := by
      rw [hfed, Hw.ckPoly_ckFeed]
      exact (polyKind_fits _).crc_lt hr _
    rw [List.foldl_cons, ih _ hnext, hfed, Hw.ckPoly_ckFeed, List.flatMap_cons, crc_append]
    simp only [Hw.ckBytes_ckFeed]

/-! ### Writes to a unit (R338) -/

section
variable {h : Hw} {who u : Nat}

/-- A write by one who is not the owner, as the unit records it. -/
def Hw.ckForeign (h : Hw) (u : Nat) : Hw := (h.wr .CK_USTATUS_foreign 1 u).count .CK_CNT_count 3

theorem Hw.ckWrite_of_owner (f : Hw → Hw) (ho : h.rd .CK_UCTRL_owner u = who) : h.ckWrite who u f = f h := if_pos ho

theorem Hw.ckWrite_of_foreign (f : Hw → Hw) (ho : h.rd .CK_UCTRL_owner u ≠ who) : h.ckWrite who u f = h.ckForeign u := if_neg ho

/-- A unit that is not free cannot be claimed: CK_UCTRL is then a write like any other. -/
theorem Hw.ckCtrl_of_owned {v : Nat} (ho : h.rd .CK_UCTRL_owner u ≠ 15) :
    h.ckCtrl who u v =
      h.ckWrite who u (fun h => if bit v 62 then (h.ckFields u v).wr .CK_UCTRL_owner 15 u else h.ckFields u v) := by
  unfold Hw.ckCtrl
  simp only [beq_false_of_ne ho, Bool.and_false, Bool.false_and, Bool.false_eq_true, if_false]

theorem Hw.ckCtrl_of_claim {v : Nat} (hwho : who < 8) (ho : h.rd .CK_UCTRL_owner u = 15) (hclaim : bit v 63 = true)
    (hkeep : bit v 62 = false) : h.ckCtrl who u v = (h.wr .CK_UCTRL_owner who u).ckFields u v := by
  have howner : (h.wr .CK_UCTRL_owner who u).rd .CK_UCTRL_owner u = who := by
    rw [Hw.rd_wr_same _ _ _ _ _ _ (by decide)]
    exact Nat.mod_eq_of_lt (hwho.trans (by decide))
  unfold Hw.ckCtrl
  simp only [hclaim, ho, hwho, beq_self_eq_true, decide_true, Bool.and_self, if_true]
  rw [Hw.ckWrite_of_owner _ howner]
  simp only [hkeep, Bool.false_eq_true, if_false]

theorem Hw.ckTail_zero (h : Hw) (u : Nat) : h.ckTail u (0 : Fin 8) = h := if_pos rfl

/-- The result and the expected value agree within the width of the check. -/
def Hw.ckAgrees (h : Hw) (u : Nat) : Prop :=
  h.val .CK_URESULT u % 2 ^ (h.ckPoly u).width = h.val .CK_UEXPECT u % 2 ^ (h.ckPoly u).width

theorem Hw.ckCompare_of_agrees (hm : (h.count .CK_CNT_count 0).ckAgrees u) :
    h.ckCompare u true = (h.count .CK_CNT_count 0).wr .CK_USTATUS_match 1 u := by
  unfold Hw.ckAgrees at hm
  unfold Hw.ckCompare
  simp only [Bool.not_true, Bool.false_eq_true, if_false, if_pos hm]

theorem Hw.ckCompare_of_differs (hm : ¬(h.count .CK_CNT_count 0).ckAgrees u) :
    h.ckCompare u true =
      let k := ((h.count .CK_CNT_count 0).wr .CK_USTATUS_mismatch 1 u).count .CK_CNT_count 1
      if k.on .CK_UCTRL_fault_en u then k.raise 0x901 8 else k := by
  unfold Hw.ckAgrees at hm
  unfold Hw.ckCompare
  simp only [Bool.not_true, Bool.false_eq_true, if_false, if_neg hm]

theorem bits_ckTailWord (n : Fin 8) : bits (2 + n.val * 256) 2 0 = 2 ∧ bits (2 + n.val * 256) 10 8 = n := by
  simp only [bits, Nat.shiftRight_eq_div_pow]
  omega

theorem bits_ckFoldWord (x : Byte) : bits (3 + x.toNat * 65536) 2 0 = 3 ∧ bits (3 + x.toNat * 65536) 23 16 = x.toNat := by
  have := x.isLt
  simp only [bits, Nat.shiftRight_eq_div_pow]
  omega

end

/-! ### The commands -/

section
variable {c : Clerk} {u : Fin 16} {s : State}

theorem exec_ck_of_foreign (ho : s.hw.rd .CK_UCTRL_owner u ≠ c) {f : Hw → Hw} :
    onHw (fun h => h.ckWrite c u f) s = .next (s.setHw (s.hw.ckForeign u)) :=
  onHw_eq (Hw.ckWrite_of_foreign f ho)

theorem exec_ckCtrl_of_foreign {v : Nat} (hfree : s.hw.rd .CK_UCTRL_owner u ≠ 15) (ho : s.hw.rd .CK_UCTRL_owner u ≠ c) :
    onHw (fun h => h.ckCtrl c u v) s = .next (s.setHw (s.hw.ckForeign u)) :=
  onHw_eq ((Hw.ckCtrl_of_owned hfree).trans (Hw.ckWrite_of_foreign _ ho))

/-- A clerk that owns a unit shows that it is not free: 15 is no clerk. -/
theorem ckOwned_of_owner (ho : s.hw.rd .CK_UCTRL_owner u = c) : s.hw.rd .CK_UCTRL_owner u ≠ 15 := by
  have := c.isLt
  omega

theorem exec_ckRelease_of_owner {v : Word} (ho : s.hw.rd .CK_UCTRL_owner u = c) (hrel : bit v.toNat 62 = true) :
    exec (.ckRelease c u v) s = .next (s.setHw ((s.hw.ckFields u v.toNat).wr .CK_UCTRL_owner 15 u)) := by
  rw [exec_ckRelease]
  refine onHw_eq ?_
  rw [Hw.ckCtrl_of_owned (ckOwned_of_owner ho), Hw.ckWrite_of_owner _ ho, if_pos hrel]

section
variable (ho : s.hw.rd .CK_UCTRL_owner u = c)
include ho

theorem exec_ckStart_of_owner : exec (.ckStart c u) s = .next (s.setHw (s.hw.ckStart u)) := by
  rw [exec_ckStart]
  exact onHw_eq (Hw.ckWrite_of_owner _ ho)

theorem exec_ckTail_of_owner {n : Fin 8} {h : Hw} (hc : s.hw.ckTail u n = h) :
    exec (.ckTail c u n) s = .next (s.setHw h) := by
  obtain ⟨hop, hcount⟩ := bits_ckTailWord n
  rw [exec_ckTail]
  refine onHw_eq ((Hw.ckWrite_of_owner _ ho).trans ?_)
  simp only [hop, hcount, hc]

theorem exec_ckFold_of_owner {x : Byte} {h : Hw} (hc : s.hw.ckFold u x.toNat = h) :
    exec (.ckFold c u x) s = .next (s.setHw h) := by
  obtain ⟨hop, hcode⟩ := bits_ckFoldWord x
  rw [exec_ckFold]
  refine onHw_eq ((Hw.ckWrite_of_owner _ ho).trans ?_)
  simp only [hop, hcode, hc]

theorem exec_ckCompare_of_owner {agree : Bool} {h : Hw} (hc : s.hw.ckCompare u agree = h) :
    exec (.ckCompare c u agree) s = .next (s.setHw h) := by
  rw [exec_ckCompare]
  exact onHw_eq ((Hw.ckWrite_of_owner _ ho).trans hc)

end

end

/-- Settles O22: CK_UCTRL by whether its unit is free, the writer's or another's, and every other command by whether the writer owns
the unit, then by its operation. -/
theorem checkUnits : Obligations.CheckUnits := by
  intro c u s
  refine ⟨fun v => ⟨fun hfree hclaim hkeep => ?_, fun hfree ho => ⟨?_, ?_⟩, exec_ckRelease_of_owner, fun ho => ?_,
    fun ho => ?_⟩, fun ho => ⟨?_, fun n => ?_, fun x => ?_, fun a => ?_⟩, fun ho => ⟨exec_ckStart_of_owner ho,
    fun n hn => exec_ckTail_of_owner ho (if_neg hn), exec_ckTail_of_owner ho (s.hw.ckTail_zero u),
    fun x => ⟨fun hx => exec_ckFold_of_owner ho (if_pos hx),
      fun hx => exec_ckFold_of_owner ho (if_neg (Bool.eq_false_iff.mp hx))⟩, exec_ckCompare_of_owner ho rfl,
      fun heq => exec_ckCompare_of_owner ho (Hw.ckCompare_of_agrees heq),
    fun hne => exec_ckCompare_of_owner ho (Hw.ckCompare_of_differs hne)⟩⟩
  · rw [exec_ckClaim]
    exact onHw_eq (Hw.ckCtrl_of_claim c.isLt hfree hclaim hkeep)
  · exact exec_ckCtrl_of_foreign hfree ho
  · exact exec_ckCtrl_of_foreign hfree ho
  · rw [exec_ckWindowWrite]
    exact onHw_eq (Hw.ckWrite_of_owner _ ho)
  · exact exec_ck_of_foreign ho
  · exact exec_ck_of_foreign ho
  · exact exec_ck_of_foreign ho
  · exact exec_ck_of_foreign ho
  · exact exec_ck_of_foreign ho

end Sys2Proof.Machine
end

section
/-! Memory and its requests (R4, R346, R350): bytes written read back and leave every other byte, and what becomes of a request of
one granule. -/

namespace Sys2Proof.Machine

/-! ### Bytes in memory -/

theorem Memory.read_writeBytes_other (d : List Byte) : ∀ (m : List Host.Cell) {a x : Nat}, x < a ∨ a + d.length ≤ x →
    Memory.read (Memory.writeBytes m a d) x = Memory.read m x := by
  induction d with
  | nil => exact fun _ _ _ _ => rfl
  | cons b r ih =>
    intro m a x hx
    rw [List.length_cons] at hx
    rw [Memory.writeBytes, ih _ (by omega), Memory.read_write_other _ _ (by omega)]

theorem Memory.readBytes_writeBytes (d : List Byte) : ∀ (m : List Host.Cell) (a : Nat),
    Memory.readBytes (Memory.writeBytes m a d) a d.length = d := by
  induction d with
  | nil => exact fun _ _ => rfl
  | cons b r ih =>
    intro m a
    rw [Memory.writeBytes, List.length_cons, Memory.readBytes, ih, Memory.read_writeBytes_other _ _ (Or.inl (Nat.lt_succ_self a)),
      Memory.read_write_same]

theorem Hw.load_store (h : Hw) (a : Nat) (d : List Byte) : (h.store a d).load a d.length = d :=
  Memory.readBytes_writeBytes d h.mem a

theorem Hw.load64_store64 (h : Hw) (a v : Nat) : (h.store64 a v).load64 a = v % 2 ^ 64 := by
  have hload := h.load_store a (leBytes 8 v)
  rw [length_leBytes] at hload
  exact (congrArg leNat hload).trans (leNat_leBytes 8 v)

/-! ### Requests (R346) -/

/-- A request as it enters its bank queue or waits for a tracker. -/
def hbmReqOf (r : HbmOp) : HbmReq := ⟨r.addr.toNat, hbmOpBytes r, r.cls, r.write.isSome, false⟩
/-- Requests of the class of `r` wait in its stack. -/
def Hw.hbmBehind (h : Hw) (r : HbmOp) : Bool :=
  h.hbm.waiting.any (fun w => w.1.stack == stackOf r.addr.toNat && w.1.cls == (hbmReqOf r).cls)

section
variable {r : HbmOp} {s : State}

theorem Hw.hbmRequest_of_inactive {h : Hw} (ha : h.stackActive r.addr.toNat = false) : h.hbmRequest r = h := by
  unfold Hw.hbmRequest
  simp only [ha, Bool.not_false, if_true]

theorem Hw.hbmRequest_of_tracker {h : Hw} (ha : h.stackActive r.addr.toNat = true)
    (hfree : h.hbm.trackerFree (stackOf r.addr.toNat) r.cls = true) (hb : h.hbmBehind r = false) :
    h.hbmRequest r = h.hbmEnter (hbmReqOf r) r.write := by
  unfold Hw.hbmBehind hbmReqOf at hb
  unfold Hw.hbmRequest
  simp only [ha, hfree, hb, Bool.not_true, Bool.not_false, Bool.and_self, Bool.false_eq_true, if_false, if_true]
  rfl

theorem Hw.hbmRequest_of_wait {h : Hw} (ha : h.stackActive r.addr.toNat = true)
    (hw : h.hbm.trackerFree (stackOf r.addr.toNat) r.cls = false ∨ h.hbmBehind r = true) :
    h.hbmRequest r = h.setHbm (fun b => { b with waiting := b.waiting ++ [(hbmReqOf r, r.write)] }) := by
  have hno : (h.hbm.trackerFree (stackOf r.addr.toNat) r.cls && !h.hbmBehind r) = false := by
    rcases hw with hw | hw <;> simp only [hw, Bool.false_and, Bool.not_true, Bool.and_false]
  unfold Hw.hbmBehind hbmReqOf at hno
  unfold Hw.hbmRequest
  simp only [ha, hno, Bool.not_true, Bool.false_eq_true, if_false]
  rfl

theorem exec_hbmRequest_eq {h : Hw} (hok : hbmOpOk r = true) (hf : s.hw.hbmRequest r = h) :
    exec (.hbmRequest r) s = .next (s.setHw h) := by
  rw [exec_hbmRequest, execHbmRequest, hok, guarded_true]
  exact onHw_eq hf

theorem Hw.hbmEnter_write_mem (h : Hw) (q : HbmReq) (d : List Byte) :
    (h.hbmEnter q (some d)).mem = Memory.writeBytes h.mem q.addr d :=
  Hw.requests_mem _ _ _ _

end

/-- Settles O58: an accepted request enters its bank queue with its bytes in memory; a word is its eight bytes. -/
theorem writesReadBack : Obligations.WritesReadBack := by
  refine ⟨fun r d s hd hok ha hfree hnone => ?_, Hw.load64_store64⟩
  have hb : s.hw.hbmBehind r = false := by
    refine List.any_eq_false.mpr fun w hw hmeet => ?_
    obtain ⟨hstack, hcls⟩ := Bool.and_eq_true_iff.mp hmeet
    exact hnone w hw (eq_of_beq hstack) (eq_of_beq hcls)
  have hmem : (s.hw.hbmEnter (hbmReqOf r) r.write).mem = Memory.writeBytes s.hw.mem r.addr.toNat d := by
    rw [hd]
    exact s.hw.hbmEnter_write_mem _ d
  refine ⟨_, exec_hbmRequest_eq hok (Hw.hbmRequest_of_tracker ha hfree hb), ?_, fun a hout => ?_⟩
  · rw [State.setHw_hw, Hw.load, hmem]
    exact Memory.readBytes_writeBytes d _ _
  · rw [State.setHw_hw, hmem]
    exact Memory.read_writeBytes_other d _ hout

end Sys2Proof.Machine
end

section
/-! The HBM controller's traffic (R346 to R355). First what a burst, an admission and an error leave alone: what the banks owe in
refreshes, and the counts of starved requests; then the commands by what a bank picks. -/

namespace Sys2Proof.Machine

/-! ### What traffic leaves alone -/

/-- The refresh debt stands, and so does each stack's count of starved requests issued (HM_SCNT 9). -/
def Hw.KeepsDebt (h k : Hw) : Prop :=
  k.hbm.debt = h.hbm.debt ∧ ∀ j, k.rd .HM_SCNT_count (16 * j + 9) = h.rd .HM_SCNT_count (16 * j + 9)

section
variable {h k : Hw}

theorem Hw.KeepsDebt.refl (h : Hw) : h.KeepsDebt h := ⟨rfl, fun _ => rfl⟩

theorem Hw.KeepsDebt.trans {m : Hw} (h1 : h.KeepsDebt k) (h2 : k.KeepsDebt m) : h.KeepsDebt m :=
  ⟨h2.1.trans h1.1, fun j => (h2.2 j).trans (h1.2 j)⟩

theorem Hw.KeepsDebt.over {α : Type} (hk : h.KeepsDebt k) (l : List α) {f : Hw → α → Hw}
    (hf : ∀ m a, Hw.KeepsDebt m (f m a)) : h.KeepsDebt (k.over l f) :=
  Hw.over_keeps h.KeepsDebt l f (fun m a hm => hm.trans (hf m a)) k hk

variable (h)

theorem Hw.keepsDebt_raise (code origin : Nat) : h.KeepsDebt (h.raise code origin) := ⟨rfl, fun _ => rfl⟩

theorem Hw.keepsDebt_setHbm {f : HbmSt → HbmSt} (hf : ∀ b, (f b).debt = b.debt) : h.KeepsDebt (h.setHbm f) :=
  ⟨hf h.hbm, fun _ => rfl⟩

theorem Hw.keepsDebt_wr (f : Fld) (v ix sl bank : Nat) (hf : f.reg ≠ .HM_SCNT) : h.KeepsDebt (h.wr f v ix sl bank) :=
  ⟨rfl, fun _ => Hw.rd_wr_other _ _ _ _ _ _ _ _ _ _ hf⟩

/-- A counter of a stack at another place of HM_SCNT. -/
theorem Hw.keepsDebt_scnt (s c n : Nat) (hc : c < 16) (h9 : c ≠ 9) : h.KeepsDebt (h.scnt s c n) := by
  refine ⟨rfl, fun j => congrArg (bits · 47 0) (Hw.val_setVal_place _ _ _ fun hp => ?_)⟩
  have hix := congrArg Reg.ix hp
  dsimp only at hix
  omega

theorem Hw.keepsDebt_requests (cls a n : Nat) (hc : cls < 6) : h.KeepsDebt (h.requests cls a n) := by
  unfold Hw.requests
  split
  · exact h.keepsDebt_scnt (stackOf a) cls _ (by omega) (by omega)
  · exact .refl h

theorem Hw.keepsDebt_hbmEnter (r : HbmReq) (data : Option (List Byte)) : h.KeepsDebt (h.hbmEnter r data) := by
  cases data with
  | none => exact h.keepsDebt_requests r.cls r.addr r.len r.cls.isLt
  | some d => exact (h.store r.addr d).keepsDebt_requests r.cls r.addr r.len r.cls.isLt

theorem Hw.keepsDebt_hbmRequest (r : HbmOp) : h.KeepsDebt (h.hbmRequest r) := by
  unfold Hw.hbmRequest
  dsimp only
  split_ifs
  · exact .refl h
  · exact h.keepsDebt_hbmEnter _ _
  · exact .refl h

theorem Hw.keepsDebt_hbmAdmit (s : Nat) : h.KeepsDebt (h.hbmAdmit s) := by
  refine .over (.refl h) _ fun m w => ?_
  split
  · refine .trans ?_ (Hw.keepsDebt_hbmEnter _ _ _)
    exact m.keepsDebt_setHbm fun _ => rfl
  · exact .refl m

theorem Hw.keepsDebt_poisonedRead (cls s : Nat) : h.KeepsDebt (h.poisonedRead cls s) := by
  have hseen : h.KeepsDebt (((h.raise 0x711 8).count .HM_SCNT_count (16 * stackOf (64 * s) + 7)).setBit .HM_EVENT_events 3) :=
    (h.keepsDebt_raise _ _).trans (((h.raise 0x711 8).keepsDebt_scnt _ 7 1 (by decide) (by decide)).trans
      (Hw.keepsDebt_wr _ _ _ _ _ _ (by decide)))
  unfold Hw.poisonedRead
  dsimp only
  split
  · exact hseen
  · exact hseen.trans ((Hw.keepsDebt_wr _ _ _ _ _ _ (by decide)).trans ((Hw.keepsDebt_wr _ _ _ _ _ _ (by decide)).trans
      ((Hw.keepsDebt_wr _ _ _ _ _ _ (by decide)).trans (Hw.keepsDebt_wr _ _ _ _ _ _ (by decide)))))

theorem Hw.keepsDebt_sectorErrors (s cls : Nat) (inside : Nat → Bool) (corr uncorr : List Nat) :
    h.KeepsDebt (h.sectorErrors s cls inside corr uncorr) := by
  refine .over ?_ _ fun m x => m.keepsDebt_poisonedRead cls x
  split <;> exact h.keepsDebt_scnt s 6 _ (by decide) (by decide)

theorem Hw.keepsDebt_shareSpend (s cls sectors : Nat) : h.KeepsDebt (h.shareSpend s cls sectors) := by
  unfold Hw.shareSpend
  split <;> exact .refl h

theorem HbmSt.activate_debt (pnr : Nat) (x : HbmSt × Nat) (a : Nat) : (HbmSt.activate pnr x a).1.debt = x.1.debt := by
  unfold HbmSt.activate
  dsimp only
  split <;> rfl

theorem Hw.keepsDebt_activate (as : List Nat) : h.KeepsDebt (h.activate as) :=
  ⟨List.foldlRecOn (motive := fun x : HbmSt × Nat => x.1.debt = h.hbm.debt) as (HbmSt.activate (h.rd .HM_CTRL_pnr_log2)) rfl
    fun x hx a _ => (HbmSt.activate_debt _ x a).trans hx, fun _ => rfl⟩

/-! ### A burst (R343, R347, R348) -/

/-- A parity error that the stack reports as a burst is issued. -/
def Hw.burstParity (h : Hw) (s : Nat) (parity : Bool) : Hw := if parity then (h.raise 0x717 8).scnt s 11 else h
/-- A starved request counted as it is issued. -/
def Hw.burstStarved (h : Hw) (s : Nat) (r : HbmReq) : Hw := if r.starved && r.cls != 0 then h.scnt s 9 else h
/-- A burst that takes its tokens, opens its row and frees its tracker. -/
def Hw.burstTaken (h : Hw) (s : Nat) (r : HbmReq) : Hw :=
  ((h.shareSpend s r.cls (r.span.2 - r.span.1)).activate [r.addr]).setHbm (fun b => { b with reqs := delFirst (· == r) b.reqs })
/-- The errors of a burst that reads, and the requests that its tracker lets in. -/
def Hw.burstEnded (h : Hw) (s : Nat) (r : HbmReq) (corr uncorr : List Nat) : Hw :=
  (if r.write then h else h.sectorErrors s r.cls r.holds corr uncorr).hbmAdmit s

theorem Hw.hbmBurst_eq (s : Nat) (r : HbmReq) (parity : Bool) (corr uncorr : List Nat) :
    h.hbmBurst s r parity corr uncorr =
      (((h.burstParity s parity).burstStarved s r).burstTaken s r).burstEnded s r corr uncorr := rfl

theorem Hw.keepsDebt_burstParity (s : Nat) (parity : Bool) : h.KeepsDebt (h.burstParity s parity) := by
  unfold Hw.burstParity
  split
  · exact (h.keepsDebt_raise _ _).trans (Hw.keepsDebt_scnt _ s 11 1 (by decide) (by decide))
  · exact .refl h

theorem Hw.keepsDebt_burstTaken (s : Nat) (r : HbmReq) : h.KeepsDebt (h.burstTaken s r) :=
  ((h.keepsDebt_shareSpend _ _ _).trans (Hw.keepsDebt_activate _ _)).trans (Hw.keepsDebt_setHbm _ fun _ => rfl)

theorem Hw.keepsDebt_burstEnded (s : Nat) (r : HbmReq) (corr uncorr : List Nat) :
    h.KeepsDebt (h.burstEnded s r corr uncorr) := by
  refine .trans ?_ (Hw.keepsDebt_hbmAdmit _ s)
  split
  · exact .refl h
  · exact h.keepsDebt_sectorErrors _ _ _ _ _

theorem Hw.burstStarved_debt (s : Nat) (r : HbmReq) : (h.burstStarved s r).hbm.debt = h.hbm.debt := by
  unfold Hw.burstStarved
  split <;> rfl

theorem Hw.hbmBurst_debt (s : Nat) (r : HbmReq) (parity : Bool) (corr uncorr : List Nat) :
    (h.hbmBurst s r parity corr uncorr).hbm.debt = h.hbm.debt := by
  rw [Hw.hbmBurst_eq, (Hw.keepsDebt_burstEnded _ _ _ _ _).1, (Hw.keepsDebt_burstTaken _ _ _).1, Hw.burstStarved_debt,
    (Hw.keepsDebt_burstParity _ _ _).1]

/-- A starved request that is not RT counts once, and nothing else of its burst counts there. -/
theorem Hw.hbmBurst_starved (s : Nat) {r : HbmReq} (hs : r.starved = true) (hc : r.cls ≠ 0) (parity : Bool)
    (corr uncorr : List Nat) : (h.hbmBurst s r parity corr uncorr).rd .HM_SCNT_count (16 * s + 9) =
      (h.rd .HM_SCNT_count (16 * s + 9) + 1) % 2 ^ 48 := by
  have hcount (k : Hw) : (k.burstStarved s r).rd .HM_SCNT_count (16 * s + 9) = (k.rd .HM_SCNT_count (16 * s + 9) + 1) % 2 ^ 48 := by
    unfold Hw.burstStarved
    rw [hs, bne_iff_ne.mpr hc]
    exact Hw.rd_wr_same _ _ _ _ _ _ (by decide)
  rw [Hw.hbmBurst_eq, (Hw.keepsDebt_burstEnded _ _ _ _ _).2, (Hw.keepsDebt_burstTaken _ _ _).2, hcount,
    (Hw.keepsDebt_burstParity _ _ _).2]

end

/-! ### What a bank picks (R347, R349, R351) -/

section
variable {h : Hw} {s k : Nat}

theorem Hw.bankPick_of_owed (ho : 8 ≤ h.hbm.owed s k) : h.bankPick s k = some (.refresh true, none) := if_pos ho

section
variable (ho : h.hbm.owed s k < 8)
include ho

theorem Hw.bankPick_of_near (hn : h.hbm.nearDue s k 8 = true) : h.bankPick s k = some (.near true, none) := by
  unfold Hw.bankPick
  simp only [Nat.not_le.mpr ho, hn, if_false, if_true]

variable (hn : h.hbm.nearDue s k 8 = false)
include hn

theorem Hw.bankPick_of_rt {r : HbmReq} (hr : (h.ready s k).find? (fun r => r.cls == 0) = some r) :
    h.bankPick s k = some (.burst r, none) := by
  unfold Hw.bankPick
  simp only [Nat.not_le.mpr ho, hn, hr, Bool.false_eq_true, if_false]

theorem Hw.bankPick_of_starved {r : HbmReq} (hrt : (h.ready s k).find? (fun r => r.cls == 0) = none)
    (hr : (h.ready s k).find? (·.starved) = some r) : h.bankPick s k = some (.burst r, none) := by
  unfold Hw.bankPick
  simp only [Nat.not_le.mpr ho, hn, hrt, hr, Bool.false_eq_true, if_false]

end

/-- A bank that owes nothing and holds no request picks nothing while no neighbour refresh waits. -/
theorem Hw.bankPick_of_idle (ho : h.hbm.owed s k = 0) (hq : h.hbm.queue s k = []) (hn : h.hbm.near = []) :
    h.bankPick s k = none := by
  have hready : h.ready s k = [] := by
    unfold Hw.ready
    rw [hq]
    rfl
  have hnear (least : Nat) : h.hbm.nearDue s k least = false := by
    unfold HbmSt.nearDue
    rw [hn]
    rfl
  unfold Hw.bankPick
  simp only [ho, hready, hnear, hq, List.find?_nil, List.isEmpty_nil, Nat.lt_irrefl, show ¬8 ≤ 0 by decide, Bool.false_eq_true,
    if_false, if_true]

end

/-- Settles O48: the pick of a bank by what it owes and by what waits in it; the burst counts a starved request once. -/
theorem starvedRequests : Obligations.StarvedRequests := by
  intro h k b x hx
  refine ⟨Hw.bankPick_of_owed, Hw.bankPick_of_near, fun r ho hn => Hw.bankPick_of_rt ho hn,
    fun ho hn hrt => Hw.bankPick_of_starved ho hn hrt hx,
    fun parity corr uncorr hc => ?_⟩
  rw [Hw.hbmBurst_starved _ _ (List.find?_some hx) hc]
  exact (h.rd_wr_same .HM_SCNT_count _ _ _ _ (by decide)).symm

end Sys2Proof.Machine
end

section
/-! The commands of the HBM controller (R346 to R355): the command that a pseudo-channel issues by what its banks pick, a refresh
interval, promotion and patrol; and what each does to the refresh debt. -/

namespace Sys2Proof.Machine

/-! ### The issue of a pseudo-channel (R347) -/

/-- The first bank from the pointer on that picks something, with what it picks. -/
def Hw.issuePick (h : Hw) (s pc : Nat) : Option (Nat × HbmPick × Option (Nat × Nat)) :=
  ((List.range 64).map (fun i => (nth (nth h.hbm.ptr s []) pc 0 + i) % 64)).findSome?
    (fun b => (h.bankPick s (64 * pc + b)).map (fun x => (b, x)))
/-- The pointer of a pseudo-channel moved on by one, and the turn of the bank that issues. -/
def Hw.issued (h : Hw) (s pc k : Nat) (turn : Option (Nat × Nat)) : Hw := h.setHbm (fun m => { m with
  ptr := setNth m.ptr s (setNth (nth m.ptr s []) pc ((nth (nth h.hbm.ptr s []) pc 0 + 1) % 64))
  turn := match turn with | some t => m.turn.filter (fun x => x.1 != (s, k)) ++ [((s, k), t)] | none => m.turn })
/-- A bank refreshed: its row closes, and it owes one refresh less. -/
def Hw.refreshPaid (h : Hw) (s k : Nat) : Hw := h.setHbm (fun m => { m with
  rows := m.rows.filter (fun e => e.1 != (s, k))
  debt := setNth m.debt s (setNth (nth m.debt s []) k (m.owed s k - 1)) })
/-- The neighbour rows of a bank refreshed. -/
def Hw.nearPaid (h : Hw) (s k : Nat) : Hw := (h.setHbm (fun m => { m with
  rows := m.rows.filter (fun e => e.1 != (s, k))
  near := delFirst (fun x => x.1 == s && x.2.1 == k) m.near })).scnt s 10

section
variable {h : Hw} {s pc : Nat} {parity : Bool} {corr uncorr : List Nat}

theorem Hw.hbmIssue_of_none (hp : h.issuePick s pc = none) : h.hbmIssue s pc parity corr uncorr = h := by
  unfold Hw.issuePick at hp
  unfold Hw.hbmIssue
  simp only [hp]

theorem Hw.hbmIssue_of_pick {b : Nat} {pick : HbmPick} {turn : Option (Nat × Nat)}
    (hp : h.issuePick s pc = some (b, pick, turn)) :
    h.hbmIssue s pc parity corr uncorr =
      let k := 64 * pc + b
      let g := h.issued s pc k turn
      match pick with
      | .refresh true => ((g.rtDelayed s k).scnt s 8).refreshPaid s k
      | .refresh false => g.refreshPaid s k
      | .near true => (g.rtDelayed s k).nearPaid s k
      | .near false => g.nearPaid s k
      | .burst r => g.hbmBurst s r parity corr uncorr := by
  unfold Hw.issuePick at hp
  unfold Hw.hbmIssue
  simp only [hp]
  cases pick with
  | refresh forced => cases forced <;> rfl
  | near forced => cases forced <;> rfl
  | burst r => rfl

/-- The bank at the pointer comes first. -/
theorem Hw.issuePick_of_pointer {p : Nat} {x : HbmPick × Option (Nat × Nat)} (hp : nth (nth h.hbm.ptr s []) pc 0 = p)
    (h64 : p < 64) (hx : h.bankPick s (64 * pc + p) = some x) : h.issuePick s pc = some (p, x) := by
  have hrange : List.range 64 = 0 :: (List.range 63).map (· + 1) := by decide
  unfold Hw.issuePick
  rw [hp, hrange, List.map_cons, Nat.add_zero, Nat.mod_eq_of_lt h64, List.findSome?_cons, hx]
  rfl

theorem Hw.issuePick_of_idle (hb : ∀ b < 64, h.bankPick s (64 * pc + b) = none) : h.issuePick s pc = none := by
  refine List.findSome?_eq_none_iff.mpr fun b hmem => ?_
  obtain ⟨i, _, rfl⟩ := List.mem_map.mp hmem
  rw [hb _ (Nat.mod_lt _ (by decide))]
  rfl

end

/-! ### The commands -/

section
variable {k : Stack} {s : State}

theorem exec_hbmBurstIssue_eq (hc : 2 ≤ s.hw.rd .HM_STACKSTAT_state k) {pc : Fin 32} {parity : Bool} {corr uncorr : List Nat}
    {h : Hw} (hi : s.hw.hbmIssue k pc parity corr uncorr = h) :
    exec (.hbmBurstIssue k ⟨pc, parity⟩ corr uncorr) s = .next (s.setHw h) := by
  rw [exec_hbmBurstIssue]
  exact onHw_eq ((if_pos (decide_eq_true hc)).trans hi)

theorem exec_hbmBurstIssue_of_unclocked (hc : ¬2 ≤ s.hw.rd .HM_STACKSTAT_state k) {pc : Fin 32} {parity : Bool}
    {corr uncorr : List Nat} : exec (.hbmBurstIssue k ⟨pc, parity⟩ corr uncorr) s = .next s := by
  rw [exec_hbmBurstIssue]
  refine onHw_stands (if_neg ?_)
  rw [Hw.stackClocked, decide_eq_false hc]
  exact Bool.false_ne_true

/-- What each bank of a clocked stack, and each neighbour refresh that waits there, gains in an interval (R351). -/
def Hw.intervalOwed (h : Hw) (k : Nat) : Hw := h.setHbm (fun b => { b with
  debt := setNth b.debt k ((nth h.hbm.debt k []).map (fun x => min 8 (x + 1)))
  near := b.near.map (fun x => if x.1 = k then (x.1, x.2.1, x.2.2 + 1) else x) })
/-- A refresh interval: F-0x712 for each bank that owes 8 already. -/
def Hw.refreshInterval (h : Hw) (k : Nat) : Hw :=
  (h.intervalOwed k).each (((nth h.hbm.debt k []).filter (8 ≤ ·)).length) (fun m _ => m.raise 0x712 8)

theorem exec_refreshInterval_of_clocked (hc : 2 ≤ s.hw.rd .HM_STACKSTAT_state k) :
    exec (.refreshInterval k) s = .next (s.setHw (s.hw.refreshInterval k)) := by
  rw [exec_refreshInterval]
  exact onHw_eq (if_pos (decide_eq_true hc))

theorem exec_refreshInterval_of_unclocked (hc : ¬2 ≤ s.hw.rd .HM_STACKSTAT_state k) : exec (.refreshInterval k) s = .next s := by
  rw [exec_refreshInterval]
  refine onHw_stands (if_neg ?_)
  rw [Hw.stackClocked, decide_eq_false hc]
  exact Bool.false_ne_true

theorem Hw.refreshInterval_debt (h : Hw) (k : Nat) :
    (h.refreshInterval k).hbm.debt = setNth h.hbm.debt k ((nth h.hbm.debt k []).map (fun x => min 8 (x + 1))) :=
  Hw.each_keeps (fun m => m.hbm.debt = (h.intervalOwed k).hbm.debt) _ (fun m _ => m.raise 0x712 8) (fun _ _ hm => hm) _ rfl

theorem exec_starvePick_next (pc : Fin 32) : exec (.starvePick k pc) s = .next (s.setHw (s.hw.setHbm (fun b => { b with
    reqs := updFirst (fun r => r.stack == k.val && bankOf r.addr / 64 == pc.val && !r.starved)
      (fun r => { r with starved := true }) b.reqs }))) := by
  rw [exec_starvePick]
  exact onHw_next _ s

theorem exec_patrol_of_active {corr uncorr : List Nat} (ha : s.hw.stackActive (stackBase k) = true) :
    exec (.patrol k corr uncorr) s = .next (s.setHw
      ((((s.hw.scnt k 4 (0x600000000 / 512)).sectorErrors k 4
        (fun x => inHbm (64 * x) && stackOf (64 * x) == k.val) corr uncorr).scnt k 13).activate
        ((List.range 2048).map (fun i => stackBase k + 512 * (i / 64) + 16384 * (i % 64) + 12287 * 2 ^ 21)))) := by
  rw [exec_patrol]
  exact onHw_eq (if_pos ha)

end

theorem Hw.setHbm_congr {h : Hw} {f g : HbmSt → HbmSt} (hfg : f h.hbm = g h.hbm) : h.setHbm f = h.setHbm g := by
  unfold Hw.setHbm
  rw [hfg]

/-- The first element that satisfies a predicate, behind others that do not. -/
theorem updFirst_append {α : Type} {p : α → Bool} (f : α → α) {a : List α} {r : α} (z : List α)
    (ha : a.all (fun x => !p x) = true) (hr : p r = true) : updFirst p f (a ++ r :: z) = a ++ f r :: z := by
  induction a with
  | nil => exact if_pos hr
  | cons x a ih =>
    obtain ⟨hx, ha⟩ := Bool.and_eq_true_iff.mp ((List.all_cons ..).symm.trans ha)
    rw [List.cons_append, updFirst, if_neg (by simpa using hx), ih ha, List.cons_append]

/-- Settles O24: a request by what it finds, an issue by the pick of the bank at the pointer, and an interval, a promotion and a
patrol each by its lemma. -/
theorem hbmTraffic : Obligations.HbmTraffic := by
  refine ⟨fun r s hok => ⟨fun ha hfree hb => ?_, fun ha hw => exec_hbmRequest_eq hok (Hw.hbmRequest_of_wait ha hw),
    fun ha => exec_hbmRequest_eq hok (Hw.hbmRequest_of_inactive ha)⟩, fun k pc parity corr uncorr s hc => ⟨fun h64 => ⟨fun ho => ?_,
    fun r ho hn hr => ?_⟩, fun hidle hnear => ?_⟩, fun k s => exec_refreshInterval_of_clocked,
    fun k pc a z r s hreqs hr ha => ?_, fun k corr uncorr s => exec_patrol_of_active⟩
  · exact exec_hbmRequest_eq hok (Hw.hbmRequest_of_tracker ha hfree hb)
  · rw [exec_hbmBurstIssue_eq hc (Hw.hbmIssue_of_pick (Hw.issuePick_of_pointer rfl h64 (Hw.bankPick_of_owed ho)))]
    rfl
  · rw [exec_hbmBurstIssue_eq hc (Hw.hbmIssue_of_pick (Hw.issuePick_of_pointer rfl h64 (Hw.bankPick_of_rt ho hn hr)))]
    rfl
  · refine exec_hbmBurstIssue_eq hc (Hw.hbmIssue_of_none (Hw.issuePick_of_idle fun b hb => ?_))
    obtain ⟨howed, hqueue⟩ := hidle b hb
    exact Hw.bankPick_of_idle howed hqueue hnear
  · rw [exec_starvePick_next]
    refine next_setHw_congr (Hw.setHbm_congr ?_)
    rw [hreqs, updFirst_append _ z ha hr]

/-! ### The bound of the refresh debt (R351) -/

/-- No bank owes more than 8 refreshes. -/
def DebtBounded (debt : List (List Nat)) : Prop := ∀ l ∈ debt, ∀ d ∈ l, d ≤ 8

section
variable {debt : List (List Nat)}

theorem DebtBounded.nth (hb : DebtBounded debt) (s : Nat) : ∀ d ∈ nth debt s [], d ≤ 8 := by
  unfold Machine.nth
  rw [List.getD_eq_getElem?_getD]
  cases hs : debt[s]? with
  | none => exact fun d hd => absurd hd List.not_mem_nil
  | some l => exact hb l (List.mem_of_getElem? hs)

theorem DebtBounded.setNth (hb : DebtBounded debt) (s : Nat) {l : List Nat} (hl : ∀ d ∈ l, d ≤ 8) :
    DebtBounded (setNth debt s l) := by
  intro m hm
  rcases List.mem_or_eq_of_mem_set hm with hm | rfl
  · exact hb m hm
  · exact hl

theorem DebtBounded.owed_le {b : HbmSt} (hb : DebtBounded b.debt) (s k : Nat) : b.owed s k ≤ 8 := by
  have hs := hb.nth s
  unfold HbmSt.owed
  generalize Machine.nth b.debt s [] = l at hs
  unfold Machine.nth
  rw [List.getD_eq_getElem?_getD]
  cases hk : l[k]? with
  | none => exact Nat.zero_le 8
  | some d => exact hs d (List.mem_of_getElem? hk)

theorem DebtBounded.refreshPaid {h : Hw} (hb : DebtBounded h.hbm.debt) (s k : Nat) : DebtBounded (h.refreshPaid s k).hbm.debt := by
  refine hb.setNth s fun d hd => ?_
  rcases List.mem_or_eq_of_mem_set hd with hd | rfl
  · exact hb.nth s d hd
  · exact (Nat.sub_le _ 1).trans (hb.owed_le s k)

/-- An issue pays a refresh, or leaves the debt as it is. -/
theorem DebtBounded.hbmIssue {h : Hw} (hb : DebtBounded h.hbm.debt) (s pc : Nat) (parity : Bool) (corr uncorr : List Nat) :
    DebtBounded (h.hbmIssue s pc parity corr uncorr).hbm.debt := by
  cases hp : h.issuePick s pc with
  | none => rwa [Hw.hbmIssue_of_none hp]
  | some x =>
    obtain ⟨b, pick, turn⟩ := x
    rw [Hw.hbmIssue_of_pick hp]
    have hpaid (g : Hw) (hg : g.hbm = (h.issued s pc (64 * pc + b) turn).hbm) :
        DebtBounded (g.refreshPaid s (64 * pc + b)).hbm.debt :=
      DebtBounded.refreshPaid (show DebtBounded g.hbm.debt by rw [hg]; exact hb) s _
    cases pick with
    | refresh forced => cases forced <;> exact hpaid _ rfl
    | near forced => cases forced <;> exact hb
    | burst r =>
      dsimp only
      rw [Hw.hbmBurst_debt]
      exact hb

end

/-- Settles O60: a request and a promotion leave the debt, an issue pays of it, and an interval adds up to 8. -/
theorem refreshDebt : Obligations.RefreshDebt := by
  refine ⟨fun r k pc parity corr uncorr s hb => ⟨fun hok => ⟨_, exec_hbmRequest_eq hok rfl, ?_⟩, ?_, ?_,
    ⟨_, exec_starvePick_next pc, hb⟩⟩, fun k s hc hlen => ⟨_, exec_refreshInterval_of_clocked hc, ?_⟩⟩
  · show DebtBounded _
    rw [State.setHw_hw, (s.hw.keepsDebt_hbmRequest r).1]
    exact hb
  · by_cases hc : 2 ≤ s.hw.rd .HM_STACKSTAT_state k
    · exact ⟨_, exec_hbmBurstIssue_eq hc rfl, DebtBounded.hbmIssue hb _ _ _ _ _⟩
    · exact ⟨_, exec_hbmBurstIssue_of_unclocked hc, hb⟩
  · by_cases hc : 2 ≤ s.hw.rd .HM_STACKSTAT_state k
    · refine ⟨_, exec_refreshInterval_of_clocked hc, ?_⟩
      show DebtBounded _
      rw [State.setHw_hw, Hw.refreshInterval_debt]
      refine DebtBounded.setNth hb k fun d hd => ?_
      obtain ⟨x, _, rfl⟩ := List.mem_map.mp hd
      exact Nat.min_le_left 8 _
    · exact ⟨_, exec_refreshInterval_of_unclocked hc, hb⟩
  · have hk : k.val < s.hw.hbm.debt.length := hlen.symm ▸ k.isLt
    rw [State.setHw_hw, Hw.refreshInterval_debt, nth, setNth, List.getD_eq_getElem?_getD, List.getElem?_set_self hk]
    rfl

end Sys2Proof.Machine
end

section
/-! The states of an HBM stack (R356 to R358): what a write of HM_STACKCMD does by its operation and the stack's state, how a
command ends, and the margin. -/

namespace Sys2Proof.Machine

/-! ### HM_STACKCMD written (R356, R358) -/

/-- The rate that a write of HM_STACKCMD stores: 3 is stored as 0. -/
def Hw.stackRate (h : Hw) (s v : Nat) : Hw := h.wr .HM_STACKCMD_rate (if bits v 53 52 = 3 then 0 else bits v 53 52) s

section
variable {h : Hw} {s v : Nat}

theorem Hw.stackCmd_of_busy (hgo : bit v 63 = true) (hb : h.on .HM_STACKCMD_busy s = true) : h.stackCmd s v = h := by
  unfold Hw.stackCmd
  simp only [hgo, hb, Bool.and_self, Bool.or_true, if_true]

section
variable (hgo : bit v 63 = true) (hb : h.on .HM_STACKCMD_busy s = false)
include hgo hb

theorem Hw.stackCmd_of_state_in_force (hop : bits v 61 60 = 1) (hcur : bits v 57 56 = h.rd .HM_STACKSTAT_state s) :
    h.stackCmd s v = (h.stackRate s v).stackResult s 1 := by
  unfold Hw.stackCmd
  simp [hgo, hb, hop, hcur, Hw.stackRate]

theorem Hw.stackCmd_of_new_state (hop : bits v 61 60 = 1) (hcur : bits v 57 56 ≠ h.rd .HM_STACKSTAT_state s)
    (hheld : bits v 57 56 = 0 → (h.stackRate s v).stackHoldsBlocks s = false ∧ (h.stackRate s v).stackHoldsLedger s = false) :
    h.stackCmd s v = ((((h.stackRate s v).wr .HM_STACKCMD_op 1 s).wr .HM_STACKCMD_state (bits v 57 56) s).wr .HM_STACKCMD_busy 1
      s).wr .HM_STACKSTAT_training (ofBool (h.rd .HM_STACKSTAT_state s == 0)) s := by
  have hblocks : (decide (bits v 57 56 = 0) && (h.stackRate s v).stackHoldsBlocks s) = false := by
    by_cases h0 : bits v 57 56 = 0
    · rw [(hheld h0).1, Bool.and_false]
    · rw [decide_eq_false h0, Bool.false_and]
  have hledger : (decide (bits v 57 56 = 0) && (h.stackRate s v).stackHoldsLedger s) = false := by
    by_cases h0 : bits v 57 56 = 0
    · rw [(hheld h0).2, Bool.and_false]
    · rw [decide_eq_false h0, Bool.false_and]
  unfold Hw.stackRate at *
  unfold Hw.stackCmd
  simp [hgo, hb, hop, hcur, hblocks, hledger]

theorem Hw.stackCmd_of_retrain (hop : bits v 61 60 = 2) (hidle : h.rd .HM_STACKSTAT_state s = 2) :
    h.stackCmd s v = ((((h.stackRate s v).wr .HM_STACKCMD_op 2 s).wr .HM_STACKCMD_state 2 s).wr .HM_STACKCMD_busy 1 s).wr
      .HM_STACKSTAT_training 1 s := by
  unfold Hw.stackCmd
  simp [hgo, hb, hop, hidle, Hw.stackRate]

theorem Hw.stackCmd_of_refused_retrain (hop : bits v 61 60 = 2) (hidle : h.rd .HM_STACKSTAT_state s ≠ 2) :
    h.stackCmd s v = (h.stackRate s v).wr .HM_STACKCMD_result 2 s := by
  unfold Hw.stackCmd
  simp [hgo, hb, hop, hidle, Hw.stackRate]

end

/-! ### A command's end (R356) -/

theorem Hw.stackDone_of_none {trained : Bool} (hb : h.on .HM_STACKCMD_busy s = false) : h.stackDone s trained = h := by
  unfold Hw.stackDone
  simp only [hb, Bool.not_false, if_true]

/-- A SET_STATE of an IDLE stack neither trains nor drains. -/
theorem Hw.stackDone_of_idle {trained : Bool} (hb : h.on .HM_STACKCMD_busy s = true) (hop : h.rd .HM_STACKCMD_op s = 1)
    (hidle : h.rd .HM_STACKSTAT_state s = 2) :
    h.stackDone s trained = (h.stackEnter s (h.rd .HM_STACKCMD_state s)).stackResult s 1 := by
  unfold Hw.stackDone
  simp [hb, hop, hidle]

theorem Hw.stackDone_of_failed_training (hb : h.on .HM_STACKCMD_busy s = true) (hoff : h.rd .HM_STACKSTAT_state s = 0) :
    h.stackDone s false = (h.stackEnter s 0).stackResult s 5 := by
  unfold Hw.stackDone
  simp [hb, hoff]

end

/-! ### The commands -/

section
variable {k : Stack} {s : State}

theorem exec_stackSetState_eq {v : Word} {h : Hw} (hf : s.hw.stackCmd k v.toNat = h) :
    exec (.stackSetState k v) s = .next (s.setHw h) := by
  rw [exec_stackSetState]
  exact onHw_eq hf

theorem exec_stackRetrain_eq {v : Word} {h : Hw} (hf : s.hw.stackCmd k v.toNat = h) :
    exec (.stackRetrain k v) s = .next (s.setHw h) := by
  rw [exec_stackRetrain]
  exact onHw_eq hf

theorem exec_stackCmdDone_eq {trained : Bool} {h : Hw} (hf : s.hw.stackDone k trained = h) :
    exec (.stackCmdDone k trained) s = .next (s.setHw h) := by
  rw [exec_stackCmdDone]
  exact onHw_eq hf

/-- The tracked margin shown, with whether it lies below the threshold. -/
def Hw.marginShown (h : Hw) (k margin : Nat) (low : Bool) : Hw :=
  (h.wr .HM_STACKSTAT_margin margin k).setHbm (fun b => { b with low := setNth b.low k low })

theorem exec_marginLow_of_falling {margin : Byte} (ha : s.hw.rd .HM_STACKSTAT_state k = 3)
    (hlow : margin.toNat < s.hw.rd .HM_SHARE_margin_thr k) (hwas : nth s.hw.hbm.low k false = false) :
    exec (.marginLow k margin) s = .next (s.setHw ((s.hw.marginShown k margin.toNat true).setBit .HM_EVENT_events 2)) := by
  rw [exec_marginLow]
  refine onHw_eq ?_
  simp only [ha, hlow, hwas, decide_true, Bool.not_false, Bool.and_self, if_true]
  rfl

theorem exec_marginLow_of_enough {margin : Byte} (ha : s.hw.rd .HM_STACKSTAT_state k = 3)
    (henough : s.hw.rd .HM_SHARE_margin_thr k ≤ margin.toNat) :
    exec (.marginLow k margin) s = .next (s.setHw (s.hw.marginShown k margin.toNat false)) := by
  rw [exec_marginLow]
  refine onHw_eq ?_
  simp only [ha, Nat.not_lt.mpr henough, decide_false, Bool.false_and, Bool.false_eq_true, if_false, if_true]
  rfl

end

/-- Settles O23: a write by its operation and the stack's state, the end of a command by what it ends, and the margin by whether it
falls. -/
theorem stackStates : Obligations.StackStates := by
  refine ⟨fun k v s => ⟨fun hgo hb => ?_, fun hgo hb hop => ⟨fun hcur => ?_, fun hcur hheld => ?_⟩,
      fun hgo hb hop => ⟨fun hidle => ?_, fun hidle => ?_⟩⟩,
    fun k trained s => ⟨fun hb => ?_, fun hb hop hidle => ?_, fun hb hoff => ?_⟩,
    fun k margin s ha => ⟨exec_marginLow_of_falling ha, exec_marginLow_of_enough ha⟩, fun v s hv => ?_⟩
  · have hstands := Hw.stackCmd_of_busy hgo hb
    exact ⟨exec_stackSetState_eq hstands, exec_stackRetrain_eq hstands⟩
  · exact exec_stackSetState_eq (Hw.stackCmd_of_state_in_force hgo hb hop hcur)
  · exact exec_stackSetState_eq (Hw.stackCmd_of_new_state hgo hb hop hcur hheld)
  · exact exec_stackRetrain_eq (Hw.stackCmd_of_retrain hgo hb hop hidle)
  · exact exec_stackRetrain_eq (Hw.stackCmd_of_refused_retrain hgo hb hop hidle)
  · exact exec_stackCmdDone_eq (Hw.stackDone_of_none hb)
  · exact exec_stackCmdDone_eq (Hw.stackDone_of_idle hb hop hidle)
  · exact exec_stackCmdDone_eq (Hw.stackDone_of_failed_training hb hoff)
  · rw [exec_hmErrlogClear]
    exact onHw_eq (if_pos hv)

end Sys2Proof.Machine
end

section
/-! The deep buffer (R359 to R366): a copy packed into its block, a block read into the stage and arrived, a walk that waits, the
account and the region. -/

namespace Sys2Proof.Machine

section
variable {h : Hw} {n q : Nat}

/-! ### Spilling (R361, R362) -/

/-- The copy as it is packed. -/
def QCopy.packed (y : QCopy) (q : Nat) (b : Buf) : List Byte :=
  packCopy y.desc.len y.requester y.desc.colour y.desc.replica q y.enq b.ext b.bytes

/-- A whole copy whose queue has no walk waiting, its region enabled on a stack that is ACTIVE and lets it in. -/
theorem Hw.spillWrite_of_packed {c k : Nat} {x : QueueSt} {y : QCopy} {r : List QCopy} {b : Buf} {g : Hw}
    (hfind : h.queues.find? (fun e => e.1 / 2048 == n && (e.2.spill.head?.map (·.id)) == some c) = some (k, x))
    (hspill : x.spill = y :: r) (hbuf : h.buf? n y.desc.buffer y.desc.tag = some b) (hwhole : y.whole = true)
    (hpurge : x.purge = none) (hon : h.on .HM_DB_enable n = true) (hact : h.stackActive (h.rd .HM_DB_base n) = true)
    (hmay : h.mayAccess (stackOf (h.rd .HM_DB_base n)) 2 (ceilDiv (y.packed (k % 2048) b).length 64) = true)
    (hpack : h.packInto n (k % 2048) (y.packed (k % 2048) b) y.desc.len y.desc.ed b.info = some g) :
    h.spillWrite n c =
      ((((((g.setQueue n (k % 2048) { g.queue n (k % 2048) with spill := r }).free n y.desc.buffer y.desc.tag).ledger n
        [charge y.desc.tenant 11 y.desc.len]).qCount n (k % 2048) 5).bump .HM_CNT 0).pm n 0x52 1 none 15
        (some y.desc.tenant)) := by
  unfold QCopy.packed at hmay hpack
  unfold Hw.spillWrite
  simp only [hfind, hspill, hbuf, hwhole, hpurge, hon, hact, hmay, hpack, Option.isSome_none, Bool.not_true, Bool.or_self,
    Bool.false_eq_true, if_false]

/-! ### Draining (R363) -/

/-- The bytes of a slice's drain stage that hold blocks. -/
def Hw.stageHeld (h : Hw) (n : Nat) : Nat :=
  ((h.queues.filter (fun e => e.1 / 2048 == n)).flatMap (fun e => e.2.stage.map (fun s =>
    ceilDiv (64 + s.used) 64 * 64))).foldl (· + ·) 0
/-- The bytes used in a block, as its header says. -/
def Hw.blockUsed (h : Hw) (n b : Nat) : Nat := leNat (h.load (h.blockAddr n b + 10) 2)
/-- The bytes of a block that a read takes, in whole sectors. -/
def Hw.blockRead (h : Hw) (n b : Nat) : Nat := ceilDiv (64 + h.blockUsed n b) 64 * 64

theorem Hw.drainRead_of_room {b b' : Nat} {r : List Nat} (hblocks : (h.queue n q).blocks = b :: b' :: r)
    (hlow : (h.queue n q).onDie ≤ 512 * h.rd .TM_QCFG2_spill_kib q n) (hpurge : (h.queue n q).purge = none)
    (hstage : (h.queue n q).stage.length < 16) (hact : h.stackActive (h.rd .HM_DB_base n) = true)
    (hroom : h.stageHeld n + h.blockRead n b ≤ 524288)
    (hmay : h.mayAccess (stackOf (h.blockAddr n b)) 0 (h.blockRead n b / 64) = true) :
    h.drainRead n q =
      ((h.setQueue n q { h.queue n q with blocks := b' :: r, stage := (h.queue n q).stage ++ [⟨b, h.blockUsed n b, none⟩] }).granules
        0 (h.blockAddr n b) (h.blockRead n b)) := by
  unfold Hw.stageHeld Hw.blockRead Hw.blockUsed at *
  unfold Hw.drainRead
  simp only [hblocks, hlow, hpurge, hact, hmay, Nat.not_le.mpr hstage, Nat.not_lt.mpr hroom, List.isEmpty_cons, decide_true,
    decide_false, Option.isSome_none, Bool.not_true, Bool.or_self, Bool.false_eq_true, if_false]

theorem Hw.drainArrived_of_waiting {b : StageBlk} (hfind : (h.queue n q).stage.find? (fun s => s.copies.isNone) = some b)
    (hpurge : (h.queue n q).purge = none) : h.drainArrived n q =
      let r := h.takeInBlock n q b.block 0
      let g := r.2.bump .HM_CNT 1
      let x := g.queue n q
      let stage := if r.1.isEmpty then delFirst (fun y => y.copies.isNone) x.stage
        else updFirst (fun y => y.copies.isNone) (fun y => { y with copies := some r.1 }) x.stage
      g.setQueue n q ({ x with stage := stage } : QueueSt).rested := by
  unfold Hw.drainArrived
  simp only [hfind, hpurge, Option.isSome_none, Bool.false_eq_true, if_false]

/-! ### Walks and regions (R359, R364) -/

theorem Hw.purgeWalk_stands (hw : (h.queue n q).purge = none ∨ h.stackActive (h.rd .HM_DB_base n) = false) :
    h.purgeWalk n q = h := by
  unfold Hw.purgeWalk
  cases hp : (h.queue n q).purge with
  | none => simp only [hp]
  | some p =>
    have hact := hw.resolve_left (by simp [hp])
    simp only [hp, hact, Bool.not_false, if_true]

theorem Hw.regionWrite_of_ok {v : Nat} (hfree : h.rd .HM_DB_STAT_in_use n = 0) (hok : regionOk v = true) : h.regionWrite n v =
    (((((h.setVal .HM_DB ((bits v 63 63 <<< 63) + (bits v 60 40 <<< 40) + bits v 39 14 * 16384) n).wr
      .HM_DB_STAT_in_use 0 n).wr .HM_DB_STAT_lost 0 n).wr .HM_DB_STAT_high_water 0 n).setDb n DbSt.empty) := by
  unfold Hw.regionWrite
  simp only [hfree, hok, Nat.not_lt_zero, Bool.true_eq_false, and_false, or_self, if_false]

theorem Hw.regionWrite_of_bad {v : Nat} (hv : bit v 63 = true) (hbad : regionOk v = false) :
    h.regionWrite n v = h.wr .HM_DB_STAT_refused 1 n := by
  unfold Hw.regionWrite
  simp only [hv, hbad, and_self, or_true, if_true]

end

/-- Settles O18: each command by its lemma; the account by whether it adds up. -/
theorem deepBuffer : Obligations.DeepBuffer := by
  refine ⟨fun n k c x y r b h s hfind hspill hbuf hwhole hpurge hon hact hmay hpack => ?_,
    fun n q b b' r s hblocks hlow hpurge hstage hact hroom hmay => ?_, fun n q b s hfind hpurge => ?_,
    fun n q s => ⟨?_, Hw.purgeWalk_stands⟩, fun n s => ⟨fun hsum => ?_, fun hsum => ?_⟩,
    fun n v s hfree => ⟨fun hv hok => ?_, fun hv hbad => ?_⟩⟩
  · rw [exec_spillWrite]
    exact onHw_eq (Hw.spillWrite_of_packed hfind hspill hbuf hwhole hpurge hon hact hmay hpack)
  · rw [exec_drainBlockRead]
    exact onHw_eq (Hw.drainRead_of_room hblocks hlow hpurge hstage hact hroom hmay)
  · rw [exec_drainBlockArrived]
    exact onHw_eq (Hw.drainArrived_of_waiting hfind hpurge)
  · rw [exec_purgeWalk]
    exact onHw_next _ s
  · rw [exec_dbAccountCheck]
    exact onHw_stands (if_pos hsum)
  · rw [exec_dbAccountCheck]
    exact onHw_eq (if_neg hsum)
  · rw [exec_hmDbWrite]
    exact onHw_eq (Hw.regionWrite_of_ok hfree hok)
  · rw [exec_hmDbWrite]
    exact onHw_eq (Hw.regionWrite_of_bad hv hbad)

end Sys2Proof.Machine
end

section
/-! The fuses (R387): only a note of the transmit path's device changes what a reset keeps, and no note mends a revoke fuse or lowers
the minimum version; so no command does, and no step. -/

namespace Sys2Proof.Machine

/-! ### What the fuses hold -/

theorem Perm.within.refl (p : Perm) : p.within p := ⟨BitVec.and_self, Nat.le_refl _⟩

theorem Perm.within.trans {p q r : Perm} (h1 : p.within q) (h2 : q.within r) : p.within r := by
  obtain ⟨hrev1, hmin1⟩ := h1
  obtain ⟨hrev2, hmin2⟩ := h2
  refine ⟨?_, hmin1.trans hmin2⟩
  rw [← hrev1, BitVec.and_assoc, hrev2]

/-- Another revoke fuse blown. -/
theorem Perm.within_revoke (p : Perm) (x : BitVec 4) : p.within { p with revoked := p.revoked ||| x } := by
  refine ⟨BitVec.eq_of_getElem_eq fun i hi => ?_, Nat.le_refl _⟩
  rw [BitVec.getElem_and, BitVec.getElem_or]
  cases p.revoked[i] <;> rfl

/-- The minimum version raised to a number above it, as far as its 6 bits reach. -/
theorem Perm.within_raise (p : Perm) (v : Nat) :
    p.within { p with minVersion := if p.minVersion.toNat < v then BitVec.ofNat 6 (min v 63) else p.minVersion } := by
  refine ⟨BitVec.and_self, ?_⟩
  dsimp only
  split
  next hlt =>
    have hmin := p.minVersion.isLt
    rw [BitVec.toNat_ofNat]
    omega
  · exact Nat.le_refl _

/-! ### Changes of the device -/

/-- The fuses of one state of the device are held in another. -/
def Dev.HeldIn (d e : Dev) : Prop := d.perm.within e.perm

section
variable {d e : Dev}

theorem Dev.HeldIn.of_perm (he : e.perm = d.perm) : d.HeldIn e := by
  unfold Dev.HeldIn
  rw [he]
  exact .refl d.perm

theorem Dev.HeldIn.trans {f : Dev} (h1 : d.HeldIn e) (h2 : e.HeldIn f) : d.HeldIn f := Perm.within.trans h1 h2

variable (d)

theorem Dev.heldIn_withHw (h : Hw) : d.HeldIn { d with hw := h } := .of_perm rfl

theorem Dev.heldIn_reset (cause : Nat) : d.HeldIn (d.reset cause) := Perm.within.refl d.perm

theorem Dev.addOwn_perm (p copy : Nat) (ev : Evidence) (bytes : List Byte) : (d.addOwn p copy ev bytes).perm = d.perm := by
  unfold Dev.addOwn
  split <;> rfl

theorem Dev.heldIn_takeNote (n : Note) : d.HeldIn (d.takeNote n) := by
  cases n with
  | data | whole | bad | cutOff | keyGone => exact .of_perm rfl
  | own p c ev b => exact .of_perm (d.addOwn_perm p c ev b)
  | revoke k => exact d.perm.within_revoke _
  | raiseVersion v => exact d.perm.within_raise v
  | reset cause => exact d.heldIn_reset cause

theorem Dev.heldIn_settle : d.HeldIn d.settle :=
  List.foldlRecOn (motive := d.HeldIn) d.hw.notes Dev.takeNote (d.heldIn_withHw _) fun e he n _ => he.trans (e.heldIn_takeNote n)

/-! ### What leaves the fuses alone -/

theorem Dev.dropTx_perm (x : TxFrame) (reason : Nat) : (d.dropTx x reason).perm = d.perm := by
  unfold Dev.dropTx
  dsimp only
  split <;> rfl

theorem Dev.startTx_perm (x : TxFrame) (c : TxCond) : (d.startTx x c).perm = d.perm := by
  unfold Dev.startTx
  dsimp only
  split
  · exact Dev.dropTx_perm _ _ _
  · split
    · exact Dev.dropTx_perm _ _ _
    · split
      · rfl
      · split
        · rfl
        · split <;> rfl

theorem Dev.decide_perm (x : Ctx) (e : EgCtx) (agree : Bool) : (d.decide x e agree).perm = d.perm := by
  unfold Dev.decide
  dsimp only
  split
  · rfl
  · split <;> rfl

theorem Dev.importDone_perm : d.importDone.perm = d.perm := by
  unfold Dev.importDone
  dsimp only
  split
  · rfl
  · split
    · rfl
    · split
      · rfl
      · split_ifs <;> rfl

theorem Dev.upset_perm (u : Upset) : (d.upset u).perm = d.perm := by
  unfold Dev.upset
  split
  · split <;> rfl
  · rfl

theorem Dev.struck_perm (ups : List Upset) : (d.struck ups).perm = d.perm :=
  List.foldlRecOn (motive := fun e : Dev => e.perm = d.perm) ups Dev.upset rfl fun e he u _ => (e.upset_perm u).trans he

end

/-! ### Outcomes of commands -/

/-- Whatever state an outcome goes on to holds what the fuses of a state hold. -/
def EndsHeld (o : Host.Outcome State Fault Refusal) (s : State) : Prop := ∀ t, o = .next t → s.dev.HeldIn t.dev

section
variable {s : State}

theorem endsHeld_setDev {o : Host.Outcome State Fault Refusal} {d : Dev} (ho : o = .next (s.setDev d)) (hd : s.dev.HeldIn d) :
    EndsHeld o s := by
  subst ho
  rintro t ⟨⟩
  exact hd

theorem guarded_endsHeld {ok : Bool} {o : Host.Outcome State Fault Refusal} (ho : EndsHeld o s) : EndsHeld (guarded ok o) s := by
  cases ok
  · rintro t ⟨⟩
  · exact ho

theorem onDev_endsHeld {f : Dev → Dev} (h : s.dev.HeldIn (f s.dev)) : EndsHeld (onDev f s) s := endsHeld_setDev rfl h

variable (s)

theorem execGmodeWrite_endsHeld (n : Slice) (g : Fin 12) (v : Word) (agree : Bool) : EndsHeld (execGmodeWrite n g v agree s) s := by
  refine onDev_endsHeld (.of_perm ?_)
  dsimp only
  split <;> rfl

theorem execTxFrameStart_endsHeld (p : Port) (cond : TxCond) : EndsHeld (execTxFrameStart p cond s) s := by
  refine onDev_endsHeld (.of_perm ?_)
  split
  · rfl
  · split
    · rfl
    · exact s.dev.startTx_perm _ cond

theorem execTxFrameEnd_endsHeld (p : Port) : EndsHeld (execTxFrameEnd p s) s := by
  refine onDev_endsHeld (.of_perm ?_)
  split
  · rfl
  · split
    · rfl
    · dsimp only
      split <;> rfl

theorem execSecyFrameEnd_endsHeld (p : Port) : EndsHeld (execSecyFrameEnd p s) s := by
  refine onDev_endsHeld (.of_perm ?_)
  split <;> rfl

theorem execSaBind_endsHeld (p : Port) : EndsHeld (execSaBind p s) s := by
  refine onDev_endsHeld ?_
  split
  · exact .of_perm rfl
  · refine .trans (.of_perm ?_) (Dev.heldIn_settle _)
    split <;> rfl

theorem execShadowRelease_endsHeld (a : Fin 8192) : EndsHeld (execShadowRelease a s) s := by
  refine onDev_endsHeld (.of_perm ?_)
  dsimp only
  split <;> rfl

theorem execCountersign_endsHeld (n : Slice) (c : Nat) (agree : Bool) : EndsHeld (execCountersign n c agree s) s := by
  refine onDev_endsHeld ?_
  split
  · exact .of_perm rfl
  · split
    · exact .of_perm rfl
    · split
      · exact .of_perm rfl
      · split
        · exact .trans (.of_perm (s.dev.decide_perm _ _ agree)) (Dev.heldIn_settle _)
        · split <;> exact .of_perm rfl

theorem execFaultRecord_endsHeld (e : FaultEvent) : EndsHeld (execFaultRecord e s) s := by
  refine guarded_endsHeld (endsHeld_setDev rfl ?_)
  exact .trans (e := s.dev.struck e.upsets) (.of_perm (s.dev.struck_perm _)) ((Dev.heldIn_withHw _ _).trans (Dev.heldIn_settle _))

end

/-! ### Commands and steps -/

/-- Every command keeps what the fuses hold. Nine act on the device as a whole, and a fault record after the upsets that it brings;
five check their operands first; those of the long list may tell the device to change a fuse; every other acts on the hardware
alone. -/
theorem exec_endsHeld (c : Instr) (s : State) : EndsHeld (exec c s) s := by
  cases c with
  | gmodeWrite n g v agree => exact execGmodeWrite_endsHeld s n g v agree
  | txFrameStart p cond => exact execTxFrameStart_endsHeld s p cond
  | txFrameEnd p => exact execTxFrameEnd_endsHeld s p
  | secyFrameEnd p => exact execSecyFrameEnd_endsHeld s p
  | saBind p => exact execSaBind_endsHeld s p
  | keyImportDone => exact onDev_endsHeld (.of_perm s.dev.importDone_perm)
  | shadowRelease a => exact execShadowRelease_endsHeld s a
  | countersign n c agree => exact execCountersign_endsHeld s n c agree
  | powerOn => exact onDev_endsHeld (f := fun d => d.reset 0) (s.dev.heldIn_reset 0)
  | faultRecord e => exact execFaultRecord_endsHeld s e
  | earlyRelease | supplyAlarm | clockMonitorFault => 
    exact guarded_endsHeld (endsHeld_setDev rfl ((s.dev.heldIn_withHw _).trans (Dev.heldIn_settle _)))
  | hbmRequest | todInMessage => exact guarded_endsHeld (endsHeld_setDev rfl (s.dev.heldIn_withHw _))
  | allocRequest | cellArrival | reseqTimeout | keyErase | zeroize | keyScrub | rngHealthFail | linkDead | helloSend
  | helloRx | editionClose | edForceClose | twinRecordSend | parserAdmit | lastGaspSend | clerkInject | clerkDirect
  | fuseRevoke | fuseRaise | rxFrame | tailStatus | rxWatchdog | signalLoss | linkDown | localFault | remoteFault
  | portEnable | portDisable | collectorWatchdog | tenantFreeze | portFreeze | sliceFreeze | hold | slicePowerCmd
  | sliceTransitionDone | quiesceTimeout | laneTransitionDone | pwrFailN | thermalCritical | minuteMark | tbStep | tbSet
  | gclSwitch | gateEntryAdvance | ppsIn | ppsOut | resetN | glResetArm | glResetGo | i2cZeroize | i2cHold | i2cReset
  | jtagInstruction | clerkNanoWord | blockWord | writeWords | loadImage | registerWrite | sdRefclkLoss =>
    exact endsHeld_setDev rfl ((s.dev.heldIn_withHw _).trans (Dev.heldIn_settle _))
  | _ => exact endsHeld_setDev rfl (s.dev.heldIn_withHw _)

/-- Settles O56: a command keeps what the fuses hold, and a tick tells the device no more than a command does. -/
theorem fusesOnlyRise : Obligations.FusesOnlyRise := by
  intro s t hstep
  unfold step at hstep
  split at hstep
  · cases hstep
    exact (s.dev.heldIn_withHw _).trans (Dev.heldIn_settle _)
  · next c q _ => exact exec_endsHeld c (s.withPending q) t hstep

end Sys2Proof.Machine
end

section
/-! The clerks' control registers, stores and rings (R371 to R377): a command by the clerk's state, a store by whether its clerk is
open, a ring by whether R376 admits it. -/

namespace Sys2Proof.Machine

section
variable {h : Hw} {c : Nat}

/-! ### MC_CMD (R371, R423) -/

theorem Hw.clerkCmd_of_off (op : Nat) (hoff : h.clerkPower c = 0) : h.clerkCmd c op = h := if_pos hoff

section
variable (hon : h.clerkPower c ≠ 0)
include hon

theorem Hw.clerkCmd_halt_of_wait (hst : h.clerkState c = 2) :
    h.clerkCmd c 1 = (h.setClerk c (fun x => { x with ua := waitPoint })).setClerkState c 0 := by
  unfold Hw.clerkCmd
  simp only [hon, hst, if_false, if_true]

theorem Hw.clerkCmd_halt (hst : h.clerkState c ≠ 2) : h.clerkCmd c 1 = h.setClerkState c 0 := by
  unfold Hw.clerkCmd
  simp only [hon, hst, if_false]

theorem Hw.clerkCmd_start_of_halted (hst : h.clerkState c = 0) :
    h.clerkCmd c 2 = h.setClerkState c (if (h.clerk c).ua = waitPoint then 2 else 1) := by
  unfold Hw.clerkCmd
  simp only [hon, hst, Nat.zero_ne_one, show ¬(0 : Nat) = 2 by decide, or_self, if_false]

theorem Hw.clerkCmd_reset :
    h.clerkCmd c 3 =
      ((h.setClerk c (fun _ => { ClerkSt.reset with ua := h.rd .MC_ENTRY_entry c })).setClerkState c 1).watch := if_neg hon

end

/-! ### Stores (R374) -/

/-- A store is open to writes while its clerk is HALTED or in EXCEPTION. -/
def Hw.storeOpen (h : Hw) (c : Nat) : Bool := h.clerkState c == 0 || h.clerkState c == 3

/-- A write in the range of the microwords. -/
theorem Hw.clerkStore_of_microword {off v : Nat} (hlo : 0x10000 ≤ off) (hhi : off < 0x30000) :
    h.clerkStore off v =
      if h.storeOpen ((off - 0x10000) / 0x4000) && microCause v == 0 then h.setStore .MC_UW 0 0 ((off - 0x10000) / 8) v
      else h.storeRefused ((off - 0x10000) / 0x4000) := if_pos ⟨hlo, hhi⟩

/-! ### Rings (R376, R377) -/

theorem Hw.ringWrite_tx_of_ok {v : Nat} (hok : ringOk (bits v 39 6 * 64) (bits v 63 60) = true) :
    h.ringWrite c true v = (h.wr .MC_TXRING_log2_slots (bits v 63 60) c).wr .MC_TXRING_base (bits v 39 6 * 64) c := by
  unfold Hw.ringWrite
  simp only [hok, if_true]

theorem Hw.ringWrite_rx_of_ok {v : Nat} (hok : ringOk (bits v 39 6 * 64) (bits v 63 60) = true)
    (hstep : 7 * bits v 47 40 ≤ bits v 57 48) :
    h.ringWrite c false v =
      (((h.wr .MC_RXRING_log2_slots (bits v 63 60) c).wr .MC_RXRING_mirror_free (bits v 57 48) c).wr .MC_RXRING_step
        (bits v 47 40) c).wr .MC_RXRING_base (bits v 39 6 * 64) c := by
  unfold Hw.ringWrite
  simp only [hok, hstep, decide_true, Bool.or_true, Bool.and_self, Bool.false_eq_true, if_false, if_true]

theorem Hw.ringWrite_of_bad {v : Nat} (tx : Bool) (hbad : ringOk (bits v 39 6 * 64) (bits v 63 60) = false) :
    h.ringWrite c tx v = h.wr .MC_STATUS_ring_refused 1 := by
  unfold Hw.ringWrite
  cases tx <;> simp only [hbad, Bool.false_and, Bool.false_eq_true, if_false, if_true]

end

/-! ### The commands -/

section
variable {c : Clerk} {s : State} {h : Hw}

theorem exec_clerkHalt_eq (hf : s.hw.clerkCmd c 1 = h) : exec (.clerkHalt c) s = .next (s.setHw h) := by
  rw [exec_clerkHalt]
  exact onHw_eq hf

theorem exec_clerkStart_eq (hf : s.hw.clerkCmd c 2 = h) : exec (.clerkStart c) s = .next (s.setHw h) := by
  rw [exec_clerkStart]
  exact onHw_eq hf

theorem exec_clerkReset_eq (hf : s.hw.clerkCmd c 3 = h) : exec (.clerkReset c) s = .next (s.setHw h) := by
  rw [exec_clerkReset]
  exact onHw_eq hf

theorem exec_clerkStoreWrite_eq {off : BitVec 20} {v : Word} (h8 : off.toNat % 8 = 0)
    (hf : s.hw.clerkStore off.toNat v.toNat = h) : exec (.clerkStoreWrite off v) s = .next (s.setHw h) := by
  have hoff : off.toNat / 8 * 8 = off.toNat := Nat.div_mul_cancel (Nat.dvd_of_mod_eq_zero h8)
  rw [exec_clerkStoreWrite]
  refine onHw_eq ?_
  rw [hoff]
  exact hf

theorem exec_rxRingConfig_eq {tx : Bool} {v : Word} (hf : s.hw.ringWrite c tx v.toNat = h) :
    exec (.rxRingConfig c tx v) s = .next (s.setHw h) := by
  rw [exec_rxRingConfig]
  exact onHw_eq hf

end

/-- Settles O25: a command by the clerk's power and state, a store by whether it is open, a ring by whether it is admitted; waking,
kicking and the watchdog are one change each. -/
theorem clerkControl : Obligations.ClerkControl := by
  refine ⟨fun c s hoff => ?_, fun c s hon => ⟨fun hst => ?_, fun hst => ?_, fun hst => ?_, ?_⟩, fun c s hon hst hwake => ?_,
    fun c s => ⟨?_, fun ht => ?_, fun ht => ?_⟩, fun off v s hlo hhi h8 => ⟨fun hopen hok => ?_, fun h0 h3 => ?_⟩,
    fun c v s => ⟨fun hok => ?_, fun hok hstep => ?_, fun hbad => ?_⟩⟩
  · exact ⟨exec_clerkHalt_eq (Hw.clerkCmd_of_off 1 hoff), exec_clerkStart_eq (Hw.clerkCmd_of_off 2 hoff),
      exec_clerkReset_eq (Hw.clerkCmd_of_off 3 hoff)⟩
  · exact exec_clerkHalt_eq (Hw.clerkCmd_halt hon hst)
  · exact exec_clerkHalt_eq (Hw.clerkCmd_halt_of_wait hon hst)
  · exact exec_clerkStart_eq (Hw.clerkCmd_start_of_halted hon hst)
  · exact exec_clerkReset_eq (Hw.clerkCmd_reset hon)
  · rw [exec_clerkTaskWake]
    exact onHw_eq (if_pos ⟨hon, hst, hwake⟩)
  · rw [exec_clerkKick]
    exact onHw_next _ s
  · rw [exec_clerkWatchdog]
    exact onHw_stands (if_pos ht)
  · rw [exec_clerkWatchdog]
    exact onHw_eq (if_neg ht)
  · have hopen : s.hw.storeOpen ((off.toNat - 0x10000) / 0x4000) = true := by
      unfold Hw.storeOpen
      simpa using hopen
    refine exec_clerkStoreWrite_eq h8 ((Hw.clerkStore_of_microword hlo hhi).trans ?_)
    simp only [hopen, hok, beq_self_eq_true, Bool.and_self, if_true]
  · have hshut : s.hw.storeOpen ((off.toNat - 0x10000) / 0x4000) = false := by
      unfold Hw.storeOpen
      rw [beq_false_of_ne h0, beq_false_of_ne h3]
      rfl
    refine exec_clerkStoreWrite_eq h8 ((Hw.clerkStore_of_microword hlo hhi).trans ?_)
    simp only [hshut, Bool.false_and, Bool.false_eq_true, if_false]
    rfl
  · exact exec_rxRingConfig_eq (Hw.ringWrite_tx_of_ok hok)
  · exact exec_rxRingConfig_eq (Hw.ringWrite_rx_of_ok hok hstep)
  · exact ⟨exec_rxRingConfig_eq (Hw.ringWrite_of_bad true hbad), exec_rxRingConfig_eq (Hw.ringWrite_of_bad false hbad)⟩

end Sys2Proof.Machine
end

section
/-! The punt gate, the clerk path and the fuses' command (R375 to R387): an arrival by what the gate finds, a slot of a transmit ring
by what it holds, a fuse by who asks. -/

namespace Sys2Proof.Machine

/-! ### The punt gate (R375 to R378) -/

section
variable {h : Hw} {p : Punt}

theorem Hw.puntArrive_of_disabled (hoff : (h.count .MC_CNT_count 0).on .MC_CLASS_enable p.cls = false) :
    h.puntArrive p = (h.count .MC_CNT_count 0).puntDrop p 0x75 := by
  unfold Hw.puntArrive
  simp only [hoff, Bool.not_false, if_true]

/-- The gate's first step: the arrival counted and its token taken from its class's bucket. -/
def Hw.puntCharged (h : Hw) (p : Punt) : Hw :=
  let g := h.count .MC_CNT_count 0
  g.setBucket p.cls (g.lacking p.cls + unitsPerSecond, g.up)

/-- An arrival whose class is enabled, with a token and room in its clerk's ring. -/
theorem Hw.puntArrive_of_room (hon : (h.count .MC_CNT_count 0).on .MC_CLASS_enable p.cls = true)
    (htok : (h.count .MC_CNT_count 0).lacking p.cls + unitsPerSecond ≤
      (h.count .MC_CNT_count 0).rd .MC_CLASSB_burst p.cls * unitsPerSecond)
    (hring : (h.puntCharged p).rd .MC_RXRING_base ((h.puntCharged p).rd .MC_CLASS_clerk p.cls) ≠ 0)
    (hroom : (if (h.puntCharged p).on .MC_CLASS_kind p.cls then
        (h.puntCharged p).rd .MC_RXRING_mirror_free ((h.puntCharged p).rd .MC_CLASS_clerk p.cls)
      else (h.puntCharged p).rd .MC_RXRING_step ((h.puntCharged p).rd .MC_CLASS_clerk p.cls) *
        (7 - (h.puntCharged p).rd .MC_CLASS_priority p.cls)) <
      (h.puntCharged p).rxFree ((h.puntCharged p).rd .MC_CLASS_clerk p.cls)) :
    h.puntArrive p = (h.puntCharged p).puntEnter p ((h.puntCharged p).rd .MC_CLASS_clerk p.cls)
      ((h.puntCharged p).on .MC_CLASS_kind p.cls) := by
  unfold Hw.puntCharged at *
  unfold Hw.puntArrive
  simp only [hon, Bool.not_true, Bool.false_eq_true, if_false, Nat.not_lt.mpr htok, hring, Nat.not_le.mpr hroom, or_self]

end

section
variable {s : State} {p : Punt} {rest : List Punt} {h : Hw} (hnext : nextPunt [] s.hw.punts = some (p, rest))
include hnext

theorem exec_puntArrival_of_beyond (hno : s.hw.gateAccepts p.bytes.length = false) :
    exec .puntArrival s = .next (s.setHw (({ s.hw with punts := rest } : Hw).puntBeyond p)) := by
  rw [exec_puntArrival]
  refine onHw_eq ?_
  simp only [hnext]
  exact if_neg (Bool.eq_false_iff.mp hno)

theorem exec_puntArrival_of_accepted (hyes : s.hw.gateAccepts p.bytes.length = true)
    (hf : (({ s.hw with punts := rest } : Hw).gateTake p.bytes.length).puntArrive p = h) :
    exec .puntArrival s = .next (s.setHw h) := by
  rw [exec_puntArrival]
  refine onHw_eq ?_
  simp only [hnext]
  exact (if_pos hyes).trans hf

end

/-! ### The clerk path (R380 to R382) -/

section
variable {h : Hw} {c n pipe a : Nat} {t : TxSlot} {disagree : Bool} (hhead : h.txHead c = some (a, t))
include hhead

theorem Hw.clerkInject_of_invalid (hbad : h.txValid c t = false) (hmode : t.mode ≠ 1) :
    h.clerkInject c n pipe disagree = h.txSkip c := by
  unfold Hw.clerkInject
  simp only [hhead, hbad, hmode, Bool.not_false, if_true, if_false]

/-- A slot of mode 0 for a slice that takes frames, its pipeline's lane free. -/
theorem Hw.clerkInject_of_admitted (hok : h.txValid c t = true) (hmode : t.mode = 0) (hsl : portSl t.port = n)
    (hfrozen : h.sliceFrozen n = false) (hactive : h.inactive n = false) (hheld : h.held = false) (hadmits : h.admits n pipe = true) :
    h.clerkInject c n pipe disagree =
      (let d := h.load (a + 32) t.len
       let d := d ++ fcsOf d
       let f := ((((h.txNext c).count .MC_CNT_count 2).pmClerk c 0x0D).maskUse n [sliceWord]).fresh
       let h := f.2
       h.admitCarried n pipe ⟨t.tenant, tagCheck t.tenant h.current t.port h.now, h.current, 0, true, false, false, false,
         t.port, h.now, d.length, 0, 0⟩ d (some 0) (clerkInfo f.1) disagree) := by
  unfold Hw.clerkInject
  simp only [hhead, hok, hmode, hsl, hfrozen, hactive, hheld, hadmits, Bool.not_true, Bool.false_eq_true, ne_eq, not_true_eq_false,
    or_self, if_false]

end

/-- A clerk's performance events leave every register but the counters of its set. -/
theorem Hw.pmClerk_rd (h : Hw) (c ev n : Nat) {f : Fld} (hf : RegName.MC_PMCTR ≠ f.reg) (ix sl bank : Nat) :
    (h.pmClerk c ev n).rd f ix sl bank = h.rd f ix sl bank := by
  have hbump (k : Hw) (i m : Nat) : (k.pmBump true c i m).rd f ix sl bank = k.rd f ix sl bank := by
    unfold Hw.pmBump
    simp only [if_true]
    split <;> exact Hw.rd_setVal_other _ _ _ _ _ _ _ _ _ _ hf
  unfold Hw.pmClerk
  split
  · refine Hw.each_keeps (fun k => k.rd f ix sl bank = h.rd f ix sl bank) _ _ (fun k i hk => ?_) h rfl
    split
    · exact (hbump k i _).trans hk
    · exact hk
  · rfl

/-- A DIRECT slot taken: counted, and its frame new to the held count. -/
def Hw.directTaken (h : Hw) (c : Nat) : Hw := (((h.txNext c).count .MC_CNT_count 3).pmClerk c 0x0D).ledger 8 [] 1 1 0

/-- It leaves the slices' power states and commands alone. -/
theorem Hw.directTaken_rd (h : Hw) (c : Nat) {f : Fld} (hpm : RegName.MC_PMCTR ≠ f.reg) (hcnt : RegName.MC_CNT ≠ f.reg)
    (htx : RegName.MC_TXCONS ≠ f.reg) (ix : Nat) : (h.directTaken c).rd f ix = h.rd f ix := by
  unfold Hw.directTaken Hw.txNext
  rw [Hw.ledger_rd, Hw.pmClerk_rd _ _ _ _ hpm, Hw.rd_count_other _ _ _ _ _ _ _ _ _ hcnt, Hw.rd_wr_other _ _ _ _ _ _ _ _ _ _ htx]

theorem Hw.directTaken_inactive (h : Hw) (c n : Nat) : (h.directTaken c).inactive n = h.inactive n := by
  unfold Hw.inactive Hw.slicePower Hw.on
  simp only [Hw.directTaken_rd h c (f := .PW_SLICESTAT_state) (by decide) (by decide) (by decide),
    Hw.directTaken_rd h c (f := .PW_SLICECMD_busy) (by decide) (by decide) (by decide),
    Hw.directTaken_rd h c (f := .PW_SLICECMD_state) (by decide) (by decide) (by decide)]

/-- A DIRECT slot for a slice that is ACTIVE: its frame meets its queue whole. -/
theorem Hw.clerkDirect_of_active {h : Hw} {c a : Nat} {t : TxSlot} (hhead : h.txHead c = some (a, t)) (hok : h.txValid c t = true)
    (hmode : t.mode = 1) (hactive : h.inactive (portSl t.port) = false) :
    h.clerkDirect c =
      (let d := h.load (a + 32) t.len
       let d := d ++ fcsOf d
       let f := (h.directTaken c).fresh
       let h := f.2
       let g := h.arrive (portSl t.port) (8, 15, portSl t.port) (directMd t h.current h.now d.length) (clerkInfo f.1) d c
       match g.2.landing? g.1 with
       | some l => (g.2.setLanding { l with tail := some 0 }).writeLanding g.1
       | none => g.2) := by
  have htaken := h.directTaken_inactive c (portSl t.port)
  rw [hactive] at htaken
  unfold Hw.directTaken at htaken
  unfold Hw.clerkDirect
  simp only [hhead, hok, hmode, htaken, Bool.not_true, Bool.false_and, Bool.false_eq_true, ne_eq, not_true_eq_false, if_false]
  rfl

/-! ### Fuses (R387) -/

section
variable {h : Hw} {v : Nat} (hgo : bit v 63 = true) (hclear : bit v 61 = false)
include hgo hclear

theorem Hw.fuseCmd_of_other {o : Originator} (ho : o ≠ .clerk 0) (hop : bits v 57 56 = 1 ∨ bits v 57 56 = 2) :
    h.fuseCmd o v = h.wr .MC_FUSECMD_refused 1 := by
  have hlisted : ¬(bits v 57 56 = 0 ∨ bits v 57 56 = 3) := by omega
  unfold Hw.fuseCmd
  simp only [hlisted, hclear, hgo, ho, ne_eq, not_false_eq_true, true_or, Bool.not_true, Bool.false_eq_true, if_false, if_true]

variable (hlock : h.on .MC_CTRL_priv_lock = false)
include hlock

theorem Hw.fuseCmd_of_revoke (hop : bits v 57 56 = 1) (harg : bits v 5 0 ≤ 3) (hkey : bits v 5 0 ≠ h.rd .MC_BOOT_key) :
    h.fuseCmd (.clerk 0) v = (h.setBit .MC_FUSE_revoked (bits v 5 0)).note (.revoke (bits v 5 0)) := by
  have hother : ¬(3 < bits v 5 0 ∨ bits v 5 0 = h.rd .MC_BOOT_key) := by omega
  unfold Hw.fuseCmd
  simp only [show ¬((1 : Nat) = 0 ∨ (1 : Nat) = 3) by decide, hclear, hgo, hlock, hop, hother, ne_eq, not_true_eq_false,
    Bool.not_true, Bool.false_eq_true, or_self,
    if_false, if_true]

theorem Hw.fuseCmd_of_raise (hop : bits v 57 56 = 2) (hver : h.rd .MC_FUSE_min_version < bits v 5 0) :
    h.fuseCmd (.clerk 0) v = (h.wr .MC_FUSE_min_version (bits v 5 0)).note (.raiseVersion (bits v 5 0)) := by
  unfold Hw.fuseCmd
  simp only [show ¬((2 : Nat) = 0 ∨ (2 : Nat) = 3) by decide, show ¬(2 : Nat) = 1 by decide, hclear, hgo, hlock, hop,
    Nat.not_le.mpr hver, ne_eq, not_true_eq_false, Bool.not_true, Bool.false_eq_true, or_self, if_false]

end

/-! ### The commands -/

section
variable {s : State} {h : Hw} {v : Word} {o : Originator}

theorem exec_clerkInject_eq {c : Clerk} {n : Slice} {pipe : Fin 9} {disagree : Bool} (hf : s.hw.clerkInject c n pipe disagree = h) :
    exec (.clerkInject c n ⟨pipe, disagree⟩) s = .next (s.setHw h).settle := by
  rw [exec_clerkInject]
  exact onTx_eq hf

theorem exec_fuseRevoke_eq (hop : bits v.toNat 57 56 = 1) (hf : s.hw.fuseCmd o v.toNat = h) :
    exec (.fuseRevoke o v) s = .next (s.setHw h).settle := by
  rw [exec_fuseRevoke]
  exact onTx_eq ((if_pos hop).trans hf)

theorem exec_fuseRaise_eq (hop : bits v.toNat 57 56 = 2) (hf : s.hw.fuseCmd o v.toNat = h) :
    exec (.fuseRaise o v) s = .next (s.setHw h).settle := by
  rw [exec_fuseRaise]
  exact onTx_eq ((if_pos hop).trans hf)

end

/-- Settles O27: an arrival by the gate and its class, the head of a transmit ring by its validity and mode, a fuse by who asks. -/
theorem clerkPaths : Obligations.ClerkPaths := by
  refine ⟨fun p rest s hnext => ⟨exec_puntArrival_of_beyond hnext, fun hyes hoff => ?_, fun hyes hon htok hring hroom => ?_⟩,
    fun c n pipe a t disagree s hhead => ⟨fun hok hmode hsl hfrozen hactive hheld hadmits => ?_, fun hbad hmode => ?_,
      fun hok hmode hactive => ?_⟩,
    fun v s hgo hclear => ⟨fun hop hlock harg hkey => ?_, fun hop hlock hver => ?_, fun o ho => ⟨fun hop => ?_, fun hop => ?_⟩⟩⟩
  · exact exec_puntArrival_of_accepted hnext hyes (Hw.puntArrive_of_disabled hoff)
  · exact exec_puntArrival_of_accepted hnext hyes (Hw.puntArrive_of_room hon htok hring hroom)
  · exact exec_clerkInject_eq (Hw.clerkInject_of_admitted hhead hok hmode hsl hfrozen hactive hheld hadmits)
  · exact exec_clerkInject_eq (Hw.clerkInject_of_invalid hhead hbad hmode)
  · rw [exec_clerkDirect]
    exact onTx_eq (Hw.clerkDirect_of_active hhead hok hmode hactive)
  · exact exec_fuseRevoke_eq hop (Hw.fuseCmd_of_revoke hgo hclear hlock hop harg hkey)
  · exact exec_fuseRaise_eq hop (Hw.fuseCmd_of_raise hgo hclear hlock hop hver)
  · exact exec_fuseRevoke_eq hop (Hw.fuseCmd_of_other hgo hclear ho (Or.inl hop))
  · exact exec_fuseRaise_eq hop (Hw.fuseCmd_of_other hgo hclear ho (Or.inr hop))

end Sys2Proof.Machine
end

section
/-! Boot (R383 to R388): the straps, and what becomes of the source at the head of the order. -/

namespace Sys2Proof.Machine

section
variable {h : Hw} {src : Nat}

/-- A source that failed to read (result 2) is left. -/
theorem Hw.bootTry_none : h.bootTry src none = (h.bootResult src 2).raise 0xE01 8 := rfl

/-- An image judged 1 is the source, and is loaded; any other result is recorded alone. -/
theorem Hw.bootTry_some (d : List Byte) : h.bootTry src (some d) =
    if h.bootJudge d = 1 then
      let k := h.bootResult src 1
      (({ k with io := { k.io with sources := [] } } : Hw).wr .MC_BOOT_source src).bootLoad d
    else (h.bootResult src (h.bootJudge d)).raise 0xE01 8 := by
  unfold Hw.bootTry
  by_cases hj : h.bootJudge d = 1
  · simp only [hj, if_true]
  · simp only [hj, if_false]

end

section
variable {s : State}

theorem exec_bootStart_of_begun {straps : Fin 4} (hno : s.hw.io.rom = true ∨ s.hw.romServes = false) :
    exec (.bootStart straps) s = .next s := by
  rw [exec_bootStart]
  refine onHw_stands (if_pos ?_)
  rcases hno with hrom | hserves
  · rw [hrom, Bool.true_or]
  · rw [hserves, Bool.not_false, Bool.or_true]

theorem exec_bootStart_of_first {straps : Fin 4} (hrom : s.hw.io.rom = false) (hserves : s.hw.romServes = true) :
    exec (.bootStart straps) s = .next (s.setHw
      (let h : Hw := { s.hw with io := { s.hw.io with rom := true, sources := bootOrder straps } }
       let h := ((h.wr .GL_STRAPS_boot_src straps).setVal .MC_BOOT 0).wr .MC_STATUS_state 0
       let h := h.each 8 (fun h n => h.wr .SD_REFSTAT_present 7 0 n)
       if straps = 3 then h.bootRecovery else h)) := by
  rw [exec_bootStart]
  refine onHw_eq (if_neg ?_)
  rw [hrom, hserves]
  exact Bool.false_ne_true

theorem exec_bootSourceDone_of_host {image : Option (List Byte)} {rest : List Nat}
    (hs : s.hw.io.sources = [] ∨ s.hw.io.sources = 2 :: rest) : exec (.bootSourceDone image) s = .next s := by
  rw [exec_bootSourceDone]
  refine onHw_stands ?_
  rcases hs with hs | hs
  · simp only [hs]
  · simp only [hs, if_true]

theorem exec_bootSourceDone_of_flash {image : Option (List Byte)} {rest : List Nat} {src : Nat} {h : Hw}
    (hs : s.hw.io.sources = src :: rest) (h2 : src ≠ 2)
    (hf : (match image with
      | some d => ({ s.hw with io := { s.hw.io with sources := rest } } : Hw).store bootArea (d.take bootAreaSize)
      | none => { s.hw with io := { s.hw.io with sources := rest } }).bootTry src image = h) :
    exec (.bootSourceDone image) s = .next (s.setHw h) := by
  rw [exec_bootSourceDone]
  refine onHw_eq ?_
  simp only [hs, if_neg h2]
  exact hf

end

/-- Settles O28: the start once and no more, the head of the order by what it is, and an image by how it is judged. -/
theorem bootSources : Obligations.BootSources := by
  refine ⟨fun straps s => ⟨exec_bootStart_of_begun, exec_bootStart_of_first⟩, fun image rest s => exec_bootSourceDone_of_host,
    fun src rest s hs h2 => ⟨?_, fun d => ?_⟩⟩
  · exact exec_bootSourceDone_of_flash (image := none) hs h2 Hw.bootTry_none
  · exact exec_bootSourceDone_of_flash (image := some d) hs h2 (Hw.bootTry_some d)

end Sys2Proof.Machine
end

section
/-! The transmit window (R392 to R397): a word pushed, a slip judged, lost or resynchronised. -/

namespace Sys2Proof.Machine

section
variable {h : Hw}

/-! ### The transmit FIFO (R393) -/

theorem Hw.txPush_of_discard (v : Word) (hst : h.rd .TW_HSTATUS_state = 2) : h.txPush v = h.twCount 4 := if_pos hst

theorem Hw.txPush_of_full (v : Word) (hst : h.rd .TW_HSTATUS_state ≠ 2) (hfull : h.txFree = 0) :
    h.txPush v = (((h.wr .TW_HSTATUS_tx_overflow 1).raise 0xD03 8).twCount 6).dropUnjudged.lose false 6 0
      (h.rd .TW_HSTATUS_expect_seq) := by
  unfold Hw.txPush
  simp only [hst, hfull, if_false, if_true]

theorem Hw.txPush_of_room (v : Word) (hst : h.rd .TW_HSTATUS_state ≠ 2) (hroom : h.txFree ≠ 0) :
    h.txPush v = (h.setTw (fun t => { t with fifo := t.fifo ++ [v] })).assemble := by
  unfold Hw.txPush
  simp only [hst, hroom, if_false]

/-! ### A slip judged (R395, R396, R399) -/

/-- The sequence number of the slip in turn. -/
def Hw.slipSeq (h : Hw) : Nat := bits (nth h.tw.slip 0 0#64).toNat 31 0
/-- The slip in turn passes its check. -/
def Hw.slipPasses (h : Hw) : Prop :=
  slipCheck 0 h.slipSeq h.tw.slip.dropLast = bits (h.tw.slip.getLastD 0#64).toNat 31 0
/-- The window READY again, unless it is in DISCARD. -/
def Hw.slipReady (h : Hw) : Hw := if h.rd .TW_HSTATUS_state = 2 then h else h.wr .TW_HSTATUS_state 0
/-- A slip that passes its check and comes in turn: its number is consumed, and it is counted. -/
def Hw.slipTaken (h : Hw) : Hw :=
  (h.slipReady.wr .TW_HSTATUS_expect_seq (h.rd .TW_HSTATUS_expect_seq + 1)).twCount 0

theorem Hw.judgeSlip_of_bad_check (hc : ¬h.slipPasses) :
    h.judgeSlip = ((h.raise 0xD01 8).twCount 1).loseSlip 1 h.slipSeq (h.rd .TW_HSTATUS_expect_seq) := if_pos hc

theorem Hw.slipReady_tw (h : Hw) : h.slipReady.tw = h.tw := by
  unfold Hw.slipReady
  rw [apply_ite Hw.tw, Hw.wr_tw, ite_self]

theorem Hw.slipTaken_tw (h : Hw) : h.slipTaken.tw = h.tw := h.slipReady_tw

theorem Hw.slipTaken_romServes (h : Hw) : h.slipTaken.romServes = h.romServes := by
  have hready : h.slipReady.rd .TW_HSTATUS_phase = h.rd .TW_HSTATUS_phase := by
    unfold Hw.slipReady
    split
    · rfl
    · exact Hw.rd_wr_beside _ _ _ _ _ _ _ _ _ _ (by decide) (by decide) (by decide)
  unfold Hw.romServes Hw.slipTaken Hw.twCount
  rw [Hw.rd_count_other _ _ _ _ _ _ _ _ _ (by decide), Hw.rd_wr_beside _ _ _ _ _ _ _ _ _ _ (by decide) (by decide) (by decide),
    hready]

section
variable (hc : h.slipPasses)
include hc

theorem Hw.judgeSlip_of_bad_seq (hseq : h.slipSeq ≠ h.rd .TW_HSTATUS_expect_seq) :
    h.judgeSlip = (h.slipReady.twCount 2).replyError 2 (h.rd .TW_HSTATUS_expect_seq) := by
  unfold Hw.slipPasses Hw.slipSeq at hc
  unfold Hw.slipSeq at hseq
  unfold Hw.judgeSlip
  simp only [hc, hseq, ne_eq, not_true_eq_false, not_false_eq_true, if_false, if_true]
  rfl

theorem Hw.judgeSlip_of_served (hseq : h.slipSeq = h.rd .TW_HSTATUS_expect_seq) (hres : slipReserved h.tw.slip = false)
    (hserved : h.romServes = false ∨ h.slipOp = 1 ∨ h.slipOp = 5) :
    h.judgeSlip = h.slipTaken.setTw (fun t => { t with phase := SlipPhase.execute }) := by
  have hop : h.slipTaken.slipOp = h.slipOp := by
    unfold Hw.slipOp
    rw [h.slipTaken_tw]
  have hserves : ¬(h.slipTaken.romServes = true ∧ h.slipTaken.slipOp ≠ 1 ∧ h.slipTaken.slipOp ≠ 5) := by
    rw [h.slipTaken_romServes, hop]
    rintro ⟨hrom, h1, h5⟩
    rcases hserved with hs | hs | hs
    · exact Bool.false_ne_true (hs.symm.trans hrom)
    · exact h1 hs
    · exact h5 hs
  unfold Hw.slipPasses at hc
  unfold Hw.slipSeq at hc hseq
  rw [hseq] at hc
  unfold Hw.slipTaken Hw.slipReady at hserves ⊢
  unfold Hw.judgeSlip
  simp only [hc, hseq, hserves, hres, ne_eq, not_true_eq_false, Bool.false_eq_true, if_false]

end

/-! ### A slip lost, and RESYNC (R397) -/

theorem Hw.setTw_congr {f g : TellerSt → TellerSt} (hfg : f h.tw = g h.tw) : h.setTw f = h.setTw g := by
  unfold Hw.setTw
  rw [hfg]

theorem Hw.resync_of_none (hp : h.tw.phase = .none) :
    h.resync = (h.setTw (fun t => { t with fifo := [], slip := [], emptied := false })).wr .TW_HSTATUS_state 0 := by
  unfold Hw.resync
  rw [Hw.setTw_congr (g := fun t => { t with fifo := [], slip := [], emptied := false })]
  simp only [hp]
  rfl

theorem Hw.resync_of_slip (hp : h.tw.phase ≠ .none) :
    h.resync = (h.setTw (fun t => { t with fifo := [], emptied := true })).wr .TW_HSTATUS_state 0 := by
  unfold Hw.resync
  rw [Hw.setTw_congr (g := fun t => { t with fifo := [], emptied := true })]
  simp only [beq_false_of_ne hp, bne, Bool.not_false, Bool.false_eq_true, if_false]

end

/-! ### The commands -/

section
variable {s : State} {h : Hw}

theorem exec_txwinPush_eq {v : Word} (hf : s.hw.txPush v = h) : exec (.txwinPush v) s = .next (s.setHw h) := by
  rw [exec_txwinPush]
  exact onHw_eq hf

theorem exec_slipComplete_of_other (hp : s.hw.tw.phase ≠ .complete) : exec .slipComplete s = .next s := by
  rw [exec_slipComplete]
  refine onHw_stands (if_neg ?_)
  rw [beq_false_of_ne hp]
  exact Bool.false_ne_true

theorem exec_slipComplete_eq (hp : s.hw.tw.phase = .complete) (hf : s.hw.judgeSlip = h) :
    exec .slipComplete s = .next (s.setHw h) := by
  rw [exec_slipComplete]
  exact onHw_eq ((if_pos (beq_iff_eq.mpr hp)).trans hf)

theorem exec_slipIdleTimeout_of_assembly (hp : s.hw.tw.phase = .none) (hst : s.hw.rd .TW_HSTATUS_state = 1) :
    exec .slipIdleTimeout s = .next (s.setHw (((s.hw.raise 0xD02 8).twCount 3).loseSlip 5 s.hw.slipSeq
      ((s.hw.tw.slip.length <<< 32) + s.hw.rd .TW_HSTATUS_expect_seq))) := by
  rw [exec_slipIdleTimeout]
  refine onHw_eq (if_neg ?_)
  rw [hp, hst]
  decide

theorem exec_resync_eq (hf : s.hw.resync = h) : exec .resync s = .next (s.setHw h) := by
  rw [exec_resync]
  exact onHw_eq hf

end

/-- Settles O29: a word by where the window stands, a slip by its check, its number and its form, RESYNC by whether a slip is in
turn. -/
theorem slipTransport : Obligations.SlipTransport := by
  refine ⟨fun v s => ⟨fun hst => exec_txwinPush_eq (Hw.txPush_of_discard v hst),
      fun hst hfull => exec_txwinPush_eq (Hw.txPush_of_full v hst hfull),
      fun hst hroom => exec_txwinPush_eq (Hw.txPush_of_room v hst hroom)⟩,
    fun s => exec_slipComplete_of_other,
    fun s hp => ⟨fun hc => exec_slipComplete_eq hp (Hw.judgeSlip_of_bad_check hc),
      fun hc hseq => exec_slipComplete_eq hp (Hw.judgeSlip_of_bad_seq hc hseq), fun hc hseq hres hserved => ?_⟩,
    fun s => exec_slipIdleTimeout_of_assembly, fun s hp => exec_resync_eq (Hw.resync_of_none hp),
    fun s hp => exec_resync_eq (Hw.resync_of_slip hp), fun s => ?_⟩
  · refine ⟨_, exec_slipComplete_eq hp (Hw.judgeSlip_of_served hc hseq hres hserved), ?_, s.sameOutside_setHw _⟩
    exact congrArg (fun t : TellerSt => { t with phase := SlipPhase.execute }) s.hw.slipTaken_tw
  · rw [exec_hostBadAccess]
    exact onHw_next _ s

end Sys2Proof.Machine
end

section
/-! The opcodes of slips (R399 to R404): what each does by what it finds, and how it is answered. -/

namespace Sys2Proof.Machine

section
variable {h : Hw}

/-! ### The slip in turn -/

/-- A slip that executes does not wait, and the other way round. -/
theorem Hw.executing_of_other_phase (op : Nat) (hp : h.tw.phase ≠ .execute) : h.executing op = false := by
  unfold Hw.executing
  rw [beq_false_of_ne hp, Bool.false_and]

theorem Hw.waiting_of_slotWait {op : Nat} (hw : h.slotWait op = true) : h.tw.phase = .waiting :=
  beq_iff_eq.mp (Bool.and_eq_true_iff.mp hw).1

/-! ### Deposits (R402) -/

/-- The slip's words deposited in the next slot of a clerk's request ring. -/
def Hw.deposited (h : Hw) (c : Nat) : Hw :=
  (((h.store (h.rd .TW_REQRING_base c + 0x8000 * (h.rd .TW_REQPROD_prod c % 2 ^ h.rd .TW_REQRING_log2_slots c))
    (h.tw.slip.flatMap (fun w => leBytes 8 w.toNat))).wr .TW_REQPROD_prod (h.rd .TW_REQPROD_prod c + 1) c).kick c).endSlip

theorem Hw.place402_of_full {c : Nat} (hfull : h.ringFull c = true) :
    h.place402 c = h.setTw (fun t => { t with phase := SlipPhase.waiting }) := if_pos hfull

theorem Hw.place402_of_room {c : Nat} (hroom : h.ringFull c = false) : h.place402 c = h.deposited c :=
  if_neg (Bool.eq_false_iff.mp hroom)

theorem Hw.deposit_of_down {c : Nat} (hdown : h.clerkState c = 0 ∨ h.clerkState c = 3) : h.deposit c = h.replyError 12 c := by
  refine if_pos ?_
  rcases hdown with hst | hst
  · exact Or.inl hst
  · exact Or.inr (Or.inl hst)

theorem Hw.deposit_of_running {c : Nat} (h0 : h.clerkState c ≠ 0) (h3 : h.clerkState c ≠ 3) (hring : h.rd .TW_REQRING_base c ≠ 0) :
    h.deposit c = h.place402 c := by
  refine if_neg ?_
  rintro (hst | hst | hst)
  · exact h0 hst
  · exact h3 hst
  · exact hring hst

/-! ### LOAD_IMAGE (R403) -/

/-- The area in which an image is staged. -/
def Hw.imageBase (h : Hw) : Nat := if h.romServes then bootArea else h.rd .TW_IMGBASE_base
/-- The size of that area. -/
def Hw.imageSize (h : Hw) : Nat := if h.romServes then bootAreaSize else 2 ^ 27
/-- The slip's words staged at their offset. -/
def Hw.imageStaged (h : Hw) : Option Nat × Hw := h.stage (h.imageBase + 8 * bits h.slipParam 23 0) 0 h.slipPayload

section
variable (hbase : h.imageBase ≠ 0)
include hbase

theorem Hw.loadImage_of_beyond (hlen : h.imageSize / 8 < bits h.slipParam 23 0 + h.slipPayload.length) :
    h.loadImage = h.replyError 15 0 :=
  (if_neg hbase).trans (if_pos hlen)

theorem Hw.loadImage_of_staged (hlen : bits h.slipParam 23 0 + h.slipPayload.length ≤ h.imageSize / 8)
    (hok : h.imageStaged.1 = none) (hmore : bit h.imageStaged.2.slipParam 47 = false) : h.loadImage = h.imageStaged.2.done := by
  have hst : h.imageStaged = (none, h.imageStaged.2) := by rw [← hok]
  refine (if_neg hbase).trans ((if_neg (Nat.not_lt.mpr hlen)).trans ?_)
  generalize h.imageStaged.2 = k at hst hmore
  unfold Hw.imageStaged Hw.imageBase at hst
  simp only [hst, hmore, Bool.not_false, if_true]

end

/-! ### IMPORT_KEY (R404) -/

/-- The import registers as IMPORT_KEY loads them. -/
def Hw.importLoaded (h : Hw) : Hw :=
  (h.setVal .CX_IMPORT_PN (nth h.slipPayload 0 0#64).toNat).each 17 (fun k w =>
    k.setVal .CX_IMPORT_BUF (nth h.slipPayload (w + 1) 0#64).toNat w)

theorem Hw.importLoaded_tw (h : Hw) : h.importLoaded.tw = h.tw :=
  Hw.each_keeps (fun k => k.tw = h.tw) 17 (fun k w => k.setVal .CX_IMPORT_BUF (nth h.slipPayload (w + 1) 0#64).toNat w)
    (fun _ _ hk => hk) _ rfl

theorem Hw.importLoaded_slipParam (h : Hw) : h.importLoaded.slipParam = h.slipParam := by
  unfold Hw.slipParam
  rw [h.importLoaded_tw]

end

/-! ### The commands -/

section
variable {s : State} {h : Hw}

theorem exec_echo_of_executing (he : s.hw.executing 1 = true) :
    exec .echo s = .next (s.setHw (s.hw.reply 3 0 s.hw.slipPayload)) := by
  rw [exec_echo]
  exact onHw_eq (if_pos he)

section
variable (he : s.hw.executing 2 = true)
include he

theorem exec_writeWords_of_misaligned (ha : bits s.hw.slipParam 39 0 % 8 ≠ 0) :
    exec .writeWords s = .next (s.setHw (s.hw.replyError 9 0)).settle := by
  rw [exec_writeWords]
  refine onTx_eq ?_
  simp only [he, ha, Bool.not_true, Bool.false_eq_true, ne_eq, not_false_eq_true, if_false, if_true]

variable (ha : bits s.hw.slipParam 39 0 % 8 = 0)
include ha

theorem exec_writeWords_of_success (hw : (s.hw.hostWrite (bits s.hw.slipParam 39 0) 0 s.hw.slipPayload) = (none, h)) :
    exec .writeWords s = .next (s.setHw h.done.watch).settle := by
  rw [exec_writeWords]
  refine onTx_eq ?_
  simp only [he, ha, hw, Bool.not_true, Bool.false_eq_true, ne_eq, not_true_eq_false, if_false]

theorem exec_writeWords_of_failure {k st : Nat}
    (hw : (s.hw.hostWrite (bits s.hw.slipParam 39 0) 0 s.hw.slipPayload) = (some (k, st), h)) :
    exec .writeWords s = .next (s.setHw (h.replyError st k).watch).settle := by
  rw [exec_writeWords]
  refine onTx_eq ?_
  simp only [he, ha, hw, Bool.not_true, Bool.false_eq_true, ne_eq, not_true_eq_false, if_false]

end

/-- The count of READ_WORDS: bits [52:40] of word 1 (log entry 33). -/
def Hw.readCount (h : Hw) : Nat := bits (nth h.tw.slip 1 0#64).toNat 52 40

section
variable (he : s.hw.executing 3 = true)
include he

theorem exec_readWords_of_bad_count (hn : s.hw.readCount = 0 ∨ 4093 < s.hw.readCount) :
    exec .readWords s = .next (s.setHw (s.hw.replyError 15 0)) := by
  unfold Hw.readCount at hn
  rw [exec_readWords]
  refine onHw_eq ?_
  simp only [he, hn, Bool.not_true, Bool.false_eq_true, if_false, if_true]

variable (h0 : s.hw.readCount ≠ 0) (hmax : s.hw.readCount ≤ 4093)
include h0 hmax

theorem exec_readWords_of_misaligned (ha : bits s.hw.slipParam 39 0 % 8 ≠ 0) :
    exec .readWords s = .next (s.setHw (s.hw.replyError 9 0)) := by
  unfold Hw.readCount at h0 hmax
  rw [exec_readWords]
  refine onHw_eq ?_
  simp only [he, h0, Nat.not_lt.mpr hmax, ha, Bool.not_true, Bool.false_eq_true, or_self, ne_eq, not_false_eq_true, if_false,
    if_true]

theorem exec_readWords_of_read {ws : List Word} (ha : bits s.hw.slipParam 39 0 % 8 = 0)
    (hr : s.hw.hostRead (bits s.hw.slipParam 39 0) 0 s.hw.readCount = (.ok ws, h)) :
    exec .readWords s = .next (s.setHw (h.reply 3 0 ws).watch) := by
  unfold Hw.readCount at h0 hmax hr
  rw [exec_readWords]
  refine onHw_eq ?_
  simp only [he, h0, Nat.not_lt.mpr hmax, ha, hr, Bool.not_true, Bool.false_eq_true, or_self, ne_eq, not_true_eq_false, if_false]

end

theorem exec_runProgram_of_executing (he : s.hw.executing 4 = true) (hf : s.hw.deposit (bits s.hw.slipParam 42 40) = h) :
    exec .runProgram s = .next (s.setHw h) := by
  rw [exec_runProgram]
  exact onHw_eq ((if_pos he).trans hf)

section
variable (hw : s.hw.slotWait 4 = true)
include hw

theorem exec_runProgram_of_waiting (hf : s.hw.place402 (bits s.hw.slipParam 42 40) = h) :
    exec .runProgram s = .next (s.setHw h) := by
  have he : s.hw.executing 4 = false := Hw.executing_of_other_phase 4 (by rw [Hw.waiting_of_slotWait hw]; decide)
  rw [exec_runProgram]
  exact onHw_eq ((if_neg (Bool.eq_false_iff.mp he)).trans ((if_pos hw).trans hf))

theorem Hw.depositClerk_of_waiting : s.hw.depositClerk = some (bits s.hw.slipParam 42 40) := if_pos hw

theorem exec_clerkBusy_of_full (hfull : s.hw.ringFull (bits s.hw.slipParam 42 40) = true) :
    exec .clerkBusy s = .next (s.setHw (s.hw.replyError 13 (bits s.hw.slipParam 42 40))) := by
  rw [exec_clerkBusy]
  refine onHw_eq ?_
  simp only [Hw.depositClerk_of_waiting hw, hfull, if_true]

theorem exec_clerkBusy_of_room (hroom : s.hw.ringFull (bits s.hw.slipParam 42 40) = false) : exec .clerkBusy s = .next s := by
  rw [exec_clerkBusy]
  refine onHw_stands ?_
  simp only [Hw.depositClerk_of_waiting hw, hroom, Bool.false_eq_true, if_false]

end

theorem exec_loadImage_of_executing (he : s.hw.executing 5 = true) (hf : s.hw.loadImage = h) :
    exec .loadImage s = .next (s.setHw h).settle := by
  rw [exec_loadImage]
  exact onTx_eq ((if_pos he).trans hf)

section
variable (hb : s.hw.on .CX_IMPORT_CMD_busy = false)
include hb

theorem exec_importKey_of_executing (he : s.hw.executing 6 = true) :
    exec .importKey s = .next (s.setHw ((s.hw.importLoaded.importStart (2 ^ 63 + (s.hw.slipParam <<< 32))).setTw
      (fun t => { t with phase := .importing }))) := by
  rw [exec_importKey]
  refine onHw_eq ((if_neg (Bool.eq_false_iff.mp hb)).trans ((if_pos he).trans ?_))
  rw [← s.hw.importLoaded_slipParam]
  rfl

theorem exec_importKey_of_importing (hp : s.hw.tw.phase = .importing) :
    exec .importKey s = .next (s.setHw (s.hw.reply 1 0 [BitVec.ofNat 64 (s.hw.view .CX_IMPORT_STATUS 0 0)])) := by
  have he : s.hw.executing 6 = false := Hw.executing_of_other_phase 6 (by rw [hp]; decide)
  rw [exec_importKey]
  exact onHw_eq ((if_neg (Bool.eq_false_iff.mp hb)).trans ((if_neg (Bool.eq_false_iff.mp he)).trans (if_pos (beq_iff_eq.mpr hp))))

end

end

/-- Settles O30: each opcode by the lemma for what its slip finds. -/
theorem slipOpcodes : Obligations.SlipOpcodes := by
  refine ⟨fun s => exec_echo_of_executing,
    fun s he => ⟨exec_writeWords_of_misaligned he, fun ha hw => exec_writeWords_of_success he ha (Prod.ext hw rfl),
      fun k st ha hw => exec_writeWords_of_failure he ha (Prod.ext hw rfl)⟩,
    fun s he => ⟨exec_readWords_of_bad_count he, exec_readWords_of_misaligned he,
      fun ws h h0 hmax ha hr => exec_readWords_of_read he h0 hmax ha hr⟩,
    fun s he => ⟨fun hdown => exec_runProgram_of_executing he (Hw.deposit_of_down hdown), fun h0 h3 hring hroom => ?_,
      fun h0 h3 hring hfull => ?_⟩,
    fun s hw => ⟨fun hfull => ⟨exec_clerkBusy_of_full hw hfull, exec_runProgram_of_waiting hw (Hw.place402_of_full hfull)⟩,
      fun hroom => ⟨exec_clerkBusy_of_room hw hroom, exec_runProgram_of_waiting hw (Hw.place402_of_room hroom)⟩⟩,
    fun s he hbase => ⟨fun hlen => exec_loadImage_of_executing he (Hw.loadImage_of_beyond hbase hlen),
      fun hlen hok hmore => exec_loadImage_of_executing he (Hw.loadImage_of_staged hbase hlen hok hmore)⟩,
    fun s hb => ⟨exec_importKey_of_executing hb, exec_importKey_of_importing hb⟩⟩
  · exact exec_runProgram_of_executing he
      ((Hw.deposit_of_running h0 h3 hring).trans (Hw.place402_of_room (decide_eq_false (Nat.not_le.mpr hroom))))
  · exact exec_runProgram_of_executing he
      ((Hw.deposit_of_running h0 h3 hring).trans (Hw.place402_of_full (decide_eq_true hfull)))

end Sys2Proof.Machine
end

section
/-! Receipts and the endpoint reset (R394, R405 to R408). What the watch over event sources keeps serves the event controller too. -/

namespace Sys2Proof.Machine

/-! ### What the watch over event sources leaves alone (R416, R424, R426) -/

section
variable {P : Hw → Prop} (hsplit : ∀ (h : Hw) (l : List Nat), P h → P { h with ev := { h.ev with split := l } })
  (hraise : ∀ h : Hw, P h → P (h.raise 0x3A2 8))
include hsplit hraise

theorem Hw.checkCopies_keeps {h : Hw} (h0 : P h) : P h.checkCopies :=
  Hw.over_keeps P _ _ (fun _ _ hk => hraise _ (hsplit _ _ hk)) h h0

/-- What changes of the noted sources and vectors, fault records and stranded bits keep, the watch keeps. -/
theorem Hw.watch_keeps (hann : ∀ (h : Hw) (l : List Nat), P h → P { h with ev := { h.ev with announced := l } })
    (hset : ∀ (h : Hw) (v w : Nat), P h → P (h.setVal .EV_STRANDED v w)) {h : Hw} (h0 : P h) : P h.watch :=
  Hw.over_keeps P _ _ (fun _ _ hk => Hw.over_keeps P _ _ (fun _ _ hj => hset _ _ _ hj) _ hk) _
    (hann _ _ (Hw.checkCopies_keeps hsplit hraise h0))

end

section
variable (h : Hw)

theorem Hw.watch_tw : h.watch.tw = h.tw :=
  Hw.watch_keeps (P := fun k => k.tw = h.tw) (fun _ _ hk => hk) (fun _ hk => hk) (fun _ _ hk => hk) (fun _ _ _ hk => hk) rfl

theorem Hw.checkCopies_clerks : h.checkCopies.clerks = h.clerks :=
  Hw.checkCopies_keeps (P := fun k => k.clerks = h.clerks) (fun _ _ hk => hk) (fun _ hk => hk) rfl

theorem Hw.watch_clerks : h.watch.clerks = h.clerks :=
  Hw.watch_keeps (P := fun k => k.clerks = h.clerks) (fun _ _ hk => hk) (fun _ hk => hk) (fun _ _ hk => hk) (fun _ _ _ hk => hk) rfl

theorem Hw.watch_msixOn : h.watch.ev.msixOn = h.ev.msixOn :=
  Hw.watch_keeps (P := fun k => k.ev.msixOn = h.ev.msixOn) (fun _ _ hk => hk) (fun _ hk => hk) (fun _ _ hk => hk)
    (fun _ _ _ hk => hk) rfl

theorem Hw.watch_masked : h.watch.ev.masked = h.ev.masked :=
  Hw.watch_keeps (P := fun k => k.ev.masked = h.ev.masked) (fun _ _ hk => hk) (fun _ hk => hk) (fun _ _ hk => hk)
    (fun _ _ _ hk => hk) rfl

/-! ### The endpoint reset (R408) -/

theorem Hw.endpointReset_fifos : h.endpointReset.tw.fifo = [] ∧ h.endpointReset.tw.rx = [] ∧ h.endpointReset.tw.out = [] := by
  unfold Hw.endpointReset
  dsimp only
  rw [Hw.watch_tw]
  exact ⟨rfl, rfl, rfl⟩

theorem Hw.endpointReset_msix : h.endpointReset.ev.msixOn = false ∧ h.endpointReset.ev.masked = false := by
  unfold Hw.endpointReset
  dsimp only
  rw [Hw.watch_msixOn, Hw.watch_masked]
  exact ⟨rfl, rfl⟩

end

/-! ### The receive FIFO (R394) -/

section
variable {h : Hw}

theorem Hw.rxPop_of_too_many {v : Nat} (hmany : h.tw.level < v % 16384) : h.rxPop v = h.wr .TW_HSTATUS_bad_pop 1 := if_pos hmany

theorem Hw.rxPop_of_zero {v : Nat} (h0 : v % 16384 = 0) : h.rxPop v = h := by
  unfold Hw.rxPop
  simp only [h0, Nat.not_lt_zero, if_false, if_true]

theorem Hw.rxPop_of_held {v : Nat} (h0 : v % 16384 ≠ 0) (hheld : v % 16384 ≤ h.tw.level) :
    h.rxPop v = h.setTw (fun t => { t with rx := dropWords (v % 16384) t.rx }) := by
  unfold Hw.rxPop
  simp only [Nat.not_lt.mpr hheld, h0, if_false]

theorem Hw.placeReceipt_of_none (ho : h.tw.out = []) : h.placeReceipt = h := by
  unfold Hw.placeReceipt
  simp only [ho]

section
variable {clerk : Option Nat} {slip : Bool} {ws : List Word} {rest : List (Option Nat × Bool × List Word)}
  (ho : h.tw.out = (clerk, slip, ws) :: rest)
include ho

theorem Hw.placeReceipt_of_full (hfull : 8192 < h.tw.level + ws.length) : h.placeReceipt = h := by
  unfold Hw.placeReceipt
  simp only [ho, show fifoWords = 8192 from rfl, hfull, if_true]

theorem Hw.placeReceipt_of_room (hroom : h.tw.level + ws.length ≤ 8192) : h.placeReceipt =
    (let g := h.setTw (fun t => { t with out := rest, rx := t.rx ++ [ws] })
     let g := match clerk with | some c => g.wr .TW_CRCMD_busy 0 c | none => g
     let g := (g.twCount 5).twEvent 0
     let g := if bits (ws.headD 0).toNat 63 56 = 2 then g.twEvent 1 else g
     if slip then g.endSlip else g) := by
  unfold Hw.placeReceipt
  rw [ho]
  exact if_neg (Nat.not_lt.mpr hroom)

end

/-! ### Clerk receipts (R407) -/

/-- The words that a clerk has staged for its receipt. -/
def Hw.crcptStaged (h : Hw) (c n : Nat) : List Word := (List.range n).map (fun w => h.reg ⟨.TW_CRCPT, 0, 0, 4094 * c + w⟩)

theorem Hw.clerkReceipt_of_ignored {c v : Nat}
    (hno : h.on .TW_CRCMD_busy c = true ∨ bit v 63 = false ∨ bits v 11 0 = 0 ∨ 4094 < bits v 11 0) :
    h.clerkReceipt (some c) c v = h := if_pos (Or.inr hno)

theorem Hw.clerkReceipt_of_taken {c v : Nat} (hb : h.on .TW_CRCMD_busy c = false) (hgo : bit v 63 = true) (h0 : bits v 11 0 ≠ 0)
    (hmax : bits v 11 0 ≤ 4094) : h.clerkReceipt (some c) c v =
      (h.wr .TW_CRCMD_busy 1 c).produce (some c) false 4 (bits v 55 48) ((h.crcptStaged c (bits v 11 0)).headD 0)
        (h.crcptStaged c (bits v 11 0)).tail := by
  refine if_neg ?_
  rintro (hwho | hbusy | hgo' | hzero | hmany)
  · exact hwho rfl
  · exact Bool.false_ne_true (hb.symm.trans hbusy)
  · exact Bool.false_ne_true (hgo'.symm.trans hgo)
  · exact h0 hzero
  · exact Nat.not_lt.mpr hmax hmany

end

/-! ### The commands -/

section
variable {s : State} {h : Hw}

theorem exec_rxpop_eq {v : Word} (hf : s.hw.rxPop v.toNat = h) : exec (.rxpop v) s = .next (s.setHw h) := by
  rw [exec_rxpop]
  exact onHw_eq hf

theorem exec_receiptPlace_eq (hf : s.hw.placeReceipt = h) : exec .receiptPlace s = .next (s.setHw h) := by
  rw [exec_receiptPlace]
  exact onHw_eq hf

theorem exec_clerkReceipt_eq {c : Clerk} {v : Word} (hf : s.hw.clerkReceipt (some c.val) c v.toNat = h) :
    exec (.clerkReceipt c v) s = .next (s.setHw h) := by
  rw [exec_clerkReceipt]
  exact onHw_eq hf

theorem exec_endpointReset_next : exec .endpointReset s = .next (s.setHw s.hw.endpointReset) := by
  rw [exec_endpointReset]
  exact onHw_next _ s

end

/-- Settles O31: a pop by how many words it names, a receipt by whether it fits, a clerk's receipt by whether it is taken, and the
endpoint reset by what it leaves of the FIFOs and of MSI-X. -/
theorem receipts : Obligations.Receipts := by
  refine ⟨fun v s => ⟨fun hmany => exec_rxpop_eq (Hw.rxPop_of_too_many hmany), fun h0 => exec_rxpop_eq (Hw.rxPop_of_zero h0),
      fun h0 hheld => exec_rxpop_eq (Hw.rxPop_of_held h0 hheld)⟩,
    fun s ho => exec_receiptPlace_eq (Hw.placeReceipt_of_none ho),
    fun clerk slip ws rest s ho => ⟨fun hfull => exec_receiptPlace_eq (Hw.placeReceipt_of_full ho hfull), fun hroom => ?_⟩,
    fun c v s => ⟨fun hno => exec_clerkReceipt_eq (Hw.clerkReceipt_of_ignored hno),
      fun hb hgo h0 hmax => exec_clerkReceipt_eq (Hw.clerkReceipt_of_taken hb hgo h0 hmax)⟩, fun s => ?_⟩
  · exact exec_receiptPlace_eq (Hw.placeReceipt_of_room ho hroom)
  · obtain ⟨hfifo, hrx, hout⟩ := s.hw.endpointReset_fifos
    obtain ⟨hon, hmasked⟩ := s.hw.endpointReset_msix
    exact ⟨_, exec_endpointReset_next, hfifo, hrx, hout, hon, hmasked, s.sameOutside_setHw _⟩

end Sys2Proof.Machine
end

section
/-! The event controller: the INT_N pin, the host's side, the clerks' entries, claims and completions, and the nesting of their
priority stacks (R412 to R427). -/

namespace Sys2Proof.Machine

/-! ### The INT_N pin (R427) -/

/-- A 64-bit word is nonzero exactly where one of its bits is set. -/
theorem ne_zero_iff_exists_bit {v : Nat} (hv : v < 2 ^ 64) : v ≠ 0 ↔ ∃ k < 64, bit v k = true := by
  constructor
  · intro hne
    obtain ⟨k, hk, -⟩ := Nat.exists_most_significant_bit hne
    exact ⟨k, Nat.lt_of_not_le fun hle => absurd (Nat.ge_two_pow_of_testBit hk)
      (Nat.not_le.mpr (lt_of_lt_of_le hv (Nat.pow_le_pow_right (by decide) hle))), hk⟩
  · rintro ⟨k, -, hk⟩ rfl
    exact absurd hk (by simp [bit])

/-- Event source 110 is asserted exactly while a stranded bit of one of the 2,048 sources is set. -/
theorem Hw.asserted_stranded_iff (h : Hw) :
    h.asserted 110 = true ↔ ∃ n < 2048, bit (h.val .EV_STRANDED (n / 64)) (n % 64) = true := by
  have hany : h.asserted 110 = (List.range 32).any (fun w => h.val .EV_STRANDED w != 0) := rfl
  rw [hany, List.any_eq_true]
  constructor
  · rintro ⟨w, hw, hne⟩
    obtain ⟨k, hk, hbit⟩ := (ne_zero_iff_exists_bit (h.reg ⟨.EV_STRANDED, 0, 0, w⟩).isLt).mp (bne_iff_ne.mp hne)
    have hlt := List.mem_range.mp hw
    refine ⟨64 * w + k, by omega, ?_⟩
    rwa [show (64 * w + k) / 64 = w by omega, show (64 * w + k) % 64 = k by omega]
  · rintro ⟨n, hn, hbit⟩
    exact ⟨n / 64, List.mem_range.mpr (by omega), bne_iff_ne.mpr
      ((ne_zero_iff_exists_bit (h.reg ⟨.EV_STRANDED, 0, 0, n / 64⟩).isLt).mpr ⟨n % 64, Nat.mod_lt _ (by decide), hbit⟩)⟩

theorem Hw.hostPending_iff (h : Hw) (n : Nat) : h.hostPending n = true ↔ h.srcTarget n = 8 ∧ h.srcPending n = true := by
  unfold Hw.hostPending
  rw [Bool.and_eq_true, beq_iff_eq]

/-- Settles O47: source 110 is the stranded bits' source, and the second condition is the model's own. -/
theorem interruptPin : Obligations.InterruptPin := by
  intro h
  unfold Hw.intN
  simp only [Bool.or_eq_true, Bool.and_eq_true, Hw.asserted_stranded_iff, List.any_eq_true, List.mem_range, Hw.hostPending_iff]

/-! ### Stranding and source configuration (R414, R424, R425) -/

section
variable {s : State} {h : Hw} {n : Fin 2048}

theorem exec_strandTimeout_of_new (hcopies : s.hw.checkCopies = s.hw) (hp : s.hw.srcPending n = true)
    (hu : s.hw.unavailable n = true) (hb : bit (s.hw.val .EV_STRANDED (n / 64)) (n % 64) = false) :
    exec (.strandTimeout n) s = .next (s.setHw ((s.hw.setBit .EV_STRANDED_bits (n % 64) (n / 64)).evCount 8 2)) := by
  rw [exec_strandTimeout]
  refine onHw_eq ?_
  simp only [hcopies, hp, hu, hb, Bool.not_false, Bool.and_self, if_true]

theorem exec_strandTimeout_stands (hcopies : s.hw.checkCopies = s.hw)
    (hno : s.hw.srcPending n = false ∨ s.hw.unavailable n = false ∨ bit (s.hw.val .EV_STRANDED (n / 64)) (n % 64) = true) :
    exec (.strandTimeout n) s = .next s := by
  rw [exec_strandTimeout]
  refine onHw_stands ?_
  obtain hx | hx | hx := hno <;>
    simp only [hcopies, hx, Bool.false_and, Bool.and_false, Bool.not_true, Bool.false_eq_true, if_false]

end

/-- The hardware with a source's configuration stored, its copies in agreement (R414, R416). -/
def Hw.srcStored (h : Hw) (n v : Nat) : Hw :=
  let level := if bits v 3 0 = 15 ∧ faultSource n = false then 14 else bits v 3 0
  let target := if n = 110 then 8 else bits v 11 8
  let h := (h.setVal .EV_SRC ((bits v 21 16 <<< 16) + (target <<< 8) + level) n).mark ⟨.EV_SRC, 0, 0, n⟩ false
  let h := h.mark ⟨.EV_SRC, 0, 1, n⟩ false
  { h with ev := { h.ev with split := h.ev.split.filter (· != n) } }

section
variable {h : Hw} {n v : Nat}

theorem Hw.srcWrite_of_reserved (hres : 8 < bits v 11 8) : h.srcWrite n v = h := if_pos hres

/-- A target that is not reserved is stored; a source whose target can take it is stranded no more. -/
theorem Hw.srcWrite_of_target (hok : bits v 11 8 ≤ 8) :
    h.srcWrite n v = (if (h.srcStored n v).unavailable n then h.srcStored n v else
      (h.srcStored n v).setVal .EV_STRANDED
        (setBits ((h.srcStored n v).val .EV_STRANDED (n / 64)) (n % 64) (n % 64) 0) (n / 64)).watch := by
  unfold Hw.srcWrite Hw.srcStored
  simp only [Nat.not_lt.mpr hok, if_false, Bool.not_eq_true']

end

/-! ### MSI-X (R426) -/

section
variable {s : State} {h : Hw} {k : Fin 64}

theorem exec_msixSend_of_open (hp : s.hw.checkCopies.watch.vecPending k = true)
    (hnew : s.hw.checkCopies.watch.ev.announced.contains k.val = false) (ho : s.hw.checkCopies.watch.vecOpen k = true) :
    exec (.msixSend k) s = .next (s.setHw (s.hw.checkCopies.watch.sendVector k)) := by
  rw [exec_msixSend]
  refine onHw_eq ?_
  simp only [hp, hnew, ho, Bool.not_true, Bool.or_self, Bool.false_eq_true, if_false, if_true]

theorem exec_msixSend_of_announced (hno : s.hw.checkCopies.watch.vecPending k = false ∨
    s.hw.checkCopies.watch.ev.announced.contains k.val = true) :
    exec (.msixSend k) s = .next (s.setHw s.hw.checkCopies.watch) := by
  rw [exec_msixSend]
  refine onHw_eq ?_
  obtain hx | hx := hno <;> simp only [hx, Bool.not_false, Bool.true_or, Bool.or_true, if_true]

theorem Hw.maskVector_of_unmasked {k v : Nat} (hm : bit (h.val .A_MSIX_CTL k) 0 = false) :
    h.maskVector k v = h.setVal .A_MSIX_CTL v k := by
  unfold Hw.maskVector
  simp only [hm, Bool.false_and, Bool.false_eq_true, if_false]

theorem Hw.maskVector_of_pending {k v : Nat} (hm : bit (h.val .A_MSIX_CTL k) 0 = true)
    (ho : (h.setVal .A_MSIX_CTL v k).vecOpen k = true) (hp : (h.setVal .A_MSIX_CTL v k).vecPending k = true) :
    h.maskVector k v = (h.setVal .A_MSIX_CTL v k).sendVector k := by
  unfold Hw.maskVector
  simp only [hm, ho, hp, Bool.and_self, if_true]

theorem exec_vectorUnmask_eq (hf : s.hw.maskVector k 0 = h) : exec (.vectorUnmask k) s = .next (s.setHw h) := by
  rw [exec_vectorUnmask]
  exact onHw_eq hf

theorem exec_msixFunctionControl_of_no_lift {enable mask master : Bool} (hno : s.hw.ev.masked = false ∨ mask = true) :
    exec (.msixFunctionControl enable mask master) s = .next (s.setHw
      { s.hw with ev := { s.hw.ev with msixOn := enable, masked := mask, master := master } }) := by
  rw [exec_msixFunctionControl]
  refine onHw_eq ?_
  obtain hx | hx := hno <;> simp only [hx, Bool.false_and, Bool.not_true, Bool.and_false, Bool.false_eq_true, if_false]

end

theorem exec_evSrcWrite_eq {n : Fin 2048} {v : Word} {s : State} {h : Hw} (hf : s.hw.srcWrite n v.toNat = h) :
    exec (.evSrcWrite n v) s = .next (s.setHw h) := by
  rw [exec_evSrcWrite]
  exact onHw_eq hf

/-- Settles O33: each command by the case of its guard that the statement names. -/
theorem hostEvents : Obligations.HostEvents := by
  refine ⟨fun n s hcopies => ⟨exec_strandTimeout_of_new hcopies, exec_strandTimeout_stands hcopies⟩,
    fun n v s => ⟨fun hres => exec_evSrcWrite_eq (Hw.srcWrite_of_reserved hres), fun hok => ⟨fun hu => ?_, fun hu => ?_⟩⟩,
    fun k s => ⟨exec_msixSend_of_open, exec_msixSend_of_announced⟩,
    fun k s => ⟨fun hm ho hp => exec_vectorUnmask_eq (Hw.maskVector_of_pending hm ho hp),
      fun hm => exec_vectorUnmask_eq (Hw.maskVector_of_unmasked hm)⟩,
    fun enable mask master s => exec_msixFunctionControl_of_no_lift⟩
  · exact exec_evSrcWrite_eq ((Hw.srcWrite_of_target hok).trans (congrArg Hw.watch (if_pos hu)))
  · exact exec_evSrcWrite_eq ((Hw.srcWrite_of_target hok).trans (congrArg Hw.watch (if_neg (Bool.eq_false_iff.mp hu))))

/-! ### Clerks (R413, R418 to R422) -/

section
variable {s : State} {h : Hw} {c : Nat}

theorem Hw.interruptEntry_stands {gone : Bool} (hcopies : h.checkCopies = h)
    (hno : h.clerkPower c ≠ 3 ∨ h.clerkState c = 0 ∨ h.clerkState c = 3) : h.interruptEntry c gone = h := by
  unfold Hw.interruptEntry
  obtain hx | hx | hx := hno <;> simp [hcopies, hx]

/-- A clerk that can take an interrupt. -/
def Hw.takesInterrupt (h : Hw) (c : Nat) : Prop := h.clerkPower c = 3 ∧ (h.clerkState c = 1 ∨ h.clerkState c = 2)

section
variable (hcopies : h.checkCopies = h) (ht : h.takesInterrupt c)
include hcopies ht

theorem Hw.interruptEntry_of_source {gone : Bool} {id level : Nat} (hdue : gone = true ∨ (h.deliverable c false).isSome = true)
    (hd : h.deliverable c true = some (id, level)) :
    h.interruptEntry c gone =
      h.startHandler c id level ⟨(h.clerk c).ua, h.clerkState c == 2, (h.clerk c).c, (h.clerk c).rstack.length⟩ := by
  obtain ⟨hpow, hst⟩ := ht
  have hgo : (gone || (h.deliverable c false).isSome) = true := by simpa using hdue
  have hrun : (h.clerkState c != 1 && h.clerkState c != 2) = false := by
    obtain hx | hx := hst <;> simp [hx]
  unfold Hw.interruptEntry
  simp only [hcopies, hpow, hrun, hgo, hd, bne_self_eq_false, Bool.not_true, Bool.or_self, Bool.false_eq_true, if_false]

theorem Hw.interruptEntry_of_gone (hd : h.deliverable c true = none) : h.interruptEntry c true = h.evCount c 1 := by
  obtain ⟨hpow, hst⟩ := ht
  have hrun : (h.clerkState c != 1 && h.clerkState c != 2) = false := by
    obtain hx | hx := hst <;> simp [hx]
  unfold Hw.interruptEntry
  simp only [hcopies, hpow, hrun, hd, bne_self_eq_false, Bool.true_or, Bool.not_true, Bool.or_self, Bool.false_eq_true, if_false]

end

theorem Hw.polledClaim_of_none (hcopies : h.checkCopies = h) (hd : h.deliverable c true = none) :
    h.polledClaim c = (0, h.evCount c 1) := by
  unfold Hw.polledClaim
  simp only [hcopies, hd]

theorem Hw.polledClaim_of_source {id level : Nat} (hcopies : h.checkCopies = h) (hd : h.deliverable c true = some (id, level)) :
    h.polledClaim c = (claimWord id level, (h.setClerk c (fun x => { x with stack := ⟨level, id, none⟩ :: x.stack })).watch) := by
  unfold Hw.polledClaim
  simp only [hcopies, hd]

section
variable {e : EvEntry} {r : List EvEntry} {id : Nat} (hstack : (h.clerk c).stack = e :: r)
include hstack

theorem Hw.evDone_of_claimed (hid : e.id = id) (hres : e.resume = none) :
    h.evDone c id = (false, h.setClerk c (fun x => { x with stack := r })) := by
  unfold Hw.evDone
  simp only [hstack, hid, hres, if_true]

theorem Hw.evDone_of_handler {p : Resume} (hid : e.id = id) (hres : e.resume = some p) :
    h.evDone c id = (true, (h.setClerk c (fun x => { x with stack := r })).exitHandler c p) := by
  unfold Hw.evDone
  simp only [hstack, hid, hres, if_true]

theorem Hw.evDone_of_other (hid : e.id ≠ id) :
    h.evDone c id = (false, ((h.wr .EV_CSTAT_done_order 1 c).raise 0x3A1 8).evCount c 3) := by
  unfold Hw.evDone
  simp only [hstack, hid, if_false]

end

end

section
variable {s : State} {h : Hw} {c : Clerk}

theorem exec_interruptEntry_eq {gone : Bool} (hf : s.hw.interruptEntry c gone = h) :
    exec (.interruptEntry ⟨c, gone⟩) s = .next (s.setHw h) := by
  rw [exec_interruptEntry]
  exact onHw_eq hf

section
variable (hpow : s.hw.clerkPower c = 3) (hst : s.hw.clerkState c = 1)
include hpow hst

theorem exec_polledClaim_eq {v : Nat} (hf : s.hw.polledClaim c = (v, h)) :
    exec (.polledClaim c) s = .next (s.setHw (h.setVal .EV_CLAIM v)) := by
  rw [exec_polledClaim]
  refine onHw_eq ?_
  simp only [hpow, hst, hf, bne_self_eq_false, Bool.or_self, Bool.false_eq_true, if_false]

theorem exec_evDone_eq {v : Word} {b : Bool} (hf : s.hw.evDone c (v.toNat % 8192) = (b, h)) :
    exec (.evDone c v) s = .next (s.setHw h.watch) := by
  rw [exec_evDone]
  refine onHw_eq ?_
  simp only [hpow, hst, hf, bne_self_eq_false, Bool.or_self, Bool.false_eq_true, if_false]

end

theorem exec_evTimerExpiry_of_running (hrun : s.hw.rd .EV_TIMER_count c ≠ 0) :
    exec (.evTimerExpiry c) s = .next (s.setHw ((s.hw.wr .EV_TIMER_count 0 c).wr .EV_CSTAT_timer 1 c)) := by
  rw [exec_evTimerExpiry]
  exact onHw_eq (if_neg hrun)

theorem exec_evTimerExpiry_of_stopped (hstop : s.hw.rd .EV_TIMER_count c = 0) : exec (.evTimerExpiry c) s = .next s := by
  rw [exec_evTimerExpiry]
  exact onHw_stands (if_pos hstop)

end

/-- Settles O32: each command by the case of its guard that the statement names. -/
theorem clerkEvents : Obligations.ClerkEvents := by
  refine ⟨fun c gone s hcopies => ⟨fun hno => exec_interruptEntry_eq (Hw.interruptEntry_stands hcopies hno),
      fun id level hpow hst hdue hd => exec_interruptEntry_eq (Hw.interruptEntry_of_source hcopies ⟨hpow, hst⟩ hdue hd),
      fun hpow hst hd => exec_interruptEntry_eq (Hw.interruptEntry_of_gone hcopies ⟨hpow, hst⟩ hd),
      fun hpow hst => ⟨fun hd => exec_polledClaim_eq hpow hst (Hw.polledClaim_of_none hcopies hd),
        fun id level hd => exec_polledClaim_eq hpow hst (Hw.polledClaim_of_source hcopies hd)⟩⟩,
    fun c v e r s hpow hst hstack => ⟨fun hid hres => exec_evDone_eq hpow hst (Hw.evDone_of_claimed hstack hid hres),
      fun p hid hres => exec_evDone_eq hpow hst (Hw.evDone_of_handler hstack hid hres),
      fun hid => exec_evDone_eq hpow hst (Hw.evDone_of_other hstack hid)⟩,
    fun c s => ⟨exec_evTimerExpiry_of_running, exec_evTimerExpiry_of_stopped⟩, fun v s => ⟨fun w => ?_, fun c => ?_⟩⟩
  · rw [exec_softSet]
    exact onHw_eq rfl
  · rw [exec_softSet]
    exact onHw_eq rfl

/-! ### Nesting (R417 to R421) -/

/-- A priority stack whose levels fall strictly from the top down and lie in 1 to 15. -/
def Nested (x : List EvEntry) : Prop := x.Pairwise (fun a b => b.level < a.level) ∧ ∀ e ∈ x, 1 ≤ e.level ∧ e.level ≤ 15

/-- Strictly falling levels in 1 to 15 are at most 15. -/
theorem Nested.length_le {x : List EvEntry} (hx : Nested x) : x.length ≤ 15 := by
  obtain ⟨hfall, hlevel⟩ := hx
  have hnodup : (x.map (·.level)).Nodup := List.pairwise_map.mpr (hfall.imp fun hlt => (Nat.ne_of_lt hlt).symm)
  have hsub : (x.map (·.level)).toFinset ⊆ Finset.Icc 1 15 := by
    intro l hl
    obtain ⟨e, he, rfl⟩ := List.mem_map.mp (List.mem_toFinset.mp hl)
    exact Finset.mem_Icc.mpr (hlevel e he)
  have hcard := Finset.card_le_card hsub
  rwa [List.toFinset_card_of_nodup hnodup, List.length_map, Nat.card_Icc] at hcard

theorem nested_nil : Nested [] := ⟨List.Pairwise.nil, nofun⟩

theorem Nested.tail {e : EvEntry} {x : List EvEntry} (hx : Nested (e :: x)) : Nested x :=
  ⟨hx.1.of_cons, fun d hd => hx.2 d (List.mem_cons_of_mem e hd)⟩

/-- An entry above a clerk's level may be pushed. -/
theorem ClerkSt.nested_push {x : ClerkSt} (hx : Nested x.stack) {e : EvEntry} (habove : x.level < e.level) (hle : e.level ≤ 15) :
    Nested (e :: x.stack) := by
  have hall : ∀ d ∈ x.stack, d.level < e.level := by
    intro d hd
    unfold ClerkSt.level at habove
    cases hst : x.stack with
    | nil => simp [hst] at hd
    | cons t r =>
      rw [hst] at hd hx habove
      obtain rfl | hr := List.mem_cons.mp hd
      · exact habove
      · exact ((List.pairwise_cons.mp hx.1).1 d hr).trans habove
  refine ⟨List.pairwise_cons.mpr ⟨hall, hx.1⟩, fun d hd => ?_⟩
  obtain rfl | hd := List.mem_cons.mp hd
  · exact ⟨Nat.zero_lt_of_lt habove, hle⟩
  · exact hx.2 d hd

section
variable (h : Hw) (c : Nat)

theorem highest_mem : ∀ {l : List (Nat × Nat)} {x : Nat × Nat}, highest l = some x → x ∈ l
  | a :: r, x, hx => by
    unfold highest at hx
    split at hx
    · exact List.mem_cons.mpr (.inl (Option.some.inj hx).symm)
    · next b hb =>
      split at hx
      · exact List.mem_cons_of_mem _ (highest_mem (hb.trans hx))
      · exact List.mem_cons.mpr (.inl (Option.some.inj hx).symm)

/-- A field of four bits is at most 15. -/
theorem Hw.rd_level_le {f : Fld} (hw : f.hi + 1 - f.lo = 4) (ix : Nat) : h.rd f ix ≤ 15 := by
  unfold Hw.rd bits
  rw [hw]
  omega

theorem Hw.srcLevel_le (n : Nat) : h.srcLevel n ≤ 15 := by
  unfold Hw.srcLevel
  split
  · exact h.rd_level_le rfl n
  · exact le_rfl

theorem Hw.privLevel_le (p : Nat) : h.privLevel c p ≤ 15 := by
  unfold Hw.privLevel
  split
  · exact le_rfl
  · exact h.rd_level_le rfl _

theorem Hw.level_le_of_mem_pendingAt {x : Nat × Nat} (hx : x ∈ h.pendingAt c) : x.2 ≤ 15 := by
  unfold Hw.pendingAt at hx
  obtain hx | hx := List.mem_append.mp hx
  · obtain ⟨p, -, rfl⟩ := List.mem_map.mp hx
    exact h.privLevel_le c p
  · obtain ⟨n, -, rfl⟩ := List.mem_map.mp hx
    exact h.srcLevel_le n

variable {h c}

/-- What a clerk takes lies above its level, and its level is one of 4 bits. -/
theorem Hw.level_of_deliverable {claim : Bool} {id level : Nat} (hd : h.deliverable c claim = some (id, level)) :
    (h.clerk c).level < level ∧ level ≤ 15 := by
  obtain ⟨hp, hok⟩ := List.mem_filter.mp (highest_mem hd)
  simp only [Bool.and_eq_true, decide_eq_true_eq] at hok
  exact ⟨hok.1.2, h.level_le_of_mem_pendingAt c hp⟩

/-- A clerk's place holds what was put there, or stands. -/
theorem Hw.setClerk_keeps {P : ClerkSt → Prop} {f : ClerkSt → ClerkSt} (h0 : P (h.clerk c)) (hf : P (f (h.clerk c))) :
    P ((h.setClerk c f).clerk c) := by
  unfold Hw.setClerk Hw.clerk nth setNth
  rw [List.getD_eq_getElem?_getD, List.getElem?_set_self']
  cases hx : h.clerks[c]? with
  | none => simpa [Hw.clerk, nth, hx] using h0
  | some x => simpa [Hw.clerk, nth, hx] using hf

theorem Hw.clerk_congr {h k : Hw} (hk : k.clerks = h.clerks) (c : Nat) : k.clerk c = h.clerk c := by
  unfold Hw.clerk
  rw [hk]

theorem Hw.setClerkState_clerks (h : Hw) (c v : Nat) : (h.setClerkState c v).clerks = h.clerks := Hw.wr_clerks _ _ _ _ _ _

theorem Hw.evCount_clerks (h : Hw) (t k : Nat) : (h.evCount t k).clerks = h.clerks := Hw.count_clerks _ _ _ _ _

/-- What a store to EV_DONE out of order leaves. -/
theorem Hw.doneOrder_clerks (h : Hw) (c : Nat) :
    (((h.wr .EV_CSTAT_done_order 1 c).raise 0x3A1 8).evCount c 3).clerks = h.clerks := by
  rw [Hw.evCount_clerks, Hw.raise_clerks, Hw.wr_clerks]

theorem Hw.pmClerk_clerks (h : Hw) (c ev n : Nat) : (h.pmClerk c ev n).clerks = h.clerks := by
  have hbump (k : Hw) (i m : Nat) : (k.pmBump true c i m).clerks = k.clerks := by
    unfold Hw.pmBump
    simp only [if_true]
    split <;> rfl
  unfold Hw.pmClerk
  split
  · refine Hw.each_keeps (fun k => k.clerks = h.clerks) _ _ (fun k i hk => ?_) h rfl
    split
    · exact (hbump k i _).trans hk
    · exact hk
  · rfl

/-- A clerk's stack stays nested as what it takes is pushed. -/
theorem Hw.nested_claim {claim : Bool} {id level : Nat} (hn : Nested (h.clerk c).stack)
    (hd : h.deliverable c claim = some (id, level)) (f : ClerkSt → ClerkSt) (r : Option Resume)
    (hf : (f (h.clerk c)).stack = ⟨level, id, r⟩ :: (h.clerk c).stack) : Nested ((h.setClerk c f).clerk c).stack := by
  refine Hw.setClerk_keeps (P := fun x => Nested x.stack) hn ?_
  rw [hf]
  exact ClerkSt.nested_push hn (Hw.level_of_deliverable hd).1 (Hw.level_of_deliverable hd).2

theorem Hw.startHandler_nested {claim : Bool} {id level : Nat} (hn : Nested (h.clerk c).stack)
    (hd : h.deliverable c claim = some (id, level)) (r : Resume) : Nested ((h.startHandler c id level r).clerk c).stack := by
  have hclerks : (h.startHandler c id level r).clerks = (h.setClerk c (fun x => { x with
      stack := ⟨level, id, some r⟩ :: x.stack, ua := h.rd .EV_HANDLER_entry (16 * c + level) })).clerks := by
    unfold Hw.startHandler Hw.setClerkState
    rw [Hw.watch_clerks, Hw.wr_clerks, Hw.pmClerk_clerks]
    rfl
  rw [Hw.clerk_congr hclerks]
  exact Hw.nested_claim hn hd _ (some r) rfl

theorem Hw.interruptEntry_nested (gone : Bool) (hn : Nested (h.clerk c).stack) : Nested ((h.interruptEntry c gone).clerk c).stack := by
  rw [← Hw.clerk_congr h.checkCopies_clerks c] at hn
  unfold Hw.interruptEntry
  dsimp only
  split
  · exact hn
  · split
    · next hd => exact Hw.startHandler_nested hn hd _
    · exact hn

theorem Hw.polledClaim_nested (hn : Nested (h.clerk c).stack) : Nested ((h.polledClaim c).2.clerk c).stack := by
  rw [← Hw.clerk_congr h.checkCopies_clerks c] at hn
  unfold Hw.polledClaim
  dsimp only
  split
  · exact hn
  · next hd =>
    rw [Hw.clerk_congr (Hw.watch_clerks _)]
    exact Hw.nested_claim hn hd _ none rfl

theorem Hw.exitHandler_nested (r : Resume) (hn : Nested (h.clerk c).stack) : Nested ((h.exitHandler c r).clerk c).stack := by
  have hpopped := Hw.setClerk_keeps (P := fun x => Nested x.stack)
    (f := fun x => { x with c := r.c, rstack := (x.rstore.take r.depth).reverse }) hn hn
  unfold Hw.exitHandler
  dsimp only
  split
  · next hd =>
    rw [Hw.clerk_congr (Hw.evCount_clerks _ _ _)]
    exact Hw.startHandler_nested hpopped hd r
  · rw [Hw.clerk_congr (Hw.setClerkState_clerks _ _ _)]
    exact Hw.setClerk_keeps (P := fun x => Nested x.stack) (f := fun x => { x with ua := r.ua }) hpopped hpopped

theorem Hw.evDone_nested (id : Nat) (hn : Nested (h.clerk c).stack) : Nested ((h.evDone c id).2.clerk c).stack := by
  cases hst : (h.clerk c).stack with
  | nil =>
    unfold Hw.evDone
    simp only [hst]
    rwa [Hw.clerk_congr (Hw.doneOrder_clerks h c)]
  | cons e r =>
    have hpopped : Nested ((h.setClerk c (fun x => { x with stack := r })).clerk c).stack :=
      Hw.setClerk_keeps (P := fun x => Nested x.stack) hn (hst ▸ hn).tail
    by_cases hid : e.id = id
    · cases hres : e.resume with
      | none => rwa [Hw.evDone_of_claimed hst hid hres]
      | some p =>
        rw [Hw.evDone_of_handler hst hid hres]
        exact Hw.exitHandler_nested p hpopped
    · rw [Hw.evDone_of_other hst hid]
      rwa [Hw.clerk_congr (Hw.doneOrder_clerks h c)]

theorem Hw.clerkReset_nested (hn : Nested (h.clerk c).stack) : Nested ((h.clerkCmd c 3).clerk c).stack := by
  by_cases hoff : h.clerkPower c = 0
  · rwa [Hw.clerkCmd_of_off 3 hoff]
  · rw [Hw.clerkCmd_reset hoff, Hw.clerk_congr (Hw.watch_clerks _)]
    exact Hw.setClerk_keeps (P := fun x => Nested x.stack) (f := fun _ => { ClerkSt.reset with ua := h.rd .MC_ENTRY_entry c })
      hn nested_nil

end

/-- A clerk's command on the hardware ends with what the hardware function gives. -/
theorem State.hw_of_onHw {f : Hw → Hw} {s : State} {P : Hw → Prop} (hf : P (f s.hw)) : ∃ t, onHw f s = .next t ∧ P t.hw :=
  ⟨_, rfl, hf⟩

/-- Settles O59: every push is of what the clerk takes, whose level lies above the stack's top; pops and resets keep a nested stack. -/
theorem nestedPriorities : Obligations.NestedPriorities := by
  refine ⟨fun x => Nested.length_le, fun c v gone s hn => ⟨?_, ?_, ?_, ?_⟩⟩
  · rw [exec_interruptEntry]
    exact State.hw_of_onHw (P := fun h => Nested (h.clerk c).stack) (Hw.interruptEntry_nested gone hn)
  · rw [exec_polledClaim]
    refine State.hw_of_onHw (P := fun h => Nested (h.clerk c).stack) ?_
    split
    · exact hn
    · have hclaim := Hw.polledClaim_nested hn
      revert hclaim
      generalize s.hw.polledClaim c = r
      obtain ⟨v, k⟩ := r
      intro hk
      rwa [Hw.clerk_congr (Hw.setVal_clerks _ _ _ _ _ _)]
  · rw [exec_evDone]
    refine State.hw_of_onHw (P := fun h => Nested (h.clerk c).stack) ?_
    split
    · exact hn
    · rw [Hw.clerk_congr (Hw.watch_clerks _)]
      exact Hw.evDone_nested _ hn
  · rw [exec_clerkReset]
    exact State.hw_of_onHw (P := fun h => Nested (h.clerk c).stack) (Hw.clerkReset_nested hn)

end Sys2Proof.Machine
end

section
/-! The performance counter sets (R429, R433 to R435). -/

namespace Sys2Proof.Machine

section
variable {s : State} {h : Hw}

theorem exec_counterOverflow_eq {t : PmSet} {k : Fin 8} (hf : s.hw.overflow (pmKey t) k = h) :
    exec (.counterOverflow t k) s = .next (s.setHw h) := by
  rw [exec_counterOverflow]
  exact onHw_eq hf

theorem exec_sampleCapture_eq {t : PmSet} (hf : s.hw.capture (pmKey t) = h) :
    exec (.sampleCapture t) s = .next (s.setHw h) := by
  rw [exec_sampleCapture]
  exact onHw_eq hf

/-! ### Overflow (R434) -/

theorem Hw.overflow_of_no_wrap {t : Bool × Nat} {k : Nat} (hno : h.wraps.contains (t.1, t.2, k) = false) : h.overflow t k = h := by
  unfold Hw.overflow
  simp only [hno, Bool.not_false, if_true]

/-- A slice's counter that has wrapped, taken up: its ovf bit set. -/
def Hw.sliceWrap (h : Hw) (n k : Nat) : Hw :=
  ({ h with wraps := delFirst (· == (false, n, k)) h.wraps } : Hw).setBit .PM_STATUS_ovf k 0 n

theorem Hw.overflow_slice {n k : Nat} (hw : h.wraps.contains (false, n, k) = true) : h.overflow (false, n) k =
    if (h.sliceWrap n k).on .PM_SEL_sample_en k n then (h.sliceWrap n k).takeSample (false, n) k else h.sliceWrap n k := by
  unfold Hw.overflow Hw.sliceWrap
  simp only [hw, Bool.not_true, Bool.false_eq_true, if_false]

section
variable {n k : Nat} (hgo : h.on .PM_CTRL_freeze_on_sample 0 n = false)
include hgo

theorem Hw.takeSample_of_idle (hv : h.on .PM_SAMPLE_valid 0 n = false) (ha : h.armedSet (false, n) = none) :
    h.takeSample (false, n) k = { h with armed := h.armed ++ [⟨false, n, k, none⟩] } := by
  have hgo' : ({ h with armed := h.armed ++ [⟨false, n, k, none⟩] } : Hw).on .PM_CTRL_freeze_on_sample 0 n = false := hgo
  unfold Hw.takeSample
  simp only [hv, ha, hgo', Option.isSome_none, Bool.or_self, Bool.not_false, Bool.false_eq_true, if_true, if_false]

theorem Hw.takeSample_of_held (hv : h.on .PM_SAMPLE_valid 0 n = true) :
    h.takeSample (false, n) k = h.countSat .PM_STATUS_missed 0 n := by
  have hgo' : (h.countSat .PM_STATUS_missed 0 n).on .PM_CTRL_freeze_on_sample 0 n = false := by
    unfold Hw.on at hgo ⊢
    rwa [Hw.countSat, Hw.rd_wr_other _ _ _ _ _ _ _ _ _ _ (by decide)]
  unfold Hw.takeSample
  simp only [hv, hgo', Bool.true_or, Bool.not_true, Bool.false_eq_true, if_false]

end

/-! ### Samples (R435) -/

theorem Hw.capture_of_none {t : Bool × Nat} (ha : h.armedSet t = none) : h.capture t = h := by
  unfold Hw.capture
  simp only [ha]

theorem Hw.capture_clerk {c k ua depth : Nat} (ha : h.armedSet (true, c) = some ⟨true, c, k, some [ua, depth]⟩) :
    h.capture (true, c) =
      ({ h with armed := delFirst (fun a => a.clerk == true && a.unit == c) h.armed } : Hw).setVal .MC_PMSAMPLE
        (2 ^ 63 + (k <<< 60) + ((depth % 16) <<< 56) + ua % 2048) c := by
  unfold Hw.capture
  simp only [ha, if_true, nth, List.getD_cons_succ, List.getD_cons_zero]

end

/-- Settles O34: control writes and clears are the model's own; an overflow by whether its counter samples and whether a sample is
held, a capture by what is armed. -/
theorem counterSets : Obligations.CounterSets := by
  refine ⟨fun n v s => ⟨?_, ?_⟩, fun c v s => ⟨?_, ?_⟩,
    fun n k s hw => ⟨fun hoff => ?_, fun hon hv ha hgo => ?_, fun hon hv hgo => ?_⟩,
    fun t k s hno => exec_counterOverflow_eq (Hw.overflow_of_no_wrap hno),
    fun c k ua depth s ha => exec_sampleCapture_eq (t := .clerk c) (Hw.capture_clerk ha),
    fun t s ha => exec_sampleCapture_eq (Hw.capture_of_none ha)⟩
  · rw [exec_pmRun]
    exact onHw_eq rfl
  · rw [exec_cycClear]
    exact onHw_eq rfl
  · rw [exec_pmRun]
    exact onHw_eq rfl
  · rw [exec_cycClear]
    exact onHw_eq rfl
  · exact exec_counterOverflow_eq (t := .slice n) ((Hw.overflow_slice hw).trans (if_neg (Bool.eq_false_iff.mp hoff)))
  · exact exec_counterOverflow_eq (t := .slice n)
      ((Hw.overflow_slice hw).trans ((if_pos hon).trans (Hw.takeSample_of_idle hgo hv ha)))
  · exact exec_counterOverflow_eq (t := .slice n) ((Hw.overflow_slice hw).trans ((if_pos hon).trans (Hw.takeSample_of_held hgo hv)))

end Sys2Proof.Machine
end

section
/-! The Shogen fabric's links: hellos, the member number, the reach table (R437 to R448). -/

namespace Sys2Proof.Machine

/-! ### Fields of a link -/

section
variable (h : Hw) (p : Nat)

theorem Hw.enterSyncing_state : (h.enterSyncing p).rd .SF_LINK_state p = 1 := by
  unfold Hw.enterSyncing
  exact Hw.rd_wr_same _ .SF_LINK_state 1 p 0 0 (by decide)

theorem Hw.enterSyncing_heard : ((h.enterSyncing p).sf p).heard = 0 := by
  unfold Hw.enterSyncing Hw.sf
  rw [Hw.wr_links]
  exact congrArg SfLinkSt.heard (FMap.get_put_same natLt (fun _ => SfLinkSt.idle) _ p _)

section
variable (v member id nport : Nat) (pair : Bool) (da : Nat)

theorem Hw.adopt_state : (h.adopt p v member id nport pair da).rd .SF_LINK_state p = h.rd .SF_LINK_state p := by
  unfold Hw.adopt Hw.sfCount
  rw [Hw.rd_count_other _ _ _ _ _ _ _ _ _ (by decide), Hw.rd_setVal_other _ _ _ _ _ _ _ _ _ _ (by decide)]
  iterate 5 rw [Hw.rd_wr_beside _ _ _ _ _ _ _ _ _ _ (by decide) (by decide) (by decide)]
  rfl

theorem Hw.adopt_member (hm : member < 4096) : (h.adopt p v member id nport pair da).rd .SF_LINK_nbr_member p = member := by
  unfold Hw.adopt Hw.sfCount
  simp [Nat.mod_eq_of_lt hm]

theorem Hw.adopt_id (hid : id < 2 ^ 64) : (h.adopt p v member id nport pair da).val .SF_NBRID p = id := by
  unfold Hw.adopt Hw.sfCount
  simp only [Hw.val_count_other, ne_eq, reduceCtorEq, not_false_eq_true, Hw.val_setVal_same, Nat.mod_eq_of_lt hid]

end

end

section
variable {h : Hw} {p : Nat} {d : List Byte}

/-! ### Hellos received (R440 to R443) -/

/-- A hello's sender and the words of its payload, as a frame's bytes spell them. -/
def helloSrc (d : List Byte) : Nat := (sfHeader (d.drop 14)).src
def helloId (d : List Byte) : Nat := leNat (slice (d.drop 30) 0 8)
def helloCounter (d : List Byte) : Nat := leNat (slice (d.drop 30) 12 4)

/-- A hello of the right length, check and kind. -/
structure GoodHello (d : List Byte) : Prop where
  long : 62 ≤ d.length
  check : sfCheck (helloSrc d) (helloCounter d) (d.drop 14) = fieldAt d 28 2
  kind : byteAt d 14 / 16 = 1

/-- A hello adopted as it is received (R440). -/
def Hw.adoptHello (h : Hw) (p : Nat) (d : List Byte) : Hw :=
  h.adopt p (helloCounter d) (helloSrc d) (helloId d) (leNat (slice (d.drop 30) 8 2) % 1024) (bit (byteAt (d.drop 30) 10) 0)
    (fieldAt d 6 6)

/-- A hello of the right length, check and kind taken, its number own or another's (R442, R443). -/
def Hw.takeHello (h : Hw) (p : Nat) (d : List Byte) : Hw :=
  let own := helloSrc d == h.member
  let changed := helloSrc d != h.rd .SF_LINK_nbr_member p || helloId d != h.val .SF_NBRID p
  let k := if own then ((h.raise 0xC05 8).setBit .SF_EVENT_events 3).wr .SF_LINK_conflict 1 p else h
  let k := if h.rd .SF_LINK_state p = 2 && changed then ((k.setBit .SF_EVENT_events 2).leaveLive p 1 true).enterSyncing p
    else if changed then k.setSf p { k.sf p with heard := 0 } else k
  if own then k
  else
    let ahead := (helloCounter d + 2 ^ 32 - k.rd .SF_LINK_adopted p) % 2 ^ 32
    if k.rd .SF_LINK_state p = 2 then
      if 1 ≤ ahead ∧ ahead ≤ 3 then (k.adoptHello p d).pairCheck k.pairLinks.length else k.sfCount 3
    else if decide (0 < (k.sf p).heard) && ahead == 1 && bit (byteAt (d.drop 30) 10) 1 && k.on .SF_MEMBER_valid then
      (k.adoptHello p d).enterLive p
    else k.adoptHello p d

theorem Hw.helloRx_of_down (hst : h.rd .SF_LINK_state p = 0) : h.helloRx p d = h := by
  unfold Hw.helloRx
  simp only [hst, beq_self_eq_true, Bool.or_true, if_true]

section
variable (hf : h.fabricPort p = true)
include hf

section
variable (hst : h.rd .SF_LINK_state p ≠ 0)
include hst

theorem Hw.helloRx_of_bad (hbad : d.length < 62 ∨ sfCheck (helloSrc d) (helloCounter d) (d.drop 14) ≠ fieldAt d 28 2) :
    h.helloRx p d = h.sfBadCheck p := by
  unfold Hw.helloRx
  exact (if_neg (by simp [hf, hst])).trans (if_pos hbad)

theorem Hw.helloRx_of_other_kind (hlong : 62 ≤ d.length)
    (hcheck : sfCheck (helloSrc d) (helloCounter d) (d.drop 14) = fieldAt d 28 2) (hkind : byteAt d 14 / 16 ≠ 1) :
    h.helloRx p d = h.dropped (portSl p) 0xC1 0 := by
  unfold Hw.helloRx
  exact (if_neg (by simp [hf, hst])).trans
    ((if_neg (by simp [Nat.not_lt.mpr hlong, ← hcheck, helloSrc, helloCounter])).trans (if_pos hkind))

end

theorem Hw.helloRx_of_good (hg : GoodHello d) (hst : h.rd .SF_LINK_state p ≠ 0) : h.helloRx p d = h.takeHello p d := by
  obtain ⟨hlong, hcheck, hkind⟩ := hg
  unfold Hw.helloRx
  exact (if_neg (by simp [hf, hst])).trans ((if_neg (by simp [Nat.not_lt.mpr hlong, ← hcheck, helloSrc, helloCounter])).trans
    (if_neg (by simp [hkind])))

end

/-- A hello that names the device's own number leaves a synchronising link where it is (R443). -/
theorem Hw.takeHello_of_own (hsync : h.rd .SF_LINK_state p = 1) (hown : helloSrc d = h.member) :
    h.takeHello p d =
      (let k := ((h.raise 0xC05 8).setBit .SF_EVENT_events 3).wr .SF_LINK_conflict 1 p
       if helloSrc d ≠ h.rd .SF_LINK_nbr_member p ∨ helloId d ≠ h.val .SF_NBRID p then k.setSf p { k.sf p with heard := 0 }
       else k) := by
  unfold Hw.takeHello
  simp only [beq_iff_eq.mpr hown, hsync, Nat.reduceEqDiff, decide_false, Bool.false_and, Bool.false_eq_true, if_false, if_true,
    Bool.or_eq_true, bne_iff_ne]

/-- On a LIVE link, a hello of another neighbour than recorded: the link leaves LIVE and the new neighbour is recorded. -/
theorem Hw.takeHello_of_changed (hlive : h.rd .SF_LINK_state p = 2) (hother : helloSrc d ≠ h.member)
    (hch : helloSrc d ≠ h.rd .SF_LINK_nbr_member p ∨ helloId d ≠ h.val .SF_NBRID p) :
    h.takeHello p d = (((h.setBit .SF_EVENT_events 2).leaveLive p 1 true).enterSyncing p).adoptHello p d := by
  have hown : (helloSrc d == h.member) = false := beq_eq_false_iff_ne.mpr hother
  have hchanged : (helloSrc d != h.rd .SF_LINK_nbr_member p || helloId d != h.val .SF_NBRID p) = true := by
    simpa [bne_iff_ne] using hch
  unfold Hw.takeHello
  simp only [hown, hchanged, hlive, decide_true, Bool.and_self, Bool.false_eq_true, if_false, if_true, Hw.enterSyncing_state,
    Hw.enterSyncing_heard, Nat.reduceEqDiff, lt_irrefl, decide_false, Bool.false_and]

/-- A hello of the recorded neighbour. -/
def Hw.knowsHello (h : Hw) (p : Nat) (d : List Byte) : Prop :=
  (helloSrc d == h.member) = false ∧ (helloSrc d != h.rd .SF_LINK_nbr_member p || helloId d != h.val .SF_NBRID p) = false

theorem Hw.knowsHello_of (hother : helloSrc d ≠ h.member) (hsrc : helloSrc d = h.rd .SF_LINK_nbr_member p)
    (hid : helloId d = h.val .SF_NBRID p) : h.knowsHello p d :=
  ⟨beq_eq_false_iff_ne.mpr hother, by simp [hsrc, hid]⟩

section
variable (hknown : h.knowsHello p d)
include hknown

/-- A synchronising link that hears its neighbour in sequence, and is heard, becomes LIVE (R442). -/
theorem Hw.takeHello_of_synced (hsync : h.rd .SF_LINK_state p = 1) (hheard : 0 < (h.sf p).heard)
    (hnext : (helloCounter d + 2 ^ 32 - h.rd .SF_LINK_adopted p) % 2 ^ 32 = 1) (hhears : bit (byteAt (d.drop 30) 10) 1 = true)
    (hvalid : h.on .SF_MEMBER_valid = true) : h.takeHello p d = (h.adoptHello p d).enterLive p := by
  obtain ⟨hown, hsame⟩ := hknown
  unfold Hw.takeHello
  simp only [hown, hsame, hsync, hheard, hnext, hhears, hvalid, Bool.and_false,
    Bool.false_eq_true, if_false, if_true, Nat.reduceEqDiff, decide_true, beq_self_eq_true, Bool.and_self]

/-- A live link's hello whose counter is too far ahead is only counted (R440). -/
theorem Hw.takeHello_of_far (hlive : h.rd .SF_LINK_state p = 2)
    (hfar : 3 < (helloCounter d + 2 ^ 32 - h.rd .SF_LINK_adopted p) % 2 ^ 32) : h.takeHello p d = h.sfCount 3 := by
  obtain ⟨hown, hsame⟩ := hknown
  unfold Hw.takeHello
  simp only [hown, hsame, hlive, Bool.and_false, Bool.false_eq_true, if_false, if_true,
    Nat.not_le.mpr hfar, and_false]

end

/-! ### Hellos sent, dead links, the member number and the reach table (R437, R441, R442, R447) -/

theorem Hw.helloSend_of_up (hst : h.rd .SF_LINK_state p = 1 ∨ h.rd .SF_LINK_state p = 2) (hup : h.link p = 5)
    (hs : h.silent p = false) : h.helloSend p =
      (let k := h.setSf p { h.sf p with tx := ((h.sf p).tx + 1) % 2 ^ 32 }
       let o := k.ownHeader 1 (some 0) none
       (o.2.sendOwn p ownEvidence (o.2.sfHead p (o.2.rd .SF_HELLO_DA_address) o.1 ++ o.2.helloPayload p)).sfCount 0) := by
  unfold Hw.helloSend
  simp only [hst, hup, hs, and_self, if_true]

theorem Hw.helloSend_of_not_up (hup : h.link p ≠ 5) : h.helloSend p = h := by
  unfold Hw.helloSend
  simp only [hup, false_and, and_false, if_false]

theorem Hw.sfMemberWrite_of_free {v : Nat} (hoff : ∀ p < 768, h.fabricPort p = true → h.cfg .PT_CFG_enable p ≠ 1) :
    h.sfMemberWrite v = h.setVal .SF_MEMBER (v &&& 0x8000000000000FFF) := by
  refine if_neg fun hany => ?_
  obtain ⟨p, hp, hen⟩ := List.any_eq_true.mp hany
  obtain ⟨hfab, hone⟩ := Bool.and_eq_true_iff.mp hen
  exact hoff p (List.mem_range.mp hp) hfab (beq_iff_eq.mp hone)

theorem Hw.sfMemberWrite_of_enabled {v : Nat} (hon : ∃ p < 768, h.fabricPort p = true ∧ h.cfg .PT_CFG_enable p = 1) :
    h.sfMemberWrite v = h.wr .SF_STATUS_member_refused 1 := by
  obtain ⟨p, hp, hfab, hen⟩ := hon
  exact if_pos (List.any_eq_true.mpr ⟨p, List.mem_range.mpr hp, Bool.and_eq_true_iff.mpr ⟨hfab, beq_iff_eq.mpr hen⟩⟩)

/-- Next hop `j` in the staging words of the reach table: port and weight in one field. -/
def Hw.stagedHop (h : Hw) (j : Nat) : Nat := bits (h.val .SF_REACH_W (j / 4)) (16 * (j % 4) + 15) (16 * (j % 4))
/-- A staged next hop that may be stored: one without a weight, or a fabric port. -/
def Hw.hopOk (h : Hw) (j : Nat) : Bool :=
  h.stagedHop j % 16 == 0 || (decide (h.stagedHop j / 64 < 768) && h.fabricPort (h.stagedHop j / 64))

theorem Hw.hopOk_iff (h : Hw) (j : Nat) : h.hopOk j = true ↔
    h.stagedHop j % 16 = 0 ∨ (h.stagedHop j / 64 < 768 ∧ h.fabricPort (h.stagedHop j / 64) = true) := by
  unfold Hw.hopOk
  rw [Bool.or_eq_true, Bool.and_eq_true, beq_iff_eq, decide_eq_true_eq]

section
variable (hidle : h.on .SF_REACH_CMD_busy = false)
include hidle

theorem Hw.reachRead_of_idle : h.reachRead =
    h.each 4 (fun h k => h.setVal .SF_REACH_W (h.val .A_REACH (4 * h.rd .SF_REACH_INDEX_member + k)) k) :=
  if_neg (Bool.eq_false_iff.mp hidle)

theorem Hw.reachWrite_of_ok (hok : ∀ j < 16, h.hopOk j = true) : h.reachWrite =
    (h.each 4 (fun k j => k.setVal .A_REACH (k.val .SF_REACH_W j &&& 0xFFCFFFCFFFCFFFCF)
      (4 * h.rd .SF_REACH_INDEX_member + j))).each 8 (fun k n => k.mark ⟨.A_REACH, n, 0, h.rd .SF_REACH_INDEX_member⟩ false) := by
  have hall : (List.range 16).all h.hopOk = true := List.all_eq_true.mpr fun j hj => hok j (List.mem_range.mp hj)
  exact (if_neg (Bool.eq_false_iff.mp hidle)).trans (if_neg (Bool.eq_false_iff.mp (congrArg (!·) hall)))

theorem Hw.reachWrite_of_bad (hbad : ∃ j < 16, h.hopOk j = false) : h.reachWrite = h.wr .SF_STATUS_reach_refused 1 := by
  obtain ⟨j, hj, hno⟩ := hbad
  have hall : (List.range 16).all h.hopOk = false :=
    List.all_eq_false.mpr ⟨j, List.mem_range.mpr hj, Bool.eq_false_iff.mp hno⟩
  exact (if_neg (Bool.eq_false_iff.mp hidle)).trans (if_pos (congrArg (!·) hall))

end

end

section
variable {s : State} {h : Hw} {p : Port}

theorem exec_helloRx_eq {d : List Byte} (hf : s.hw.helloRx p d = h) : exec (.helloRx p d) s = .next (s.setHw h).settle := by
  rw [exec_helloRx]
  exact onTx_eq hf

theorem exec_helloSend_eq (hf : s.hw.helloSend p = h) : exec (.helloSend p) s = .next (s.setHw h).settle := by
  rw [exec_helloSend]
  exact onTx_eq hf

theorem exec_linkDead_of_live (hl : s.hw.linkLive p = true) : exec (.linkDead p) s = .next (s.setHw
    ((((s.hw.leaveLive p 3 true).raise 0xC02 (portSl p) 15 p).sfCount 11).enterSyncing p)).settle := by
  rw [exec_linkDead]
  exact onTx_eq (if_pos hl)

theorem exec_linkDead_of_down (hl : s.hw.linkLive p = false) : exec (.linkDead p) s = .next s.settle := by
  rw [exec_linkDead]
  exact onTx_eq (if_neg (Bool.eq_false_iff.mp hl))

theorem exec_sfMemberWrite_eq {v : Word} (hf : s.hw.sfMemberWrite v.toNat = h) : exec (.sfMemberWrite v) s = .next (s.setHw h) := by
  rw [exec_sfMemberWrite]
  exact onHw_eq hf

theorem exec_reachRead_eq (hf : s.hw.reachRead = h) : exec .reachRead s = .next (s.setHw h) := by
  rw [exec_reachRead]
  exact onHw_eq hf

theorem exec_reachWrite_eq (hf : s.hw.reachWrite = h) : exec .reachWrite s = .next (s.setHw h) := by
  rw [exec_reachWrite]
  exact onHw_eq hf

end

/-- Settles O35: hellos by state, check, kind and neighbour, the others by their one guard. -/
theorem fabricLinks : Obligations.FabricLinks := by
  refine ⟨fun v s => ⟨fun hoff => exec_sfMemberWrite_eq (Hw.sfMemberWrite_of_free hoff),
      fun hon => exec_sfMemberWrite_eq (Hw.sfMemberWrite_of_enabled hon)⟩,
    fun p s => ⟨fun hst hup hs => exec_helloSend_eq (Hw.helloSend_of_up hst hup hs),
      fun hup => exec_helloSend_eq (Hw.helloSend_of_not_up hup)⟩,
    fun p d s hf => ⟨fun hst => exec_helloRx_eq (Hw.helloRx_of_down hst),
      fun hst hbad => exec_helloRx_eq (Hw.helloRx_of_bad hf hst hbad),
      fun hst hlong hcheck hkind => exec_helloRx_eq (Hw.helloRx_of_other_kind hf hst hlong hcheck hkind),
      fun hlong hcheck hkind hother hsrc hid => ⟨fun hsync hheard hnext hhears hvalid => ?_, fun hlive hfar => ?_⟩⟩,
    fun p s => ⟨exec_linkDead_of_live, exec_linkDead_of_down⟩,
    fun s hidle => ⟨exec_reachRead_eq (Hw.reachRead_of_idle hidle), fun m hm => ?_⟩⟩
  · exact exec_helloRx_eq ((Hw.helloRx_of_good hf ⟨hlong, hcheck, hkind⟩ (by omega)).trans
      (Hw.takeHello_of_synced (Hw.knowsHello_of hother hsrc hid) hsync hheard hnext hhears hvalid))
  · exact exec_helloRx_eq ((Hw.helloRx_of_good hf ⟨hlong, hcheck, hkind⟩ (by omega)).trans
      (Hw.takeHello_of_far (Hw.knowsHello_of hother hsrc hid) hlive hfar))
  · subst hm
    refine ⟨fun hok => exec_reachWrite_eq (Hw.reachWrite_of_ok hidle fun j hj => (s.hw.hopOk_iff j).mpr (hok j hj)),
      fun ⟨j, hj, hw, hno⟩ => exec_reachWrite_eq (Hw.reachWrite_of_bad hidle ⟨j, hj, ?_⟩)⟩
    rw [Bool.eq_false_iff, ne_eq, Hw.hopOk_iff]
    rintro (h0 | ⟨hlt, hfab⟩)
    · exact hw h0
    · exact hno.elim (fun hge => absurd hlt (Nat.not_lt.mpr hge)) fun hf => absurd hfab (Bool.eq_false_iff.mp hf)

theorem leNat_slice_lt (d : List Byte) (i : Nat) : leNat (slice d i 8) < 2 ^ 64 := by
  have hlt : ∀ l : List Byte, leNat l < 256 ^ l.length := by
    intro l
    induction l with
    | nil => exact Nat.one_pos
    | cons b r ih =>
      have hb := b.isLt
      simp only [leNat, List.length_cons, Nat.pow_succ]
      omega
  exact (hlt _).trans_le ((Nat.pow_le_pow_right (by decide) (List.length_take_le 8 _)).trans (by decide))

/-- Settles O50: the device's own number leaves the link synchronising; another neighbour's makes a LIVE link synchronise anew and is
recorded. -/
theorem memberConflict : Obligations.MemberConflict := by
  intro p d s hf hlong hkind
  refine fun hcheck => ⟨fun hsync hown => ⟨?_, ?_⟩, fun hlive hother hch => ⟨?_, ?_, ?_, ?_⟩⟩
  · exact exec_helloRx_eq ((Hw.helloRx_of_good hf ⟨hlong, hcheck, hkind⟩ (by omega)).trans (Hw.takeHello_of_own hsync hown))
  · rw [Hw.rd_wr_beside _ _ _ _ _ _ _ _ _ _ (by decide) (by decide) (by decide), Hw.rd_setBit_other _ _ _ _ _ _ _ _ _ (by decide),
      Hw.raise_rd]
    exact hsync
  · exact exec_helloRx_eq ((Hw.helloRx_of_good hf ⟨hlong, hcheck, hkind⟩ (by omega)).trans
      (Hw.takeHello_of_changed hlive hother hch))
  · rw [Hw.adopt_state, Hw.enterSyncing_state]
  · exact Hw.adopt_member _ _ _ _ _ _ _ _ (Nat.mod_lt _ (by decide))
  · exact Hw.adopt_id _ _ _ _ _ _ _ _ (leNat_slice_lt _ _)

end Sys2Proof.Machine
end

section
/-! The twin pair: records sent, heartbeats, records received, the partner lost (R452 to R455). -/

namespace Sys2Proof.Machine

section
variable {s : State} {h : Hw}

theorem exec_twinRecordSend_eq (hf : s.hw.twinSend = h) : exec .twinRecordSend s = .next (s.setHw h).settle := by
  rw [exec_twinRecordSend]
  exact onTx_eq hf

theorem Hw.twinSend_of_empty (hq : h.twin.queue = []) : h.twinSend = h := by
  unfold Hw.twinSend
  split
  · rfl
  · exact if_pos (by simp [hq])

theorem Hw.twinSend_of_queued {p : Nat} (hsync : h.syncLink = some p) (hup : h.link p = 5) (hs : h.silent p = false)
    (hgasp : h.on .LG_STATUS_lastgasp = false) (hq : h.twin.queue ≠ []) : h.twinSend =
      (let k : Hw := { h with twin := { h.twin with queue := h.twin.queue.drop 15 } }
       (k.sendKind p 3 (some (k.rd .TP_CTRL_partner)) none
         (List.replicate 8 0#8 ++ (h.twin.queue.take 15).flatten)).tpCount 0 (h.twin.queue.take 15).length) := by
  unfold Hw.twinSend
  rw [hsync]
  exact if_neg (by simp [hup, hs, hgasp, hq])

theorem exec_twinHeartbeat_of_enabled (hon : s.hw.on .TP_CTRL_enable = true) :
    exec .twinHeartbeat s = .next (s.setHw
      (s.hw.twinQueue 1 0 0 (leBytes 8 (s.hw.val .TP_HOSTWORD) ++ leBytes 1 (s.hw.current + 2 * s.hw.rd .ED_STATUS_other_state)
        ++ List.replicate 7 0#8 ++ leBytes 8 (s.hw.val .GL_DEVICE_ID)))) := by
  rw [exec_twinHeartbeat]
  exact onHw_eq (if_pos hon)

theorem exec_twinHeartbeat_of_disabled (hoff : s.hw.on .TP_CTRL_enable = false) : exec .twinHeartbeat s = .next s := by
  rw [exec_twinHeartbeat]
  exact onHw_stands (if_neg (Bool.eq_false_iff.mp hoff))

theorem exec_twinPartnerLost_of_up (hup : s.hw.on .TP_STATUS_partner_up = true) :
    exec .twinPartnerLost s = .next (s.setHw
      (((s.hw.wr .TP_STATUS_partner_up 0).setBit .TP_EVENT_events 1).raise 0xC10 8)) := by
  rw [exec_twinPartnerLost]
  exact onHw_eq (if_pos hup)

theorem exec_twinPartnerLost_of_down (hdown : s.hw.on .TP_STATUS_partner_up = false) : exec .twinPartnerLost s = .next s := by
  rw [exec_twinPartnerLost]
  exact onHw_stands (if_neg (Bool.eq_false_iff.mp hdown))

/-! ### Records received (R453, R455) -/

section
variable {p : Nat} {r : List Byte}

/-- How far a record's sequence lies ahead of the expected one, as a pair link's record is taken. -/
def Hw.twinAhead (h : Hw) (r : List Byte) : Nat := (leNat (slice r 4 4) + 2 ^ 32 - (h.tpCount 1).rd .TP_PEERSTAT_rx_seq) % 2 ^ 32

theorem Hw.twinRx_of_other_link (hp : h.pairLink p = false) : h.twinRx p r = h := by
  unfold Hw.twinRx
  simp only [hp, Bool.not_false, if_true]

section
variable (hp : h.pairLink p = true) (hup : (h.tpCount 1).on .TP_STATUS_partner_up = true)
include hp hup

theorem Hw.twinRx_of_expected (hseq : h.twinAhead r = 0) :
    h.twinRx p r = ((h.tpCount 1).wr .TP_PEERSTAT_rx_seq (leNat (slice r 4 4) + 1)).twinApply p r := by
  unfold Hw.twinAhead at hseq
  unfold Hw.twinRx
  simp only [hp, hup, hseq, Bool.not_true, Bool.false_eq_true, if_false, if_true, show ¬2 ^ 31 ≤ 0 by decide]

theorem Hw.twinRx_of_gap (hpos : 0 < h.twinAhead r) (hlt : h.twinAhead r < 2 ^ 31) :
    h.twinRx p r = (((((h.tpCount 1).wr .TP_STATUS_sync_gap 1).setBit .TP_EVENT_events 2).raise 0xC11 8).wr .TP_PEERSTAT_rx_seq
      (leNat (slice r 4 4) + 1)).twinApply p r := by
  unfold Hw.twinAhead at hpos hlt
  unfold Hw.twinRx
  simp only [hp, hup, Nat.not_le.mpr hlt, hpos.ne', Bool.not_true, Bool.false_eq_true, if_false, if_true]

theorem Hw.twinRx_of_repeated (hge : 2 ^ 31 ≤ h.twinAhead r) : h.twinRx p r = (h.tpCount 1).tpCount 3 := by
  unfold Hw.twinAhead at hge
  unfold Hw.twinRx
  simp only [hp, hup, hge, Bool.not_true, Bool.false_eq_true, if_false, if_true]

end

end

section
variable {p : Port} {r : List Byte}

theorem exec_twinRecordRx_of_other_link (hp : s.hw.pairLink p = false) : exec (.twinRecordRx p r) s = .next s := by
  rw [exec_twinRecordRx]
  exact onHw_stands (Hw.twinRx_of_other_link hp)

theorem exec_twinRecordRx_eq (hlen : r.length = 64) (hf : s.hw.twinRx p r = h) :
    exec (.twinRecordRx p r) s = .next (s.setHw h) := by
  have hpad : padTo 64 r = r := by
    unfold padTo
    rw [hlen, Nat.sub_self, List.replicate_zero, List.append_nil, List.take_of_length_le hlen.le]
  rw [exec_twinRecordRx]
  refine onHw_eq ?_
  rw [hpad, hf]

end

end

/-- Settles O36: a record by its link and its sequence, the rest by their one guard. -/
theorem twinPair : Obligations.TwinPair := by
  refine ⟨fun p s hsync hup hs hgasp hq => exec_twinRecordSend_eq (Hw.twinSend_of_queued hsync hup hs hgasp hq),
    fun s hq => exec_twinRecordSend_eq (Hw.twinSend_of_empty hq),
    fun s => ⟨exec_twinHeartbeat_of_enabled, exec_twinHeartbeat_of_disabled⟩,
    fun p r s hp => exec_twinRecordRx_of_other_link hp, fun p r s hlen hp hup => ⟨fun hseq => ?_, fun hpos hlt => ?_, fun hge => ?_⟩,
    fun s => ⟨exec_twinPartnerLost_of_up, exec_twinPartnerLost_of_down⟩⟩
  · exact exec_twinRecordRx_eq hlen (Hw.twinRx_of_expected hp hup hseq)
  · exact exec_twinRecordRx_eq hlen (Hw.twinRx_of_gap hp hup hpos hlt)
  · exact exec_twinRecordRx_eq hlen (Hw.twinRx_of_repeated hp hup hge)

end Sys2Proof.Machine
end

section
/-! Power states of slices, lanes and clerks (R461 to R468). -/

namespace Sys2Proof.Machine

section
variable {s : State} {h : Hw}

/-! ### Slices (R461 to R465) -/

section
variable {n v : Nat}

/-- A slice command's bank field stored. -/
def Hw.sliceBank (h : Hw) (n v : Nat) : Hw := h.wr .PW_SLICECMD_load_bank (if bits v 53 52 = 3 then 0 else bits v 53 52) n

section
variable (hgo : bit v 63 = true)
include hgo

theorem Hw.sliceCmd_of_busy (hbusy : h.on .PW_SLICECMD_busy n = true) : h.sliceCmd n v = h := by
  unfold Hw.sliceCmd
  simp only [hgo, hbusy, Bool.not_true, Bool.false_eq_true, if_false, if_true]

section
variable (hidle : h.on .PW_SLICECMD_busy n = false)
include hidle

theorem Hw.sliceCmd_of_same (hsame : (h.sliceBank n v).slicePower n = bits v 57 56) :
    h.sliceCmd n v = (h.sliceBank n v).sliceEnd n 1 := by
  unfold Hw.sliceBank at hsame ⊢
  unfold Hw.sliceCmd
  simp only [hgo, hidle, hsame, Bool.not_true, Bool.false_eq_true, if_false, if_true]

theorem Hw.sliceCmd_of_held (hcur : (h.sliceBank n v).slicePower n = 1) (htarget : bits v 57 56 = 3)
    (hheld : (h.sliceBank n v).held = true) : h.sliceCmd n v = (h.sliceBank n v).sliceEnd n 6 := by
  unfold Hw.sliceBank at hcur hheld ⊢
  unfold Hw.sliceCmd
  simp only [hgo, hidle, hcur, htarget, hheld, Bool.not_true, Bool.false_eq_true, if_false, if_true, Nat.reduceEqDiff,
    Nat.reduceLT, and_self]

end

end

theorem Hw.sliceEnd_idle (r : Nat) : (h.sliceEnd n r).on .PW_SLICECMD_busy n = false := by
  unfold Hw.sliceEnd Hw.pwEvent
  rw [Hw.on_setBit_other _ _ _ _ _ _ _ _ _ (by decide),
    Hw.on_wr_beside _ _ _ _ _ _ _ _ _ _ (by decide) (by decide) (by decide), Hw.on_wr_other _ _ _ _ _ _ _ _ _ _ (by decide)]
  unfold Hw.on
  rw [Hw.rd_wr_same _ _ _ _ _ _ (by decide)]
  rfl

theorem Hw.setSlice_slicePower {x : Nat} (hx : x < 4) : (h.setSlice n x).slicePower n = x := by
  unfold Hw.setSlice Hw.slicePower
  rw [Hw.rd_wr_same _ _ _ _ _ _ (by decide)]
  exact Nat.mod_eq_of_lt hx

/-- Where no change is forced on anything, none waits. -/
theorem Hw.forcedNow_of_none {f : Hw → Nat → Hw} (hnone : h.io.forced = []) (who : Nat) : h.forcedNow who f = h := by
  have hio : ({ h with io := { h.io with forced := [] } } : Hw) = h := by rw [← hnone]
  unfold Hw.forcedNow
  rw [hnone, List.filter_nil, List.filter_nil, hio]
  rfl

/-- The last step of a slice toward ACTIVE (R463). -/
theorem Hw.sliceReach_active (hcur : h.slicePower n = 2) (htarget : h.rd .PW_SLICECMD_state n = 3) (hnone : h.io.forced = [])
    (failed : Nat) : h.sliceReach n failed = (h.setSlice n 3).sliceEnd n 1 := by
  have hgo : (h.setSlice n 3).sliceGo n = (h.setSlice n 3).sliceEnd n 1 := by
    have hreached : (h.setSlice n 3).slicePower n = (h.setSlice n 3).rd .PW_SLICECMD_state n := by
      rw [Hw.setSlice_slicePower (by decide), Hw.setSlice, Hw.rd_wr_other _ _ _ _ _ _ _ _ _ _ (by decide), htarget]
    unfold Hw.sliceGo
    simp only [hreached, if_true]
  have hstep : sliceStep 2 (h.rd .PW_SLICECMD_state n) = 3 := by rw [htarget]; rfl
  unfold Hw.sliceReach
  simp only [hstep, hcur, Nat.reduceEqDiff, if_false, hgo, Hw.sliceEnd_idle, Bool.false_eq_true]
  refine Hw.forcedNow_of_none ?_ n
  simp only [Hw.sliceEnd, Hw.setSlice, Hw.pwEvent, Hw.setBit_io, Hw.wr_io, hnone]

end

section
variable {n : Slice}

theorem exec_slicePowerCmd_eq {v : Word} (hf : s.hw.sliceCmd n v.toNat = h) :
    exec (.slicePowerCmd n v) s = .next (s.setHw h).settle := by
  rw [exec_slicePowerCmd]
  exact onTx_eq hf

section
variable {failed : BitVec 9}

theorem exec_sliceTransitionDone_of_idle (hidle : s.hw.on .PW_SLICECMD_busy n = false) :
    exec (.sliceTransitionDone n failed) s = .next s.settle := by
  rw [exec_sliceTransitionDone]
  refine onTx_eq ?_
  simp only [hidle, Bool.not_false, if_true]

section
variable (hbusy : s.hw.on .PW_SLICECMD_busy n = true)
include hbusy

theorem exec_sliceTransitionDone_of_undrained (hcur : s.hw.slicePower n = 3) (hheld : s.hw.sliceDrained n = false) :
    exec (.sliceTransitionDone n failed) s = .next s.settle := by
  rw [exec_sliceTransitionDone]
  refine onTx_eq ?_
  simp only [hbusy, hcur, hheld, Bool.not_true, Bool.not_false, beq_self_eq_true, Bool.and_self, Bool.false_eq_true, if_false,
    if_true]

theorem exec_sliceTransitionDone_of_step (hcur : s.hw.slicePower n ≠ 3) (hf : s.hw.sliceReach n failed.toNat = h) :
    exec (.sliceTransitionDone n failed) s = .next (s.setHw h).settle := by
  rw [exec_sliceTransitionDone]
  refine onTx_eq ?_
  simp only [hbusy, beq_eq_false_iff_ne.mpr hcur, hf, Bool.not_true, Bool.false_and, Bool.false_eq_true, if_false]

end

end

theorem exec_quiesceTimeout_of_active (hbusy : s.hw.on .PW_SLICECMD_busy n = true) (hcur : s.hw.slicePower n = 3)
    (htarget : s.hw.rd .PW_SLICECMD_state n < 3) :
    exec (.quiesceTimeout n) s = .next (s.setHw ((s.hw.sliceDiscard n).sliceReach n 0)).settle := by
  rw [exec_quiesceTimeout]
  refine onTx_eq ?_
  simp only [hbusy, hcur, htarget, beq_self_eq_true, decide_true, Bool.and_self, if_true]

theorem exec_quiesceTimeout_stands (hcur : s.hw.slicePower n ≠ 3) : exec (.quiesceTimeout n) s = .next s.settle := by
  rw [exec_quiesceTimeout]
  refine onTx_eq ?_
  simp only [beq_eq_false_iff_ne.mpr hcur, Bool.and_false, Bool.false_and, Bool.false_eq_true, if_false]

end

/-! ### Lanes (R466) -/

section
variable {l : Lane}

theorem exec_lanePower_eq {v : Word} (hf : s.hw.laneWrite l v.toNat = h) : exec (.lanePower l v) s = .next (s.setHw h) := by
  rw [exec_lanePower]
  exact onHw_eq hf

theorem Hw.laneWrite_of_reserved {l v : Nat} (hres : bits v 63 62 = 3 ∨ 2 < bits v 57 55) : h.laneWrite l v = h := if_pos hres

theorem exec_laneTransitionDone_of_reached
    (hsame : s.hw.rd .SD_LANESTAT_pwr_state (portIx l) (portSl l) = s.hw.rd .SD_LANECFG_pwr (portIx l) (portSl l)) :
    exec (.laneTransitionDone l) s = .next s.settle := by
  rw [exec_laneTransitionDone]
  exact onTx_eq (if_pos hsame)

theorem Hw.setLane_standby (l : Nat) : (h.setLane l 1).rd .SD_LANESTAT_pwr_state (l % 96) (l / 96) = 1 := by
  unfold Hw.setLane
  simp only [Nat.reduceEqDiff, if_false]
  rw [Hw.rd_wr_beside _ _ _ _ _ _ _ _ _ _ (by decide) (by decide) (by decide),
    Hw.rd_wr_beside _ _ _ _ _ _ _ _ _ _ (by decide) (by decide) (by decide),
    Hw.rd_wr_beside _ _ _ _ _ _ _ _ _ _ (by decide) (by decide) (by decide), Hw.rd_wr_same _ _ _ _ _ _ (by decide)]
  rfl

theorem exec_laneTransitionDone_of_off (hcur : s.hw.rd .SD_LANESTAT_pwr_state (portIx l) (portSl l) = 0)
    (htarget : s.hw.rd .SD_LANECFG_pwr (portIx l) (portSl l) = 2) :
    exec (.laneTransitionDone l) s = .next (s.setHw (s.hw.setLane l 1)).settle := by
  have hstandby : (s.hw.setLane l 1).rd .SD_LANESTAT_pwr_state (portIx l) (portSl l) = 1 := Hw.setLane_standby l
  rw [exec_laneTransitionDone]
  refine onTx_eq ?_
  simp only [hcur, htarget, hstandby, Nat.reduceEqDiff, and_self, if_true, if_false]

end

/-! ### Clerks (R468) -/

section
variable {c : Clerk}

theorem exec_clerkPowerCmd_eq {v : Word} (hf : s.hw.clerkPowerCmd c v.toNat = h) :
    exec (.clerkPowerCmd c v) s = .next (s.setHw h) := by
  rw [exec_clerkPowerCmd]
  exact onHw_eq hf

theorem Hw.clerkPowerCmd_of_ignored {c v : Nat}
    (hno : bit v 63 = false ∨ h.on .PW_CLERKCMD_busy c = true ∨ bits v 57 56 = 2) : h.clerkPowerCmd c v = h := by
  unfold Hw.clerkPowerCmd
  refine if_pos ?_
  obtain hx | hx | hx := hno <;> simp [hx]

theorem Hw.clerkPowerCmd_of_go {c v : Nat} (hgo : bit v 63 = true) (hidle : h.on .PW_CLERKCMD_busy c = false)
    (htarget : bits v 57 56 ≠ 2) : h.clerkPowerCmd c v =
      if h.clerkPower c = bits v 57 56 then h.clerkEnd c 1
      else if h.clerkPower c = 0 ∧ bits v 57 56 = 1 then h.clerkEnd c 2
      else if bits v 57 56 = 0 ∧ h.clerkState c ≠ 0 then h.clerkEnd c 5
      else (h.wr .PW_CLERKCMD_busy 1 c).wr .PW_CLERKCMD_state (bits v 57 56) c :=
  if_neg (by simp [hgo, hidle, htarget])

section
variable (hbusy : s.hw.on .PW_CLERKCMD_busy c = true)
include hbusy

theorem exec_clerkPowerDone_of_off (htarget : s.hw.rd .PW_CLERKCMD_state c = 0) :
    exec (.clerkPowerDone c) s = .next (s.setHw
      (((((s.hw.clerkOff c).setClerkState c 0).setClerkPower c 0).clerkEnd c 1).watch)) := by
  rw [exec_clerkPowerDone]
  refine onHw_eq ?_
  simp only [hbusy, htarget, Bool.not_true, Bool.false_eq_true, Nat.zero_ne_one, false_and, if_false, if_true]

theorem exec_clerkPowerDone_of_active (htarget : s.hw.rd .PW_CLERKCMD_state c = 3) :
    exec (.clerkPowerDone c) s = .next (s.setHw (((s.hw.setClerkPower c 3).clerkEnd c 1).watch)) := by
  rw [exec_clerkPowerDone]
  refine onHw_eq ?_
  simp only [hbusy, htarget, Bool.not_true, Bool.false_eq_true, Nat.reduceEqDiff, false_and, if_false]

theorem exec_clerkPowerDone_of_loads (htarget : s.hw.rd .PW_CLERKCMD_state c = 1) (hloads : (s.hw.clerk c).loads ≠ []) :
    exec (.clerkPowerDone c) s = .next s := by
  rw [exec_clerkPowerDone]
  refine onHw_stands ?_
  simp only [hbusy, htarget, hloads, Bool.not_true, Bool.false_eq_true, ne_eq, not_false_eq_true, and_self, if_false, if_true]

end

end

end

/-- Settles O37: each command and each transition by the case of its guard that the statement names. -/
theorem powerStates : Obligations.PowerStates := by
  refine ⟨fun n v s hgo => ⟨fun hbusy => exec_slicePowerCmd_eq (Hw.sliceCmd_of_busy hgo hbusy),
      fun hidle hsame => exec_slicePowerCmd_eq (Hw.sliceCmd_of_same hgo hidle hsame),
      fun hidle hcur htarget hheld => exec_slicePowerCmd_eq (Hw.sliceCmd_of_held hgo hidle hcur htarget hheld)⟩,
    fun n failed s => ⟨exec_sliceTransitionDone_of_idle, exec_sliceTransitionDone_of_undrained, fun hbusy hcur htarget hnone => ?_,
      exec_quiesceTimeout_of_active, exec_quiesceTimeout_stands⟩,
    fun l v s => ⟨fun hres => exec_lanePower_eq (Hw.laneWrite_of_reserved hres), fun _ _ => exec_lanePower_eq rfl,
      exec_laneTransitionDone_of_reached, exec_laneTransitionDone_of_off⟩,
    fun c v s => ⟨fun hno => exec_clerkPowerCmd_eq (Hw.clerkPowerCmd_of_ignored hno),
      fun hgo hidle htarget => exec_clerkPowerCmd_eq (Hw.clerkPowerCmd_of_go hgo hidle htarget)⟩,
    fun c s hbusy => ⟨exec_clerkPowerDone_of_off hbusy, exec_clerkPowerDone_of_active hbusy, exec_clerkPowerDone_of_loads hbusy⟩⟩
  exact exec_sliceTransitionDone_of_step hbusy (by omega) (Hw.sliceReach_active hcur htarget hnone _)

end Sys2Proof.Machine
end

section
/-! Supply alarms, power failure, temperature and the clock monitors (R460, R469 to R471). -/

namespace Sys2Proof.Machine

section
variable {s : State} {h : Hw}

/-! ### Supply (R469, R470) -/

/-- A rail's alarm shown, its die where it is the first. -/
def Hw.railShown (h : Hw) (rail die : Nat) : Hw :=
  let h := if h.rd .PW_RAILALARM_rails = 0 then h.wr .PW_RAILALARM_die die else h
  ((h.setBit .PW_RAILALARM_rails rail).wr .PW_STATUS_supply_alarm 1).pwEvent 4

theorem Hw.supplyAlarm_of_stack {rail die : Nat} {glitch : Bool} (hdie : 11 ≤ die) :
    h.supplyAlarm rail die glitch = (h.railShown rail die).raise 4 8 := by
  unfold Hw.supplyAlarm
  exact (if_neg (by omega)).trans ((if_neg (by omega)).trans (if_neg (by omega)))

theorem Hw.supplyAlarm_of_io {rail die : Nat} {glitch : Bool} (hdie : die = 10) :
    h.supplyAlarm rail die glitch = ((h.railShown rail die).raise (if glitch then 2 else 1) 8).zeroize 2 := by
  unfold Hw.supplyAlarm
  exact (if_neg (by omega)).trans ((if_neg (by omega)).trans (if_pos hdie))

section
variable {rail : Fin 7} {die : Fin 15} {glitch : Bool}

theorem exec_supplyAlarm_of_unused (hno : railUsed rail die = false) : exec (.supplyAlarm rail die glitch) s = .fault .illFormed := by
  rw [exec_supplyAlarm, execSupplyAlarm, hno, guarded_false]

theorem exec_supplyAlarm_eq (hused : railUsed rail die = true) (hf : s.hw.supplyAlarm rail die glitch = h) :
    exec (.supplyAlarm rail die glitch) s = .next (s.setHw h).settle := by
  rw [exec_supplyAlarm, execSupplyAlarm, hused, guarded_true]
  exact onTx_eq hf

end

theorem exec_pwrFailN_of_failed (hfail : s.hw.on .PW_STATUS_pwr_fail = true) : exec .pwrFailN s = .next s.settle := by
  rw [exec_pwrFailN]
  exact onTx_eq (if_pos hfail)

theorem exec_pwrFailN_of_first (hfirst : s.hw.on .PW_STATUS_pwr_fail = false) : exec .pwrFailN s = .next (s.setHw
    ((((s.hw.wr .PW_STATUS_pwr_fail 1).pwEvent 5).raise 5 8).lastGaspCut)).settle := by
  rw [exec_pwrFailN]
  exact onTx_eq (if_neg (Bool.eq_false_iff.mp hfirst))

/-! ### Temperature (R471) -/

section
variable {d : Fin 15} {temp : BitVec 16}

theorem exec_thermalWarn_of_crossing (hbelow : s.hw.dieTemp d < 16 * s.hw.rd .PW_CTRL_warn_c)
    (hreached : (16 * s.hw.rd .PW_CTRL_warn_c : Int) ≤ signed 16 temp.toNat) :
    exec (.thermalWarn d temp) s = .next (s.setHw (((s.hw.setTemp d temp.toNat).pwEvent 2).raise 8 8)) := by
  rw [exec_thermalWarn]
  exact onHw_eq (if_pos ⟨hbelow, hreached⟩)

theorem exec_thermalWarn_of_no_crossing (hno : (16 * s.hw.rd .PW_CTRL_warn_c : Int) ≤ s.hw.dieTemp d ∨
    signed 16 temp.toNat < 16 * s.hw.rd .PW_CTRL_warn_c) :
    exec (.thermalWarn d temp) s = .next (s.setHw (s.hw.setTemp d temp.toNat)) := by
  rw [exec_thermalWarn]
  refine onHw_eq (if_neg ?_)
  rintro ⟨hbelow, hreached⟩
  exact hno.elim (fun hx => absurd hbelow (Int.not_lt.mpr hx)) fun hx => absurd hreached (Int.not_le.mpr hx)

theorem exec_thermalCritical_of_crossing (hbelow : s.hw.dieTemp d < 1840) (hreached : 1840 ≤ signed 16 temp.toNat) :
    exec (.thermalCritical d temp) s = .next (s.setHw (s.hw.setTemp d temp.toNat).criticalTrip).settle := by
  rw [exec_thermalCritical]
  exact onTx_eq (if_pos ⟨hbelow, hreached⟩)

theorem exec_thermalCritical_of_no_crossing (hno : 1840 ≤ s.hw.dieTemp d ∨ signed 16 temp.toNat < 1840) :
    exec (.thermalCritical d temp) s = .next (s.setHw (s.hw.setTemp d temp.toNat)).settle := by
  rw [exec_thermalCritical]
  refine onTx_eq (if_neg ?_)
  rintro ⟨hbelow, hreached⟩
  exact hno.elim (fun hx => absurd hbelow (Int.not_lt.mpr hx)) fun hx => absurd hreached (Int.not_le.mpr hx)

end

/-! ### Clock monitors (R460) -/

section
variable {b : Fin 9}

theorem exec_clockMonitorFault_of_other (hb : b.val = 6 ∨ b.val = 7) : exec (.clockMonitorFault b) s = .fault .illFormed := by
  have hno : clockBit b = false := by
    obtain hx | hx := hb <;> rw [hx] <;> rfl
  rw [exec_clockMonitorFault, execClockMonitorFault, hno, guarded_false]

theorem exec_clockMonitorFault_of_clock (hb : b.val < 6 ∨ b.val = 8) :
    exec (.clockMonitorFault b) s = .next (s.setHw (s.hw.clockFault b)).settle := by
  have hyes : clockBit b = true := by simpa [clockBit] using hb
  rw [exec_clockMonitorFault, execClockMonitorFault, hyes, guarded_true]
  exact onTx_eq rfl

end

end

/-- Settles O38: an alarm by its die, the rest by their one guard. -/
theorem supplyAndHeat : Obligations.SupplyAndHeat := by
  refine ⟨fun rail die glitch s => ⟨exec_supplyAlarm_of_unused,
      fun hused => ⟨fun hdie => exec_supplyAlarm_eq hused (Hw.supplyAlarm_of_stack hdie),
        fun hdie => exec_supplyAlarm_eq hused (Hw.supplyAlarm_of_io hdie)⟩⟩,
    fun s => ⟨exec_pwrFailN_of_failed, exec_pwrFailN_of_first⟩,
    fun d temp s => ⟨exec_thermalWarn_of_crossing, exec_thermalWarn_of_no_crossing, exec_thermalCritical_of_crossing,
      exec_thermalCritical_of_no_crossing⟩,
    fun b s => ⟨exec_clockMonitorFault_of_other, exec_clockMonitorFault_of_clock⟩, fun k s => ⟨?_, ?_⟩⟩
  · rw [exec_sdRefclkLoss]
    exact onTx_eq rfl
  · rw [exec_pcieRefclkLoss]
    exact onHw_eq rfl

end Sys2Proof.Machine
end

section
/-! The timebase: steps and sets, PPS, time-of-day messages, timestamps, holdover (R460, R477 to R480). -/

namespace Sys2Proof.Machine

section
variable {s : State} {h : Hw}

/-! ### Steps and sets (R478) -/

/-- A move of the time that passes no minute and no second sets off nothing but its own marks. -/
theorem Hw.stepTo_of_same_second {k : Hw} {t : Nat} (hk : k = { h with time := t % 2 ^ 96 })
    (hminute : k.minute ≤ h.now / (60 * unitsPerSecond)) (hsecond : k.now / unitsPerSecond ≤ h.now / unitsPerSecond) :
    h.stepTo t = ((k.setBit .TB_EVENT_events 3).raise 0x021 8).count .TB_CNT_count 7 := by
  unfold Hw.stepTo Hw.ppsEdge
  simp only [← hk, Nat.not_lt.mpr hminute, Nat.not_lt.mpr hsecond, false_and, if_false]

theorem exec_tbSet_eq {v : Word} (hf : s.hw.tbSet v.toNat = h) : exec (.tbSet v) s = .next (s.setHw h).settle := by
  rw [exec_tbSet]
  exact onTx_eq hf

theorem exec_tbStep_eq {v : Word} (hf : s.hw.tbStep v.toNat = h) : exec (.tbStep v) s = .next (s.setHw h).settle := by
  rw [exec_tbStep]
  exact onTx_eq hf

/-- A remainder by 2 ^ 96 is its own remainder. -/
theorem toNat_emod_mod (x : Int) : (x % 2 ^ 96).toNat % 2 ^ 96 = (x % 2 ^ 96).toNat := by
  omega

/-! ### PPS and time of day (R479) -/

/-- A PPS edge latched and counted. -/
def Hw.ppsLatched (h : Hw) : Hw := ((h.setVal .TB_PPSCAP h.now).setBit .TB_EVENT_events 0).count .TB_CNT_count 1

theorem Hw.ppsIn_of_none (hno : h.ppsLatched.on .TB_TODRX_valid = false) : h.ppsIn = h.ppsLatched := by
  unfold Hw.ppsLatched at hno ⊢
  unfold Hw.ppsIn
  simp only [hno, Bool.not_false, if_true]

theorem Hw.ppsIn_of_unarmed (hheld : h.ppsLatched.on .TB_TODRX_valid = true)
    (hno : (h.ppsLatched.wr .TB_TODRX_valid 0).on .TB_CTRL_tod_arm = false) : h.ppsIn = h.ppsLatched.wr .TB_TODRX_valid 0 := by
  unfold Hw.ppsLatched at hheld hno ⊢
  unfold Hw.ppsIn
  simp only [hheld, hno, Bool.not_true, Bool.false_eq_true, if_false]

theorem Hw.ppsIn_of_armed (hheld : h.ppsLatched.on .TB_TODRX_valid = true)
    (harm : (h.ppsLatched.wr .TB_TODRX_valid 0).on .TB_CTRL_tod_arm = true) : h.ppsIn =
      ((h.ppsLatched.wr .TB_TODRX_valid 0).wr .TB_CTRL_tod_arm 0).tbSet
        ((h.ppsLatched.wr .TB_TODRX_valid 0).rd .TB_TODRX_seconds * unitsPerSecond) := by
  unfold Hw.ppsLatched at hheld harm ⊢
  unfold Hw.ppsIn
  simp only [hheld, harm, Bool.not_true, Bool.false_eq_true, if_false, if_true]

theorem exec_ppsIn_eq (hf : s.hw.ppsIn = h) : exec .ppsIn s = .next (s.setHw h).settle := by
  rw [exec_ppsIn]
  exact onTx_eq hf

section
variable {d : List Byte}

theorem exec_todInMessage_of_length (hlen : d.length ≠ 11) : exec (.todInMessage d) s = .fault .illFormed := by
  rw [exec_todInMessage, execTodInMessage, beq_eq_false_iff_ne.mpr hlen, guarded_false]

section
variable (hlen : d.length = 11)
include hlen

theorem exec_todInMessage_of_bad (hbad : byteAt d 0 ≠ 0xA5 ∨ fieldAt d 9 2 ≠ todCheck (d.take 9)) :
    exec (.todInMessage d) s = .next (s.setHw ((s.hw.raise 0x020 8).count .TB_CNT_count 3)) := by
  rw [exec_todInMessage, execTodInMessage, beq_iff_eq.mpr hlen, guarded_true]
  exact onHw_eq (if_pos hbad)

theorem exec_todInMessage_of_good (hfirst : byteAt d 0 = 0xA5) (hcheck : fieldAt d 9 2 = todCheck (d.take 9)) :
    exec (.todInMessage d) s = .next (s.setHw
      ((((s.hw.wr .TB_TODRX_valid (byteAt d 7 % 2)).wr .TB_TODRX_seconds (fieldAt d 1 6)).setBit .TB_EVENT_events 1).count
        .TB_CNT_count 2)) := by
  rw [exec_todInMessage, execTodInMessage, beq_iff_eq.mpr hlen, guarded_true]
  exact onHw_eq (if_neg (by simp [hfirst, hcheck]))

end

end

theorem exec_todOut_of_none (hno : s.hw.io.pps = none) : exec .todOut s = .next s := by
  rw [exec_todOut]
  refine onHw_stands ?_
  simp only [hno]

theorem exec_todOut_of_edge {second : Nat} (hedge : s.hw.io.pps = some second) :
    exec .todOut s = .next (s.setHw
      (let h : Hw := { s.hw with io := { s.hw.io with pps := none } }
       if h.on .TB_CTRL_tod_out_en then { h with sent := h.sent ++ [Out.tod (todMessage second)] } else h)) := by
  rw [exec_todOut]
  refine onHw_eq ?_
  simp only [hedge]

/-! ### Timestamps and the source (R460, R477, R480) -/

theorem exec_txtsPop_of_none (hno : s.hw.txts = []) : exec .txtsPop s = .next s := by
  rw [exec_txtsPop]
  refine onHw_stands ?_
  unfold Hw.txtsPop
  simp only [hno]

theorem exec_txtsPop_of_entry {p tag t : Nat} {r : List (Nat × Nat × Nat)} (he : s.hw.txts = (p, tag, t) :: r) :
    exec .txtsPop s = .next (s.setHw (({ s.hw with txts := r } : Hw).setVal .TB_TXTS_TIME t)) := by
  rw [exec_txtsPop]
  refine onHw_eq ?_
  unfold Hw.txtsPop
  simp only [he]

theorem exec_tsClkLoss_of_source (hsrc : s.hw.on .TB_CTRL_src = true) (hfree : s.hw.io.holdover = false) :
    exec .tsClkLoss s = .next (s.setHw
      (let h := ((s.hw.wr .PW_CLKMON_ts_clk 1).raise 0x012 8).setBit .PW_EVENT_events 6
       ({ h with io := { h.io with holdover := true } } : Hw).setBit .TB_EVENT_events 4)) := by
  rw [exec_tsClkLoss]
  refine onHw_eq (if_pos ?_)
  rw [hsrc, hfree]
  rfl

theorem exec_tsClkLoss_stands (hno : s.hw.on .TB_CTRL_src = false ∨ s.hw.io.holdover = true) :
    exec .tsClkLoss s = .next s := by
  rw [exec_tsClkLoss]
  refine onHw_stands (if_neg ?_)
  obtain hx | hx := hno <;> simp [hx]

end

/-- Settles O40: each command by the case of its guard that the statement names. -/
theorem timebase : Obligations.Timebase := by
  refine ⟨fun v s => ⟨fun h hh hminute hsecond => exec_tbSet_eq (Hw.stepTo_of_same_second hh hminute hsecond),
      fun h hh hminute hsecond => exec_tbStep_eq (Hw.stepTo_of_same_second ?_ hminute hsecond)⟩,
    fun s => ⟨fun hno => exec_ppsIn_eq (Hw.ppsIn_of_none hno), fun hheld hno => exec_ppsIn_eq (Hw.ppsIn_of_unarmed hheld hno),
      fun hheld harm => exec_ppsIn_eq (Hw.ppsIn_of_armed hheld harm)⟩,
    fun d s => ⟨exec_todInMessage_of_length, exec_todInMessage_of_bad, exec_todInMessage_of_good⟩,
    fun s => ⟨?_, exec_todOut_of_none, fun second hedge => ⟨fun hon => ?_, fun hoff => ?_⟩, exec_txtsPop_of_none,
      fun p tag t r => exec_txtsPop_of_entry, exec_tsClkLoss_of_source, exec_tsClkLoss_stands, ?_⟩⟩
  · rw [toNat_emod_mod]
    exact hh
  · rw [exec_ppsOut]
    exact onTx_eq rfl
  · exact (exec_todOut_of_edge hedge).trans (next_setHw_congr (if_pos hon))
  · exact (exec_todOut_of_edge hedge).trans (next_setHw_congr (if_neg (Bool.eq_false_iff.mp hoff)))
  · rw [exec_tsClkRelock]
    exact onHw_eq rfl

end Sys2Proof.Machine
end

section
/-! Device resets and the board's pins: I2C, regulators, JTAG (R408, R474, R475, R495 to R500). -/

namespace Sys2Proof.Machine

section
variable {s : State} {h : Hw}

/-! ### Resets (R474, R475) -/

/-- The permanent state after a reset that is not of power-on. -/
def Perm.counted (p : Perm) (cause : Nat) : Perm := { p with cause := cause, count := min 255 (p.count + 1) }

section
variable (hs : s.Settled)
include hs

/-- A reset noted by a settled device is taken as the command ends: the transmit path is empty, the fuses stand. -/
theorem exec_reset_of_note {c : Instr} {f : Hw → Hw} (cause : Nat) (hc : cause ≠ 0) (hx : exec c s = onTx f s)
    (hf : f s.hw = s.hw.note (.reset cause)) :
    ∃ t, exec c s = .next t ∧ t.dev.tx = [] ∧ t.dev.perm = s.dev.perm.counted cause ∧ t.pending = s.pending := by
  have hnotes : (s.hw.note (.reset cause)).notes = [.reset cause] := congrArg (· ++ [Note.reset cause]) hs
  refine ⟨_, hx.trans (onTx_eq hf), ?_⟩
  have hdev : (s.setHw (s.hw.note (.reset cause))).settle.dev =
      Dev.reset { s.dev with hw := { s.hw.note (.reset cause) with notes := [] } } cause :=
    congrArg (List.foldl Dev.takeNote { s.dev with hw := { s.hw.note (.reset cause) with notes := [] } }) hnotes
  rw [hdev]
  refine ⟨rfl, ?_, rfl⟩
  unfold Dev.reset Perm.counted
  rw [if_neg hc]

theorem onTx_eq_of_no_note {f : Hw → Hw} (hf : f s.hw = h) (hnotes : h.notes = s.hw.notes) : onTx f s = .next (s.setHw h) := by
  rw [onTx_next f s (by rw [hf, hnotes]; exact hs), hf]

section
variable {o : Originator} {v : Word} (hnotes : h.notes = s.hw.notes) (hf : s.hw.glReset o v.toNat = h)
include hnotes hf

theorem exec_glResetArm_of_no_note : exec (.glResetArm o v) s = .next (s.setHw h) := by
  rw [exec_glResetArm]
  exact onTx_eq_of_no_note hs hf hnotes

theorem exec_glResetGo_of_no_note : exec (.glResetGo o v) s = .next (s.setHw h) := by
  rw [exec_glResetGo]
  exact onTx_eq_of_no_note hs hf hnotes

end

end

section
variable {o who : Originator} {v t : Nat}

theorem Hw.glReset_of_arm (harm : bit v 63 = true) : h.glReset o v = { h with io := { h.io with arm := some (o, h.up) } } := if_pos harm

section
variable (hno : bit v 63 = false)
include hno

theorem Hw.glReset_of_unarmed (hnone : h.io.arm = none) : h.glReset o v = h := by
  unfold Hw.glReset
  simp only [hno, hnone, Bool.false_eq_true, if_false, ite_self]

section
variable (hgo : bit v 62 = true) (harm : h.io.arm = some (who, t))
include hgo harm

theorem Hw.glReset_of_go (hwho : who = o) (hin : h.up - t ≤ 800000) : h.glReset o v = h.note (.reset 2) := by
  unfold Hw.glReset
  simp only [hno, hgo, harm, hwho, show armWindow = 800000 from rfl, hin, and_self, Bool.false_eq_true, if_false, if_true]

theorem Hw.glReset_of_refused (hout : who ≠ o ∨ 800000 < h.up - t) : h.glReset o v = h := by
  have hnot : ¬(who = o ∧ h.up - t ≤ 800000) := fun ⟨hwho, hin⟩ =>
    hout.elim (fun hx => hx hwho) fun hx => absurd hin (Nat.not_le.mpr hx)
  unfold Hw.glReset
  simp only [hno, hgo, harm, show armWindow = 800000 from rfl, hnot, Bool.false_eq_true, if_false, if_true]

end

end

end

end

/-- Settles O39: a reset is the settled device's one note; GL_RESET by its window; the PCIe reset by what it leaves of the FIFOs. -/
theorem deviceResets : Obligations.DeviceResets := by
  refine ⟨fun s hs => ⟨⟨_, exec_powerOn s, rfl, rfl, rfl⟩, exec_reset_of_note hs 1 (by decide) (exec_resetN s) rfl⟩,
    fun o v s hs => ⟨fun harm => ?_, fun who t hno hgo harm => ⟨fun hwho hin => ?_, fun hout => ?_⟩, fun hno hnone => ?_⟩,
    fun s => ⟨_, (exec_perstN s).trans (onHw_eq rfl), ?_⟩⟩
  · exact exec_glResetArm_of_no_note hs (by rfl) (Hw.glReset_of_arm harm)
  · exact exec_reset_of_note hs 2 (by decide) (exec_glResetGo o v s) (Hw.glReset_of_go hno hgo harm hwho hin)
  · exact exec_glResetGo_of_no_note hs rfl (Hw.glReset_of_refused hno hgo harm hout)
  · exact exec_glResetGo_of_no_note hs rfl (Hw.glReset_of_unarmed hno hnone)
  · obtain ⟨hfifo, hrx, hout⟩ := s.hw.endpointReset_fifos
    exact ⟨hfifo, hrx, hout, State.sameOutside_setHw _ _⟩

/-! ### The I2C target (R495 to R497) -/

section
variable {s : State} {h : Hw}

theorem exec_i2cBlockRead_of_served {cmd : Byte} (hrom : s.hw.io.rom = true) (hcmd : cmd.toNat < 0x80) :
    exec (.i2cBlockRead cmd) s = .next (s.setHw
      (let d := s.hw.i2cBlock cmd.toNat
       let a := 2 * s.hw.rd .GL_I2CT_address
       let msg := BitVec.ofNat 8 d.length :: d
       { s.hw with sent := s.hw.sent ++
        [Out.i2c (msg ++ [BitVec.ofNat 8 (pec ([BitVec.ofNat 8 a, cmd, BitVec.ofNat 8 (a + 1)] ++ msg))])] })) := by
  rw [exec_i2cBlockRead]
  exact onHw_eq (if_neg (by simp [hrom, hcmd]))

theorem exec_i2cBlockRead_of_unserved {cmd : Byte} (hno : s.hw.io.rom = false ∨ 0x80 ≤ cmd.toNat) :
    exec (.i2cBlockRead cmd) s = .next s := by
  rw [exec_i2cBlockRead]
  refine onHw_stands (if_pos ?_)
  obtain hx | hx := hno <;> simp [hx]

section
variable (hrom : h.io.rom = true) (act : Hw → Hw)
include hrom

theorem Hw.emergency_of_refused {arg : Byte} (harg : arg ≠ 0xA5#8) : h.emergency arg act = h.countSat .GL_I2CT_refused := by
  unfold Hw.emergency
  simp only [hrom, harg, Bool.not_true, Bool.false_eq_true, if_false]

theorem Hw.emergency_of_accepted : h.emergency 0xA5#8 act = act (h.countSat .GL_I2CT_accepted) := by
  unfold Hw.emergency
  simp only [hrom, Bool.not_true, Bool.false_eq_true, if_false, if_true]

end

section
variable {arg : Byte}

theorem exec_i2cZeroize_eq (hf : s.hw.emergency arg (·.zeroize 1) = h) : exec (.i2cZeroize arg) s = .next (s.setHw h).settle := by
  rw [exec_i2cZeroize]
  exact onTx_eq hf

theorem exec_i2cHold_eq (hf : s.hw.emergency arg (·.command 4 8 0x3FF none) = h) :
    exec (.i2cHold arg) s = .next (s.setHw h).settle := by
  rw [exec_i2cHold]
  exact onTx_eq hf

theorem exec_i2cReset_eq (hf : s.hw.emergency arg (·.note (.reset 3)) = h) : exec (.i2cReset arg) s = .next (s.setHw h).settle := by
  rw [exec_i2cReset]
  exact onTx_eq hf

end

/-! ### Regulators and JTAG (R498, R500) -/

theorem exec_vrPoll_eq {k : Fin 16} {r : Option VrReading} (hf : s.hw.vrPoll k r = h) : exec (.vrPoll k r) s = .next (s.setHw h) := by
  rw [exec_vrPoll]
  exact onHw_eq hf

theorem Hw.vrPoll_of_off {k : Nat} {r : Option VrReading} (hno : h.on .PW_VRCTRL_enable = false ∨ h.on .PW_VR_valid k = false) :
    h.vrPoll k r = h := by
  refine if_pos ?_
  obtain hx | hx := hno <;> simp [hx]

theorem Hw.vrPoll_of_failure {k : Nat} (hon : h.on .PW_VRCTRL_enable = true) (hvalid : h.on .PW_VR_valid k = true) :
    h.vrPoll k none =
      (let g := h.countSat .PW_VRDATA_failures k
       if g.rd .PW_VRDATA_failures k = 3 then (g.wr .PW_VRDATA_stale 1 k).raise 0x030 8 else g) := by
  refine if_neg ?_
  simp [hon, hvalid]

end

/-- Settles O41: I2C by what the boot ROM serves, a poll by whether it is due, JTAG by its instruction. -/
theorem boardPins : Obligations.BoardPins := by
  refine ⟨fun cmd s => ⟨exec_i2cBlockRead_of_served, exec_i2cBlockRead_of_unserved⟩,
    fun arg s hrom => ⟨fun harg => ⟨exec_i2cZeroize_eq (Hw.emergency_of_refused hrom _ harg),
        exec_i2cHold_eq (Hw.emergency_of_refused hrom _ harg), exec_i2cReset_eq (Hw.emergency_of_refused hrom _ harg)⟩,
      exec_i2cZeroize_eq (Hw.emergency_of_accepted hrom _), exec_i2cHold_eq (Hw.emergency_of_accepted hrom _),
      exec_i2cReset_eq (Hw.emergency_of_accepted hrom _)⟩,
    fun k r s => ⟨fun hno => exec_vrPoll_eq (Hw.vrPoll_of_off hno),
      fun hon hvalid => exec_vrPoll_eq (Hw.vrPoll_of_failure hon hvalid)⟩,
    fun ir s => ⟨?_, ?_, fun h1 h2 h3 h4 h5 h6 => ?_⟩⟩
  · rintro (rfl | rfl | rfl | rfl | rfl) <;> exact (exec_jtagInstruction _ s).trans (onTx_eq rfl)
  · rintro rfl
    exact (exec_jtagInstruction _ s).trans (onTx_eq rfl)
  · rw [exec_jtagInstruction]
    refine onTx_eq ?_
    split
    · exact absurd rfl h1
    · exact absurd rfl h2
    · exact absurd rfl h3
    · exact absurd rfl h4
    · exact absurd rfl h5
    · exact absurd rfl h6
    · rfl

end Sys2Proof.Machine
end

section
/-! The state after reset and the step of the block (R6, R474, log entry 2). -/

namespace Sys2Proof.Machine

/-! ### Reset values -/

section
variable (n : RegName) (f : Fld) (ix sl bank : Nat)

/-- After reset every register word reads its reset value. -/
theorem Hw.val_reset : Hw.reset.val n ix sl bank = resetWord ⟨n, sl, bank, ix⟩ % 2 ^ 64 := BitVec.toNat_ofNat _ _

theorem Hw.rd_reset : Hw.reset.rd f ix sl bank = bits (resetWord ⟨f.reg, sl, bank, ix⟩ % 2 ^ 64) f.hi f.lo := by
  unfold Hw.rd
  rw [Hw.val_reset]

end

/-- After reset a field of a register whose map row gives its reset value at every index reads that value's bits. -/
theorem Hw.rd_reset_of_row {f : Fld} {v : Nat} {ix sl bank : Nat} (hrow : resetWord ⟨f.reg, sl, bank, ix⟩ = (regRow f.reg).rst)
    (hv : bits ((regRow f.reg).rst % 2 ^ 64) f.hi f.lo = v) : Hw.reset.rd f ix sl bank = v := by
  rw [Hw.rd_reset, hrow, hv]

/-- Every event source's target after reset is the host. -/
theorem Hw.rd_reset_srcTarget (n : Nat) : Hw.reset.rd .EV_SRC_target n = 8 := by
  have hlevel : evLevelReset n = 15 ∨ evLevelReset n = 0 := ite_eq_or_eq _ _ _
  have hword : resetWord ⟨.EV_SRC, 0, 0, n⟩ = (8 <<< 8) + evLevelReset n := rfl
  rw [Hw.rd_reset, hword]
  obtain hx | hx := hlevel <;> rw [hx] <;> decide

/-- Settles O55: no word is stored after reset, so each field reads what its map row gives. -/
theorem resetIsClean : Obligations.ResetIsClean := by
  have hstate (c : Clerk) : State.reset.hw.clerkState c = 0 := by
    have hword : Hw.reset.rd .MC_STATUS_state = 0 := Hw.rd_reset_of_row rfl (by decide)
    exact (congrArg (bits · _ _) hword).trans (by simp [bits])
  have hpower (c : Clerk) : State.reset.hw.clerkPower c = 3 := by
    have hword : Hw.reset.rd .PW_STATUS_clerk_pwr = 0xFFFF := Hw.rd_reset_of_row rfl (by decide)
    exact (congrArg (bits · _ _) hword).trans (by revert c; decide)
  exact ⟨fun _ hx => absurd hx List.not_mem_nil, rfl, rfl, rfl, rfl, Memory.wf_reset,
    fun p => ⟨Hw.rd_reset_of_row rfl (by decide), Hw.rd_reset_of_row rfl (by decide), Hw.rd_reset_of_row rfl (by decide)⟩,
    fun n => ⟨Hw.rd_reset_of_row rfl (by decide), Hw.rd_reset_of_row rfl (by decide), Hw.rd_reset_of_row rfl (by decide),
      Hw.rd_reset_of_row rfl (by decide)⟩,
    Hw.rd_reset_of_row rfl (by decide), Hw.rd_reset_of_row rfl (by decide), Hw.rd_reset_of_row rfl (by decide),
    fun k => Hw.rd_reset_of_row rfl (by decide), Hw.rd_reset_of_row rfl (by decide), Hw.rd_reset_of_row rfl (by decide),
    Hw.rd_reset_of_row rfl (by decide), fun c => ⟨hstate c, hpower c⟩, fun n => Hw.rd_reset_srcTarget n,
    Hw.rd_reset_of_row rfl (by decide), rfl, Hw.rd_reset_of_row rfl (by decide), fun x => Hw.rd_reset_of_row rfl (by decide)⟩

/-! ### The step -/

/-- With nothing waiting a step is one idle tick of the device. -/
theorem step_of_idle {s : State} (hidle : s.pending = []) : step s = .next { s with dev := s.dev.tick } := by
  unfold step
  simp only [hidle]

/-- No word spells a command, so none is put at the front of the queue. -/
theorem State.withFetchWord_stands (nbits w : Nat) (s : State) : s.withFetchWord nbits w = s := rfl

/-- Settles O52: the step's two cases, and a table that gives no word. -/
theorem stepTakesFront : Obligations.StepTakesFront :=
  ⟨fun _ _ _ => rfl, fun _ hidle => step_of_idle hidle, fun nbits w s => ⟨rfl, State.withFetchWord_stands nbits w s⟩⟩

end Sys2Proof.Machine
end
